-- ==== Sys2Proof/Word.lean ====
section
/-! DEFINITION. The 36-bit word of R4, and a word with its poison bit (R39, R44). -/

namespace Sys2Proof

/-- A 36-bit machine word (R4). -/
abbrev Word := BitVec 36

/-- A byte. -/
abbrev Byte := BitVec 8

/-- A word as storage, queues and tokens carry it: 36 data bits and the poison bit. -/
structure PWord where
  v : Word
  p : Bool
deriving DecidableEq, Repr

/-- The word 0, not poisoned. -/
def PWord.zero : PWord := { v := 0, p := false }

/-- An unpoisoned word. -/
abbrev PWord.clean (w : Word) : PWord := { v := w, p := false }

end Sys2Proof
end

