-- ==== Sys2Proof/Syntax.lean ====
section
/-! DEFINITION. The commands of the block (spec/opcode_table.json) and the data they carry. What lies outside the
package (R1) reaches the block as an operand: frames, host memory reads, sensor readings, training outcomes. -/

namespace Sys2Proof

/-- The address space that a host access names (R338): BAR0, the PF's BAR4, or configuration space. -/
inductive HostSpace where
  | bar0 | bar4 | cfg
deriving DecidableEq, Repr

/-- The form of a host write (R7, R8, R341, R449): the byte enables of its first doubleword and its space, the doublewords
that follow with their byte enables, and the EP bit. -/
structure WriteForm where
  be : BitVec 4
  space : HostSpace
  more : List (BitVec 32 × BitVec 4)
  ep : Bool
deriving DecidableEq, Repr

/-- The form of a host read (R7, R449): the byte enables of its first doubleword and its space, and the byte enables of the
doublewords that follow. -/
structure ReadForm where
  be : BitVec 4
  space : HostSpace
  more : List (BitVec 4)
deriving DecidableEq, Repr

/-- How a training block comes on a lane (R276, R278): its sync header, and its distance to the first lane's block in block
times. -/
structure BlockHead where
  sync : BitVec 2
  skew : Nat
deriving DecidableEq, Repr

/-- A pop of a queue (R194): the queue, and the stored parity bits of its front entry that have changed. -/
structure Pop where
  queue : Nat
  upset : BitVec 8
deriving DecidableEq, Repr

/-- A Seal Port request as it comes to Kaolin (R313, R322): its frame's integrity check is good, and the Kaolin time in
ns. -/
structure SealFrame where
  good : Bool
  ns : Nat
deriving DecidableEq, Repr

/-- A CAL_COMMIT as it comes to Kaolin; `cut`: power is lost after the commit word and before the audit entry (R333). -/
structure CommitFrame where
  good : Bool
  ns : Nat
  cut : Bool
deriving DecidableEq, Repr

/-- A DC conversion (R317): its code, and the Kaolin time in ns. -/
structure Conversion where
  code : BitVec 24
  ns : Nat
deriving DecidableEq, Repr

/-- What Kaolin finds beside KRST_N (R312): the KREF_SEL strap, and whether VKAO is good. -/
structure KaoSupply where
  kref100 : Bool
  vkao : Bool
deriving DecidableEq, Repr

/-- Where a token arrives from (R164, R165): the die's own PEs, or a D2D link direction in a priority class, with the
bit errors the link added to the flit. -/
inductive TokSrc where
  | localPe (die : Fin 6)
  | link (dir : Fin 24) (err : BitVec 128)
deriving DecidableEq, Repr

/-- What the producer does with its next word at a Silt queue (R194, R196). -/
inductive PushEnv where
  | word | badParity | abort
deriving DecidableEq, Repr

/-- The regions of a storage deadlock (R215). -/
inductive Region where
  | overflow
  | lane (pe : Fin 64) (cls : Fin 8)
deriving DecidableEq, Repr

/-- Data of a device read of host memory: the bytes, the byte ranges (from, length) that arrived with the EP bit, and
the first byte whose completion was unsuccessful (R262, R267, R268, R354). (DESIGN CHOICE, log entry 10) -/
structure HostData where
  bytes : List Byte
  ep : List (Nat × Nat)
  errAt : Option Nat
deriving DecidableEq, Repr

/-- The completion of a command fetch (R347, R354). -/
inductive Fetch where
  | ok (pkt : BitVec 512)
  | poisoned
  | failed
deriving DecidableEq, Repr

/-- The device reads of host memory that a completion timeout can end (R339). -/
inductive HostReadId where
  | fetch (qp : Fin 64)
  | listEntry (ch : Fin 32)
  | burst (ch : Fin 32)
  | command
deriving DecidableEq, Repr

/-- The limit that held a clamp (R385). -/
inductive ClampLimit where
  | therm | cur | floor
deriving DecidableEq, Repr

/-- Which supply was lost (R433, R434). -/
inductive SupplyLoss where
  | vin | vinOver | vio
deriving DecidableEq, Repr

/-- A sensor reading (R408): a value, or an open or short diode. -/
inductive Reading where
  | val (x : Int)
  | fault
deriving DecidableEq, Repr

/-- The outcomes of the steps of a die or channel bring-up (R404): which step fails, and which ring links (own, other)
fail their training, and which links (hub, own ring link, other) degrade to half width (R17). -/
structure BringUp where
  failStep : Option Nat
  ringOwn : Bool
  ringPrev : Bool
  halves : BitVec 3
deriving DecidableEq, Repr

/-- The outcomes of a start's steps that depend on the world outside or on fabric defects (R396): failing essential step
(and whether by timeout), failing dies at steps 9, 10 and 11, failing ring links, D2D links that degrade to half width (R17), channels, port groups
and Twikel
links, whether PCI Express trains with the conservative set in Safe State (R400), the DIMM capacity of each channel in
bytes, the fuses' spare-column entries (bank, column), the width and the generation that PCI Express trains to (R337),
and the ledger and field repair slots whose CRC fails (R241, R398). (DESIGN CHOICE, log entry 15) -/
structure StartEnv where
  essential : Option (Nat × Bool)
  dies9 : BitVec 6
  hubs : BitVec 6
  dies11 : BitVec 6
  rings : BitVec 6
  halves : BitVec 12
  chans : BitVec 8
  groups : BitVec 4
  twikels : BitVec 2
  pcieCons : Bool
  dimm : List Nat
  fuses : List (Nat × Nat)
  width : Nat
  gen : Nat
  badLedger : BitVec 16
  badRepairs : List (Fin 4096)
deriving DecidableEq, Repr


/-- The commands of the block: one constructor per row of the opcode table, in its order. -/
inductive Instr where
  /-- ADD (R108). A firing that adds A and B, gives the sum and carry, and sets V and C. -/
  | add (die : Fin 6) (pe : Fin 64)
  /-- SUB (R108). A firing that subtracts B from A and gives the difference and borrow. -/
  | sub (die : Fin 6) (pe : Fin 64)
  /-- ADC (R109). A firing that adds A, B and a carry-in D of 0 or 1. -/
  | adc (die : Fin 6) (pe : Fin 64)
  /-- SBC (R109). A firing that subtracts B and a borrow-in D from A. -/
  | sbc (die : Fin 6) (pe : Fin 64)
  /-- NEG (R110). A firing that negates A and sets V for the most negative value. -/
  | neg (die : Fin 6) (pe : Fin 64)
  /-- MUL (R110). A firing that gives the low 36 bits of the signed product of A and B. -/
  | mul (die : Fin 6) (pe : Fin 64)
  /-- MULW (R110). A firing that gives the signed 72-bit product of A and B as two words. -/
  | mulw (die : Fin 6) (pe : Fin 64)
  /-- MULWU (R110). A firing that gives the unsigned 72-bit product of A and B as two words. -/
  | mulwu (die : Fin 6) (pe : Fin 64)
  /-- DIV (R138). A signed division that occupies the divider for 39 cycles and gives quotient and remainder. -/
  | div (die : Fin 6) (pe : Fin 64)
  /-- DIVU (R138). An unsigned division that occupies the divider for 39 cycles and gives quotient and remainder. -/
  | divu (die : Fin 6) (pe : Fin 64)
  /-- MIN (R108). A firing that gives the signed minimum of A and B. -/
  | min (die : Fin 6) (pe : Fin 64)
  /-- MAX (R108). A firing that gives the signed maximum of A and B. -/
  | max (die : Fin 6) (pe : Fin 64)
  /-- MINU (R108). A firing that gives the unsigned minimum of A and B. -/
  | minu (die : Fin 6) (pe : Fin 64)
  /-- MAXU (R108). A firing that gives the unsigned maximum of A and B. -/
  | maxu (die : Fin 6) (pe : Fin 64)
  /-- AND (R111). A firing that gives A AND B. -/
  | and (die : Fin 6) (pe : Fin 64)
  /-- OR (R111). A firing that gives A OR B. -/
  | or (die : Fin 6) (pe : Fin 64)
  /-- XOR (R111). A firing that gives A XOR B. -/
  | xor (die : Fin 6) (pe : Fin 64)
  /-- ANDN (R111). A firing that gives A AND NOT B. -/
  | andn (die : Fin 6) (pe : Fin 64)
  /-- NOT (R111). A firing that gives NOT A. -/
  | not (die : Fin 6) (pe : Fin 64)
  /-- SHL (R111). A firing that shifts A left by the count in B. -/
  | shl (die : Fin 6) (pe : Fin 64)
  /-- SHR (R111). A firing that shifts A right with zero fill. -/
  | shr (die : Fin 6) (pe : Fin 64)
  /-- SAR (R111). A firing that shifts A right with sign fill. -/
  | sar (die : Fin 6) (pe : Fin 64)
  /-- ROL (R111). A firing that rotates A left by the count mod 36. -/
  | rol (die : Fin 6) (pe : Fin 64)
  /-- ROR (R111). A firing that rotates A right by the count mod 36. -/
  | ror (die : Fin 6) (pe : Fin 64)
  /-- POPC (R111). A firing that counts the 1 bits of A. -/
  | popc (die : Fin 6) (pe : Fin 64)
  /-- CLZ (R111). A firing that counts the leading zero bits of A. -/
  | clz (die : Fin 6) (pe : Fin 64)
  /-- CEQ (R112). A firing that compares A and B for equality. -/
  | ceq (die : Fin 6) (pe : Fin 64)
  /-- CNE (R112). A firing that compares A and B for inequality. -/
  | cne (die : Fin 6) (pe : Fin 64)
  /-- CLT (R112). A firing that tests A < B, signed. -/
  | clt (die : Fin 6) (pe : Fin 64)
  /-- CLE (R112). A firing that tests A <= B, signed. -/
  | cle (die : Fin 6) (pe : Fin 64)
  /-- CLTU (R112). A firing that tests A < B, unsigned. -/
  | cltu (die : Fin 6) (pe : Fin 64)
  /-- CLEU (R112). A firing that tests A <= B, unsigned. -/
  | cleu (die : Fin 6) (pe : Fin 64)
  /-- STEER (R113). A firing that sends A on destination list 0 or 1, as control B selects. -/
  | steer (die : Fin 6) (pe : Fin 64)
  /-- SELECT (R114). A firing that gives A or B, as control D selects. -/
  | select (die : Fin 6) (pe : Fin 64)
  /-- MOV (R112). A firing that copies A. -/
  | mov (die : Fin 6) (pe : Fin 64)
  /-- GATE (R112). A firing that copies A once B has arrived and discards B. -/
  | gate (die : Fin 6) (pe : Fin 64)
  /-- FADD (R149). A floating-point addition in binary32 or F36. -/
  | fadd (die : Fin 6) (pe : Fin 64)
  /-- FSUB (R149). A floating-point subtraction in binary32 or F36. -/
  | fsub (die : Fin 6) (pe : Fin 64)
  /-- FMUL (R150). A floating-point multiplication in binary32 or F36. -/
  | fmul (die : Fin 6) (pe : Fin 64)
  /-- FFMA (R152). A fused multiply-add A x B + D with a single rounding. -/
  | ffma (die : Fin 6) (pe : Fin 64)
  /-- FDIV (R151). A floating-point division that uses the divider. -/
  | fdiv (die : Fin 6) (pe : Fin 64)
  /-- FSQRT (R153). A floating-point square root that uses the divider. -/
  | fsqrt (die : Fin 6) (pe : Fin 64)
  /-- FMIN (R154). A firing that gives the floating-point minimum. -/
  | fmin (die : Fin 6) (pe : Fin 64)
  /-- FMAX (R154). A firing that gives the floating-point maximum. -/
  | fmax (die : Fin 6) (pe : Fin 64)
  /-- FCEQ (R154). A floating-point equality compare. -/
  | fceq (die : Fin 6) (pe : Fin 64)
  /-- FCLT (R154). A floating-point less-than compare. -/
  | fclt (die : Fin 6) (pe : Fin 64)
  /-- FCLE (R154). A floating-point less-or-equal compare. -/
  | fcle (die : Fin 6) (pe : Fin 64)
  /-- FCUN (R154). A firing that tests whether either operand is a NaN. -/
  | fcun (die : Fin 6) (pe : Fin 64)
  /-- CVTFI (R155). A conversion of a floating-point value to a signed 36-bit integer. -/
  | cvtfi (die : Fin 6) (pe : Fin 64)
  /-- CVTFU (R155). A conversion of a floating-point value to an unsigned 36-bit integer. -/
  | cvtfu (die : Fin 6) (pe : Fin 64)
  /-- CVTIF (R156). A conversion of a signed integer to floating point. -/
  | cvtif (die : Fin 6) (pe : Fin 64)
  /-- CVTUF (R156). A conversion of an unsigned integer to floating point. -/
  | cvtuf (die : Fin 6) (pe : Fin 64)
  /-- FNEG (R153). A firing that inverts the sign bit of A. -/
  | fneg (die : Fin 6) (pe : Fin 64)
  /-- FABS (R153). A firing that clears the sign bit of A. -/
  | fabs (die : Fin 6) (pe : Fin 64)
  /-- CVT_X_S (R157). An exact conversion of binary32 to F36. -/
  | cvtXS (die : Fin 6) (pe : Fin 64)
  /-- CVT_S_X (R157). A rounded conversion of F36 to binary32. -/
  | cvtSX (die : Fin 6) (pe : Fin 64)
  /-- CALL (R118). A firing that writes the callee's link and sends argument tokens to the callee context. -/
  | call (die : Fin 6) (pe : Fin 64)
  /-- RET (R119). A firing that sends A to the link held in G14:G15. -/
  | ret (die : Fin 6) (pe : Fin 64)
  /-- SEND (R120). A firing that sends A to the tag held in B and D, possibly to another package. -/
  | send (die : Fin 6) (pe : Fin 64)
  /-- FALLOC (R122). A firing that pops a context from the die's free list and initialises its header. -/
  | falloc (die : Fin 6) (pe : Fin 64)
  /-- FFREE (R123). A firing that pushes a context onto the die's free list and sets it Free. -/
  | ffree (die : Fin 6) (pe : Fin 64)
  /-- SELF (R121). A firing that returns its own tag. -/
  | self (die : Fin 6) (pe : Fin 64)
  /-- PRIO (R121). A firing that sets the context's priority class and returns the old one. -/
  | prio (die : Fin 6) (pe : Fin 64)
  /-- EMIT (R124). A firing that sends a vector to a port's Pour window as POUR_WORD flits. -/
  | emit (die : Fin 6) (pe : Fin 64)
  /-- LTB_ACQ (R125). A firing that sends an acquire request to the Latch Bank and returns the reply. -/
  | ltbAcq (die : Fin 6) (pe : Fin 64)
  /-- LTB_REL (R126). A firing that releases a latch through the Latch Bank. -/
  | ltbRel (die : Fin 6) (pe : Fin 64)
  /-- BRK (R130). A breakpoint firing that faults or passes A, depending on brk_enable. -/
  | brk (die : Fin 6) (pe : Fin 64)
  /-- REP_I (R128). A repeated pair with a suspendable run of up to 2^32 - 1 repetitions. -/
  | repI (die : Fin 6) (pe : Fin 64) (reps : Nat)
  /-- REP_U (R127). A repeated pair whose 1 to 4,096 repetitions run without interruption. -/
  | repU (die : Fin 6) (pe : Fin 64) (reps : Nat)
  /-- RESUME_ITEM (R129). A dispatched resume item continues the repetitions of a suspended pair. -/
  | resumeItem (die : Fin 6) (pe : Fin 64) (reps : Nat)
  /-- DUPLICATE (R57). A kind 2 item is selected and delivers a DUPLICATE exception. -/
  | duplicate (die : Fin 6) (pe : Fin 64)
  /-- TOKEN (R164). A token arrives at its home die's Matching Store slice and is inserted, folded, matched or found duplicate. -/
  | token (src : TokSrc)
  /-- CHAIN_WALK_END (R169). A chain walk ends after its DDR reads and decides the arrival's outcome. -/
  | chainWalkEnd (die : Fin 6) (slot : Fin 64)
  /-- REGION_FULL_RELEASE (R170). A held insert completes once a chain record is freed. -/
  | regionFullRelease (die : Fin 6)
  /-- DISPATCH_PLACEMENT (R184). The dispatch unit places an enabled activity on a PE lane, possibly stealing. -/
  | dispatchPlacement (die : Fin 6)
  /-- FROZEN_ITEM_DISCARD (R218). A PE selects and discards an item of a FROZEN or ABORTING graph. -/
  | frozenItemDiscard (die : Fin 6) (pe : Fin 64)
  /-- MEM_RD_REQ (R18). A memory read request flit reaches its target and is served. -/
  | memRdReq (dir : Fin 24) (err : BitVec 128)
  /-- MEM_WR (R106). A memory write flit reaches its target and lands. -/
  | memWr (dir : Fin 24) (err : BitVec 128)
  /-- MEM_RD_RSP (R18). A memory read response reaches the waiting firing. -/
  | memRdRsp (dir : Fin 24) (err : BitVec 128)
  /-- POUR_WORD (R292). A POUR_WORD flit reaches the Pour stage and is written or discarded. -/
  | pourWord (dir : Fin 24) (err : BitVec 128)
  /-- D2D_CREDIT (R21). A D2D CREDIT flit returns cumulative credits for a pool. -/
  | d2dCredit (dir : Fin 24) (err : BitVec 128)
  /-- ACK (R20). A D2D LINK_CTRL ACK frees acknowledged flits from the replay buffer. -/
  | ack (dir : Fin 24) (err : BitVec 128)
  /-- NAK (R20). A D2D LINK_CTRL NAK makes the sender retransmit from the named number. -/
  | nak (dir : Fin 24) (err : BitVec 128)
  /-- TRAIN_DONE (R17). A D2D LINK_CTRL TRAIN_DONE ends link training. -/
  | trainDone (dir : Fin 24) (err : BitVec 128)
  /-- D2D_ACK_DUE (R20). The receiver's acknowledgement count or 64-cycle timer expires and an ACK is sent. -/
  | d2dAckDue (dir : Fin 24)
  /-- CRC_INJECT (R43). A write of D2D_LNK_CTRL.crc_inject corrupts the next numbered flit's CRC. -/
  | crcInject (link : Fin 12) (v : BitVec 32)
  /-- TWIKEL_TS1 (R26). A Twikel TS1 training block is received. -/
  | twikelTs1 (tw : Fin 2) (lane : Fin 8) (head : BlockHead) (blk : BitVec 64)
  /-- TWIKEL_TS2 (R26). A Twikel TS2 training block is received, carrying initial credits. -/
  | twikelTs2 (tw : Fin 2) (lane : Fin 8) (head : BlockHead) (blk : BitVec 64)
  /-- TWIKEL_RETRAIN (R26). The 1 ms wait after a Twikel training failure expires and training restarts. -/
  | twikelRetrain (tw : Fin 2)
  /-- TOKENS (R30). A Twikel TOKENS frame delivers up to three tokens for local routing or forwarding. -/
  | tokens (tw : Fin 2) (frame : BitVec 512)
  /-- TWIKEL_CREDIT (R29). A Twikel CREDIT frame returns token credits per class. -/
  | twikelCredit (tw : Fin 2) (frame : BitVec 512)
  /-- VERSION (R32). A Twikel VERSION frame records the peer's version and floor and applies compatibility. -/
  | version (tw : Fin 2) (frame : BitVec 512)
  /-- EPOCH (R32). A Twikel EPOCH frame records the peer's epoch. -/
  | epoch (tw : Fin 2) (frame : BitVec 512)
  /-- EPOCH_CHECK (R32). 2 us after an EPOCH frame the receiver checks its own boundary against the peer's. -/
  | epochCheck (tw : Fin 2)
  /-- TWIKEL_RETRY (R28). A Twikel RETRY frame makes the sender retransmit. -/
  | twikelRetry (tw : Fin 2) (frame : BitVec 512)
  /-- TWIKEL_IDLE (R28). A Twikel IDLE frame is received and its acknowledgement taken. -/
  | twikelIdle (tw : Fin 2) (frame : BitVec 512)
  /-- TWIKEL_ACK_DUE (R28). The 32-slot acknowledgement limit or 256-slot RETRY repeat timer expires on a Twikel link. -/
  | twikelAckDue (tw : Fin 2)
  /-- TWIKEL_CREDIT_DUE (R29). 16 pending credits or the 64-slot timer make a Twikel CREDIT frame due. -/
  | twikelCreditDue (tw : Fin 2)
  /-- TWIKEL_LINK_DOWN (R28). A Twikel link goes down; held tokens are discarded and credits reset. -/
  | twikelLinkDown (tw : Fin 2)
  /-- PFP_TS1 (R278). A port TS1 training block is received. -/
  | pfpTs1 (port : Fin 16) (lane : Fin 16) (head : BlockHead) (blk : BitVec 64)
  /-- PFP_TS2 (R278). A port TS2 training block is received and may make the link active. -/
  | pfpTs2 (port : Fin 16) (lane : Fin 16) (head : BlockHead) (blk : BitVec 64)
  /-- TRAINING_TIMEOUT (R278). Port training exceeds 10 ms and fails. -/
  | trainingTimeout (port : Fin 16)
  /-- TRAINING_RESTART (R278). The 1 ms wait after a port training failure expires and training restarts. -/
  | trainingRestart (port : Fin 16)
  /-- FAIL (R305). A FAIL frame is received and its record is pushed into the port's fail-ingest queue. -/
  | fail (port : Fin 16) (frame : BitVec 256)
  /-- PFP_CREDIT (R289). A port CREDIT frame adds a vector-credit delta. -/
  | pfpCredit (port : Fin 16) (frame : BitVec 256)
  /-- PFP_RETRY (R287). A port RETRY frame makes the sender retransmit. -/
  | pfpRetry (port : Fin 16) (frame : BitVec 256)
  /-- PFP_IDLE (R285). A port IDLE frame is received and its acknowledgement taken. -/
  | pfpIdle (port : Fin 16) (frame : BitVec 256)
  /-- PFP_ACK_DUE (R287). The 32-slot acknowledgement limit or 256-slot RETRY repeat timer expires on a port. -/
  | pfpAckDue (port : Fin 16)
  /-- FAIL_CREDIT_DUE (R290). 16 pending fail credits or the 64-slot timer make a port CREDIT frame due. -/
  | failCreditDue (port : Fin 16)
  /-- PFP_LINK_DOWN (R288). A port link goes down; the run ends with LINK and credits reset. -/
  | pfpLinkDown (port : Fin 16)
  /-- PRESENCE_CLEAR_DONE (R296). The POUR_ARM presence clear completes and the port enters ARMED. -/
  | presenceClearDone (port : Fin 16)
  /-- CONTROL_START (R297). The port sends CONTROL START in slot S0 - 1. -/
  | controlStart (port : Fin 16)
  /-- RUN_START (R297). The port enters RUNNING at slot S0. -/
  | runStart (port : Fin 16)
  /-- TICK_EXAMINATION (R299). At 8 ns before a tick's release the Pour stage reserves credits and examines the next slot. -/
  | tickExamination (port : Fin 16)
  /-- FAIL_RECORD (R306). The fail-ingest consumer decides a record and sends its tokens to the handler. -/
  | failRecord (port : Fin 16)
  /-- SILT_PUSH (R196). A producer pushes a word or item into a Silt queue. -/
  | siltPush (q : Nat) (env : PushEnv)
  /-- SILT_POP (R198). A consumer pops a visible entry from a Silt queue. -/
  | siltPop (pop : Pop)
  /-- REFILL_DONE (R192). A block read from the middle arrives in the queue's head; `lost` (R194) are the words
  of the block that the DDR controller returns with an uncorrectable error. -/
  | refillDone (q : Nat) (lost : List (Fin 32))
  /-- FLUSH (R200). A write of SQ_CTRL.flush discards every entry of the selected queue. -/
  | flush (v : BitVec 32)
  /-- DIAG_POP (R201). A read of SQ_DBG_POP_LO pops a word in DIAG mode or reports underrun. -/
  | diagPop (be : BitVec 4)
  /-- DRIP (R202). A queue's Drip timer expires and its class action is taken. -/
  | drip (q : Nat)
  /-- DIE_LEVEL_EVALUATION (R208). Every 64 CK_FAB cycles a die evaluates its Tamp level. -/
  | dieLevelEvaluation (die : Fin 6)
  /-- PACKAGE_FIGURE_SAMPLE (R208). At timebase 192 mod 256 each die samples and sends its fill figures. -/
  | packageFigureSample
  /-- PACKAGE_LEVEL_EVALUATION (R208). At timebase 0 mod 256 Bedrock evaluates the package level and tests for quiescence deadlock. -/
  | packageLevelEvaluation
  /-- PACKAGE_LEVEL_APPLY (R208). At timebase 128 mod 256 each die applies the package level. -/
  | packageLevelApply
  /-- CREDIT_WINDOW_REFILL (R211). Every 1,024 CK_FAB cycles each PE refills its per-class Tamp credits. -/
  | creditWindowRefill (die : Fin 6)
  /-- INJECT_CREDIT_REFILL (R212). Every 1,024 ns the Command Engine refills its host-injection credits. -/
  | injectCreditRefill
  /-- FLOOR_HELD (R213). A Tamp floor held for 1 ms sets floor_held and queues POLICY_CONFLICT. -/
  | floorHeld (die : Fin 6) (cls : Fin 8)
  /-- STORAGE_DEADLOCK (R215). A region full for the quiescence period declares a victim graph. -/
  | storageDeadlock (die : Fin 6) (region : Region)
  /-- KBOUND_RESERVATION (R205). Bedrock grants or refuses a FALLOC reservation against the graph's k-bound. -/
  | kboundReservation
  /-- RESERVATION_RELEASE (R205). Bedrock subtracts a granted reservation whose FALLOC faulted. -/
  | reservationRelease
  /-- LATCH_ACQUIRE (R244). The Latch Bank serves an acquire, returning ACQUIRED or HELD and registering a waiter. -/
  | latchAcquire (group : Fin 64)
  /-- LATCH_RELEASE (R245). The Latch Bank serves a release, freeing the latch and removing lifts. -/
  | latchRelease (group : Fin 64)
  /-- LIFT_MESSAGE (R247). A lift or unlift reaches the holder's die and changes its effective class. -/
  | liftMessage (die : Fin 6)
  /-- LTB_WIN_READ (R249). A host read of the Latch window acquires a latch. -/
  | ltbWinRead (fn : Fin 17) (latch : Fin 4096)
  /-- LTB_WIN_WRITE (R249). A host write of the Latch window releases a latch. -/
  | ltbWinWrite (fn : Fin 17) (latch : Fin 4096) (be : BitVec 4)
  /-- BANK_REQUEST (R228). A write of a bank's req field starts a power-state transition or is refused. -/
  | bankRequest (bank : Nat) (v : BitVec 32)
  /-- BANK_TRANSITION_DONE (R228). A bank completes its drain, restore or clear and reaches its new state. -/
  | bankTransitionDone (bank : Nat)
  /-- WRITE_BUFFER_DRAIN (R235). A PE write-buffer entry drains to its Frame Store bank. -/
  | writeBufferDrain (die : Fin 6) (pe : Fin 64)
  /-- HELD_WRITE_LAND (R234). A held idle-side write lands after every PE-side write to the word. -/
  | heldWriteLand (die : Fin 6)
  /-- ISD_POOL_BUILD (R61). A write of LM_ISD_COUNT starts a rebuild of the deferral-record pool. -/
  | isdPoolBuild (die : Fin 6) (v : BitVec 32)
  /-- ISD_BUILD_DONE (R61). The deferral-record pool build ends and building clears. -/
  | isdBuildDone (die : Fin 6)
  /-- BMV_DOORBELL (R260). A PF write of BMV_CH_DBELL starts a channel on a descriptor list. -/
  | bmvDoorbell (ch : Fin 32) (v : BitVec 32)
  /-- LIST_ENTRY_FETCH (R260). A list entry read completes and the entry is checked and run. -/
  | listEntryFetch (ch : Fin 32) (data : HostData)
  /-- BURST_GRANT (R263). The arbiter grants a free buffer to a ready channel's next burst. -/
  | burstGrant
  /-- BURST_READ_DONE (R262). A burst's source words arrive and are converted and written. -/
  | burstReadDone (ch : Fin 32) (data : HostData)
  /-- DESCRIPTOR_END (R265). After all writes are issued a descriptor takes its completion actions. -/
  | descriptorEnd (ch : Fin 32)
  /-- NOP (R357). A command that replies with the timebase. -/
  | nop
  /-- IDENTIFY (R358). A command that returns one identity page. -/
  | identify
  /-- RESET_SCOPE (R404). A command that resets a die, channel, port, link, function, queue pair or Bedrock. -/
  | resetScope (env : BringUp)
  /-- SET_FIELD (R359). A command that writes one register field under its class. -/
  | setField
  /-- GET_FIELD (R359). A command that reads one register field and its pending shadow. -/
  | getField
  /-- GRAPH_LOAD (R360). A command that checks and loads a graph image. -/
  | graphLoad (data : HostData)
  /-- GRAPH_START (R361). A command that activates a start context and injects its start tokens. -/
  | graphStart
  /-- GRAPH_ABORT (R362). A command that aborts a graph and optionally unloads it. -/
  | graphAbort
  /-- GRAPH_PARK (R219). A command that parks a graph's state into its park area. -/
  | graphPark
  /-- GRAPH_RESUME (R221). A command that restores a parked graph from its park area. -/
  | graphResume
  /-- ORPHAN_SWEEP (R177). A command that lists or deletes orphaned Matching Store entries. -/
  | orphanSweep
  /-- INJECT_TOKENS (R363). A command that queues host tokens for injection. -/
  | injectTokens (data : HostData)
  /-- BMV_START (R260). A command that starts a Block Mover channel on one descriptor. -/
  | bmvStart
  /-- BMV_STOP (R270). A command that stops or aborts a Block Mover channel. -/
  | bmvStop
  /-- BANK_POWER (R364). A command that requests a bank power state and replies when reached. -/
  | bankPower
  /-- REPAIR_ADD (R242). A command that records a field repair for the next start. -/
  | repairAdd
  /-- PORT_CONFIG (R295). A command that writes a port's register images all or none. -/
  | portConfig
  /-- POUR_ARM (R296). A command that arms, stops or aborts a port run. -/
  | pourArm
  /-- EPOCH_SCHEDULE (R364). A command that schedules or cancels one epoch boundary. -/
  | epochSchedule
  /-- KAO_MEASURE (R318). A command that requests a certified measurement from Kaolin. -/
  | kaoMeasure
  /-- KAO_READ_RECORDS (R326). A command that reads, releases or signs Kaolin records. -/
  | kaoReadRecords
  /-- KAO_CAL_WRITE (R332). A command that writes a signed calibration image to Kaolin. -/
  | kaoCalWrite (data : HostData)
  /-- BLEND_STAGE (R420). A command that writes a Blend image into the inactive slot. -/
  | blendStage (data : HostData)
  /-- BLEND_VERIFY (R418). A command that verifies a Blend slot. -/
  | blendVerify
  /-- BLEND_ACTIVATE_AT (R421). A command that schedules activation of the staged Blend at a boundary. -/
  | blendActivateAt
  /-- BLEND_CANCEL (R421). A command that removes a pending activation or revert. -/
  | blendCancel
  /-- LEDGER_READ (R402). A command that writes the valid ledger entries to a host buffer. -/
  | ledgerRead
  /-- LEDGER_CLEAR (R402). A command or START_CTRL.ledger_clear write that writes a ledger clear marker. -/
  | ledgerClear
  /-- LOG_READ (R410). A command that reads event log entries. -/
  | logRead
  /-- SNAPSHOT (R365). A command that reads or writes raw Instruction or Matching Store rows. -/
  | snapshot (data : HostData)
  /-- QP_SQ_TAIL (R346). A doorbell write of a submission tail makes commands pending. -/
  | qpSqTail (fn : Fin 17) (qp : Fin 64) (v : BitVec 32)
  /-- COMMAND_FETCH (R347). A command read from the submission ring completes and the command is checked and begun. -/
  | commandFetch (qp : Fin 64) (r : Fetch)
  /-- QP_CQ_HEAD (R348). A host write of the completion head frees reply slots. -/
  | qpCqHead (fn : Fin 17) (qp : Fin 64) (v : BitVec 32)
  /-- QUEUE_PAIR_ENABLE (R349). Setting QP_CTRL.enable starts the pair with empty rings. -/
  | queuePairEnable (fn : Fin 17) (qp : Fin 64) (v : BitVec 32)
  /-- QUEUE_PAIR_DISABLE (R349). Clearing QP_CTRL.enable flushes the pair's queues and discards deferred commands. -/
  | queuePairDisable (fn : Fin 17) (qp : Fin 64) (v : BitVec 32)
  /-- DEFERRED_COMMAND_BEGIN (R375). At I + 40 ns the Command Engine begins the commands held for the boundary. -/
  | deferredCommandBegin
  /-- BAR2_READ (R344). A host read through the BAR2 window of the global word space. -/
  | bar2Read (off : Nat) (len : Nat)
  /-- BAR2_WRITE (R344). A host write through the BAR2 window of the global word space. -/
  | bar2Write (off : Nat) (data : List (Option Byte)) (ep : Bool)
  /-- REGISTER_WRITE (R12). A BAR0 write of a register that has no row of its own, applied field by field under access codes and classes. -/
  | registerWrite (fn : Fin 17) (off : BitVec 26) (v : BitVec 32) (form : WriteForm)
  /-- ERQ_RD (R405). A write of ERQ_RD acknowledges error records. -/
  | erqRd (v : BitVec 32)
  /-- FLR (R343). A Function Level Reset disables the function's pairs, channels, graphs, latches and ports. -/
  | flr (fn : Fin 17)
  /-- HOT_RESET (R403). A Hot Reset or link down acts as FLR of the PF and clears configuration space. -/
  | hotReset
  /-- PERST_N (R433). Release of PERST_N begins a start; assertion holds the domains off. -/
  | perstN (level : Bool)
  /-- DOE_DISCOVERY (R342). A DOE Discovery request on the mailbox. -/
  | doeDiscovery (req : List Byte)
  /-- GET_VERSION (R342). An SPDM GET_VERSION request. -/
  | getVersion (req : List Byte)
  /-- GET_CAPABILITIES (R342). An SPDM GET_CAPABILITIES request. -/
  | getCapabilities (req : List Byte)
  /-- NEGOTIATE_ALGORITHMS (R342). An SPDM NEGOTIATE_ALGORITHMS request. -/
  | negotiateAlgorithms (req : List Byte)
  /-- GET_DIGESTS (R342). An SPDM GET_DIGESTS request. -/
  | getDigests (req : List Byte)
  /-- GET_CERTIFICATE (R342). An SPDM GET_CERTIFICATE request. -/
  | getCertificate (req : List Byte)
  /-- CHALLENGE (R342). An SPDM CHALLENGE request. -/
  | challenge (req : List Byte)
  /-- GET_MEASUREMENTS (R342). An SPDM GET_MEASUREMENTS request reporting the measurement indices. -/
  | getMeasurements (req : List Byte)
  /-- MEASURE (R321). A Seal Port MEASURE request is queued and started by Kaolin. -/
  | measure (frame : SealFrame)
  /-- READ (R326). A Seal Port READ request returns records, blocks, audit, identity or certificate. -/
  | read (good : Bool)
  /-- RELEASE (R325). A Seal Port RELEASE request frees records below a sequence. -/
  | release (frame : SealFrame)
  /-- SIGN (R324). A Seal Port SIGN request starts a signature block. -/
  | sign (good : Bool)
  /-- CAL_BEGIN (R332). A Seal Port CAL_BEGIN request opens a calibration write. -/
  | calBegin (good : Bool)
  /-- CAL_DATA (R330). A Seal Port CAL_DATA request carries calibration image data. -/
  | calData (good : Bool)
  /-- CAL_COMMIT (R333). A Seal Port CAL_COMMIT request checks and commits a calibration image. -/
  | calCommit (frame : CommitFrame)
  /-- STATUS (R313). The Command Engine's 1 us poll of Kaolin status over the Seal Port. -/
  | status (good : Bool)
  /-- QUALIFYING_EDGE (R319). A KSENSE edge is timestamped as a start or stop edge of a TDC sample. -/
  | qualifyingEdge (ch : Fin 32) (falling : Bool) (coarse : Nat) (code : Fin 2048)
  /-- START_TIMEOUT (R320). A TDC sample finds no start edge within its timeout and ends NO_START. -/
  | startTimeout (ch : Fin 32)
  /-- STOP_TIMEOUT (R320). No q-th stop edge arrives within 10 us and the request ends NO_STOP. -/
  | stopTimeout (ch : Fin 32)
  /-- DC_CONVERSION (R317). A DC conversion completes and its sample is taken. -/
  | dcConversion (ch : Fin 8) (conv : Conversion)
  /-- SIGNATURE_BLOCK_DONE (R324). Kaolin finishes signing and writes a signature block. -/
  | signatureBlockDone
  /-- KREF_LOST (R312). No KREF edge for 1 us makes Kaolin declare its reference lost. -/
  | krefLost
  /-- KREF_LOCKED (R312). 2 ms after KREF edges return Kaolin declares the reference locked. -/
  | krefLocked
  /-- SEAL_BROKEN (R328). KSEAL_N high for 10 ms breaks the seal and increments the MEC. -/
  | sealBroken
  /-- SEAL_CLOSED (R328). KSEAL_N low for 10 ms closes the seal. -/
  | sealClosed
  /-- KRST_N (R312). Kaolin reset or VKAO loss ends every measurement in progress. -/
  | krstN (level : Bool) (supply : KaoSupply)
  /-- KAOLIN_READY (R312). 5 ms after KRST_N release with VKAO good Kaolin becomes ready. -/
  | kaolinReady (sealHigh : Bool)
  /-- KAO_COMMAND_TIMEOUT (R314). A KAO_ command not answered within 1 ms returns TIMEOUT. -/
  | kaoCommandTimeout
  /-- EPOCH_IN (R373). A rising edge on EPOCH_IN creates a boundary or arms a timebase load. -/
  | epochIn (later : Bool)
  /-- SCHEDULED_BOUNDARY (R373). The timebase reaches a pending EPOCH_SCHEDULE value. -/
  | scheduledBoundary
  /-- DIE_BOUNDARY_CYCLE (R375). At the first cycle at or after I + 32 ns a Loam die applies its shadows. -/
  | dieBoundaryCycle (die : Fin 6)
  /-- EPOCH_OUT_FALL (R377). EPOCH_OUT falls 32 ns after the boundary instant. -/
  | epochOutFall
  /-- TB_ARM (R371). A write of 1 to EPOCH_CFG.tb_arm arms a timebase load on the next EPOCH_IN edge. -/
  | tbArm (v : BitVec 32)
  /-- TIMEBASE_LOAD (R371). At t_e + 64 the timebase and every copy are loaded with TB_LOAD. -/
  | timebaseLoad
  /-- SELECTOR_WRITE (R422). The Blend slot selector is written within 1 ms after activation or revert. -/
  | selectorWrite
  /-- PSS_READ_DONE (R428). The PSS read after activation ends and keeps, falls back or schedules a revert. -/
  | pssReadDone
  /-- RB_BURN (R419). A keyed write of MC_RB_BURN starts burning the rollback fuse counter. -/
  | rbBurn (v : BitVec 32)
  /-- BURN_STEP_DONE (R419). A 10 ms fuse burn step completes. -/
  | burnStepDone
  /-- PSS_COMMIT (R426). A write of MC_PSS_CTRL.commit writes a new PSS copy. -/
  | pssCommit (v : BitVec 32)
  /-- CURRENT_LOOP_EVALUATION (R384). Every 1 us the current loop adjusts limit C. -/
  | currentLoopEvaluation
  /-- THERMAL_LOOP_EVALUATION (R384). Every 100 us the thermal loop adjusts each die's limit. -/
  | thermalLoopEvaluation
  /-- CAP_LOOP_EVALUATION (R384). Every 10 us the cap loop adjusts the software package cap S. -/
  | capLoopEvaluation
  /-- CK_FAB_STOP (R381). At V a die's CK_FAB stops for a frequency change. -/
  | ckFabStop (die : Fin 6)
  /-- CK_FAB_RESTART (R381). At V + 20 ns CK_FAB restarts at the new frequency. -/
  | ckFabRestart (die : Fin 6)
  /-- CLAMP_EPISODE (R385). A governor clamp held for 1 ms sets PWR_CLAMP and queues POLICY_CONFLICT. -/
  | clampEpisode (die : Fin 6) (limit : ClampLimit)
  /-- DOMAIN_REQUEST (R383). A write of PWR_DOM_CTRL.req switches a domain or is refused. -/
  | domainRequest (dom : Fin 80) (v : BitVec 32)
  /-- DOMAIN_SWITCH_DONE (R382). A power domain completes its switch on or off. -/
  | domainSwitchDone (dom : Fin 80)
  /-- PORT_ENABLE (R278). Setting PFP_CFG.enable starts port training. -/
  | portEnable (port : Fin 16) (v : BitVec 32)
  /-- PORT_DISABLE (R301). Clearing PFP_CFG.enable ends the run, stops the link and flushes the fail queue. -/
  | portDisable (port : Fin 16) (v : BitVec 32)
  /-- VIN_GOOD (R433). VIN rises above its good threshold. -/
  | vinGood
  /-- VIN_LOST (R434). VIN or VIO loss or over-voltage raises Package-fatal and switches domains off. -/
  | vinLost (which : SupplyLoss)
  /-- VSTBY_LOST (R434). VSTBY loss stops every non-Kaolin domain. -/
  | vstbyLost
  /-- THERMAL_TRIP (R390). A diode at 115 C raises Package-fatal and switches domains off. -/
  | thermalTrip (diode : Fin 22)
  /-- REFCLK_LOST (R390). No REFCLK edge for 1 us raises Package-fatal. -/
  | refclkLost
  /-- SENSOR_SAMPLE (R408). A sensor is sampled, updating readings and threshold events. -/
  | sensorSample (id : Nat) (reading : Reading)
  /-- START_SEQUENCE (R396). A start runs the 24 start steps and records them in the ledger. -/
  | startSequence (env : StartEnv)
  /-- ESSENTIAL_RETRY (R399). 100 ms after an essential failure a new start begins. -/
  | essentialRetry
  /-- START_CTRL_RESTART (R406). A write of START_CTRL.restart begins a new start from Safe State or fatal hold. -/
  | startCtrlRestart (v : BitVec 32)
  /-- THERMAL_RECOVERY (R442). After a trip every diode below 100 C with PERST_N high begins a start. -/
  | thermalRecovery
  /-- SET_ENDPOINT_ID (R411). An MCTP Set Endpoint ID message. -/
  | setEndpointId (eid : BitVec 8) (req : List Byte)
  /-- GET_ENDPOINT_ID (R411). An MCTP Get Endpoint ID message. -/
  | getEndpointId (eid : BitVec 8) (req : List Byte)
  /-- GET_MCTP_VERSION_SUPPORT (R411). An MCTP Get MCTP Version Support message. -/
  | getMctpVersionSupport (eid : BitVec 8) (req : List Byte)
  /-- GET_MESSAGE_TYPE_SUPPORT (R411). An MCTP Get Message Type Support message. -/
  | getMessageTypeSupport (eid : BitVec 8) (req : List Byte)
  /-- GET_TID (R412). A PLDM GetTID command. -/
  | getTid (eid : BitVec 8) (req : List Byte)
  /-- GET_PLDM_VERSION (R412). A PLDM GetPLDMVersion command. -/
  | getPldmVersion (eid : BitVec 8) (req : List Byte)
  /-- GET_PLDM_TYPES (R412). A PLDM GetPLDMTypes command. -/
  | getPldmTypes (eid : BitVec 8) (req : List Byte)
  /-- GET_PLDM_COMMANDS (R412). A PLDM GetPLDMCommands command. -/
  | getPldmCommands (eid : BitVec 8) (req : List Byte)
  /-- SET_EVENT_RECEIVER (R412). A PLDM SetEventReceiver command naming the event receiver. -/
  | setEventReceiver (eid : BitVec 8) (req : List Byte)
  /-- GET_PDR_REPOSITORY_INFO (R412). A PLDM GetPDRRepositoryInfo command. -/
  | getPdrRepositoryInfo (eid : BitVec 8) (req : List Byte)
  /-- GET_PDR (R412). A PLDM GetPDR command. -/
  | getPdr (eid : BitVec 8) (req : List Byte)
  /-- GET_SENSOR_READING (R412). A PLDM GetSensorReading command. -/
  | getSensorReading (eid : BitVec 8) (req : List Byte)
  /-- GET_SENSOR_THRESHOLDS (R412). A PLDM GetSensorThresholds command. -/
  | getSensorThresholds (eid : BitVec 8) (req : List Byte)
  /-- GET_IDENTITY (R413). A vendor message that returns identity and start status. -/
  | getIdentity (eid : BitVec 8) (req : List Byte)
  /-- READ_LEDGER (R413). A vendor message that returns one ledger entry. -/
  | readLedger (eid : BitVec 8) (req : List Byte)
  /-- READ_LOG (R413). A vendor message that returns one event log entry. -/
  | readLog (eid : BitVec 8) (req : List Byte)
  /-- RESTART (R413). A vendor message that begins a start with cause 8. -/
  | restart (eid : BitVec 8) (req : List Byte)
  /-- UNDEFINED_OPCODE (R107). A firing at a slot whose opcode the map marks undefined raises ILLEGAL cause 1. -/
  | undefinedOpcode (die : Fin 6) (pe : Fin 64)
  /-- COMPLETION_TIMEOUT (R339). A device read of host memory gets no completion within the completion timeout and ends in error. -/
  | completionTimeout (rd : HostReadId)
  /-- TWIKEL_TRAINING_TIMEOUT (R26). Twikel training that has not completed within 10 ms fails and counts bad_frame. -/
  | twikelTrainingTimeout (tw : Fin 2)
  /-- ARMED_RUN_END (R296). A POUR_ARM stop or abort of an ARMED port ends the run in the first slot at least 16 ns after the command, sending END or ABORT without START. -/
  | armedRunEnd (port : Fin 16)
  /-- VSTBY_GOOD (R433). VSTBY rises above 3.0 V and may complete the conditions for a power-on start. -/
  | vstbyGood (oobSel : Bool) (oobAddr : Fin 4)
  /-- VIO_GOOD (R433). VIO rises above 1.62 V and may complete the conditions for a power-on start. -/
  | vioGood
  /-- REGISTER_READ (R9). A BAR0 read with side effects: an RC field clears, or a low half captures its upper part. -/
  | registerRead (fn : Fin 17) (off : BitVec 26) (form : ReadForm)
  /-- MSI_X_UNMASK (R340). The host unmasks an MSI-X vector whose PBA bit is set, and the pending message is sent. -/
  | msiXUnmask (fn : Fin 17) (vec : Nat)
  /-- PCIE_POWER_STATE (R337). The host moves the function between D0 and D3hot, stopping or resuming the beginning of commands. -/
  | pciePowerState (d3hot : Bool)
deriving DecidableEq, Repr

end Sys2Proof
end

