-- ==== Sys2Proof/Machine/Bits.lean ====
section
/-! DEFINITION. Bit fields, byte order (R5, R6), sign extension, and the CRCs of R19 and R72. -/

namespace Sys2Proof.Machine

/-- Bits [lo + w - 1 : lo] of a number. -/
def bitsOf (x lo w : Nat) : Nat := (x >>> lo) % 2 ^ w

/-- One bit of a number. -/
def bitOf (x i : Nat) : Bool := x.testBit i

/-- Bits [lo + w - 1 : lo] of a word, as a number. -/
def fieldOf {n : Nat} (x : BitVec n) (lo w : Nat) : Nat := bitsOf x.toNat lo w

/-- `x` with bits [lo + w - 1 : lo] replaced by `v` (mod 2^w). -/
def setField (x lo w v : Nat) : Nat :=
  x - (bitsOf x lo w) * 2 ^ lo + (v % 2 ^ w) * 2 ^ lo

/-- A Boolean as the number 0 or 1. -/
def b2n (b : Bool) : Nat := if b then 1 else 0

/-- The low `w` bits of `x`, read as two's complement. -/
def sextNat (w x : Nat) : Int :=
  if x % 2 ^ w < 2 ^ (w - 1) then (x % 2 ^ w : Nat) else (x % 2 ^ w : Nat) - (2 ^ w : Nat)

/-- Sign extension of a `w`-bit number to a 36-bit word (R78, R81). -/
def sextWord (w x : Nat) : Word := BitVec.ofInt 36 (sextNat w x)

/-- `n` bytes of `x`, least significant first (R5). -/
def leBytes : Nat → Nat → List Byte
  | 0, _ => []
  | n + 1, x => BitVec.ofNat 8 x :: leBytes n (x / 256)

/-- The number that a little-endian byte string spells (R5). -/
def leNat : List Byte → Nat
  | [] => 0
  | b :: bs => b.toNat + 256 * leNat bs

/-- The number that a big-endian byte string spells (digests and keys, R5). -/
def beNat (bs : List Byte) : Nat := bs.foldl (fun a b => a * 256 + b.toNat) 0

/-- `n` bytes of `x`, most significant first. -/
def beBytes (n x : Nat) : List Byte := (leBytes n x).reverse

/-- `n` bytes of a byte string from `off`, zero past its end. -/
def slice (bs : List Byte) (off n : Nat) : List Byte :=
  let t := (bs.drop off).take n
  t ++ List.replicate (n - t.length) 0

/-- The little-endian number in `n` bytes at `off`. -/
def leAt (bs : List Byte) (off n : Nat) : Nat := leNat (slice bs off n)

/-- All bytes are zero. -/
def allZero (bs : List Byte) : Bool := bs.all (fun b => b == 0)

/-- The 36-bit word in the 8-byte container at byte offset `off` (R6: bits [63:36] are ignored). -/
def containerWord (bs : List Byte) (off : Nat) : Word := BitVec.ofNat 36 (leAt bs off 8)

/-- One bit of the CRC-16 of R19 (polynomial 0x1021, most significant bit first). -/
def crc16Bit (c : Nat) (b : Bool) : Nat :=
  let top := bitOf c 15
  let s := (c * 2) % 65536
  if top != b then Nat.xor s 0x1021 else s

/-- One byte of the CRC-16, most significant bit first (R19). -/
def crc16Byte (c : Nat) (b : Byte) : Nat :=
  [7, 6, 5, 4, 3, 2, 1, 0].foldl (fun a i => crc16Bit a (bitOf b.toNat i)) c

/-- The CRC-16 of R19 over a byte string in offset order. -/
def crc16 (bs : List Byte) : Nat := bs.foldl crc16Byte 0xFFFF

/-- One bit step of the reflected CRC-32 (R72). -/
def crc32Step (c : Nat) : Nat :=
  if c % 2 = 1 then Nat.xor (c / 2) 0xEDB88320 else c / 2

/-- One byte of the reflected CRC-32 (R72). -/
def crc32Byte (c : Nat) (b : Byte) : Nat :=
  let x := Nat.xor c b.toNat
  crc32Step (crc32Step (crc32Step (crc32Step (crc32Step (crc32Step (crc32Step (crc32Step x)))))))

/-- The CRC-32 of IEEE 802.3 over a byte string (R72). -/
def crc32 (bs : List Byte) : Nat := Nat.xor (bs.foldl crc32Byte 0xFFFFFFFF) 0xFFFFFFFF

/-- The number of significant bits of a number, up to `fuel`. -/
def bitLenAux : Nat → Nat → Nat
  | 0, _ => 0
  | f + 1, x => if x = 0 then 0 else 1 + bitLenAux f (x / 2)

/-- The number of significant bits of a number below 2^400. -/
def bitLen (x : Nat) : Nat := bitLenAux 400 x

/-- Even parity of the low `w` bits. -/
def parityOf (w x : Nat) : Bool :=
  (List.range w).foldl (fun a i => a != bitOf x i) false

/-- `x` saturated at `cap` after adding `n` (the saturating counters of the register tables). -/
def satAdd (cap x n : Nat) : Nat := if x + n > cap then cap else x + n

/-- A word from its fields: value and lsb. -/
def pack (xs : List (Nat × Nat)) : Nat := xs.foldl (fun a p => a + p.1 * 2 ^ p.2) 0

end Sys2Proof.Machine
end

