-- ==== Sys2Proof/Machine/Digest.lean ====
section
/-! DEFINITION. The digests SHA-256 and SHA-384 over byte strings (R5, R322, R342, R417), by their standard. -/

namespace Sys2Proof.Machine

/-- The greatest r below 2 ^ bits + acc, found from the highest bit down, whose d-th power is at most n. -/
def rootFloor (d n : Nat) : Nat → Nat → Nat
  | 0, acc => acc
  | bits + 1, acc => rootFloor d n bits (if (acc + 2 ^ bits) ^ d ≤ n then acc + 2 ^ bits else acc)

/-- The first 80 primes: the numbers below 410 that no smaller number from 2 on divides. -/
def shaPrimes : List Nat :=
  (List.range 410).filter (fun p => decide (2 ≤ p) && (List.range p).all (fun q => decide (q < 2) || p % q != 0))

/-- The first w bits of the fractional part of the d-th root of p: how the standard names each of its constants. -/
def rootBits (d w p : Nat) : Nat := rootFloor d (p * 2 ^ (d * w)) (w + 5) 0 % 2 ^ w

/-- The round constants of SHA-256: 32 bits of the cube roots of the first 64 primes. -/
def sha256K : List Nat := (shaPrimes.take 64).map (rootBits 3 32)

/-- The initial hash value of SHA-256: 32 bits of the square roots of the first 8 primes. -/
def sha256H : List Nat := (shaPrimes.take 8).map (rootBits 2 32)

/-- The round constants of SHA-384: 64 bits of the cube roots of the first 80 primes. -/
def sha512K : List Nat := shaPrimes.map (rootBits 3 64)

/-- The initial hash value of SHA-384: 64 bits of the square roots of the 9th to the 16th prime. -/
def sha384H : List Nat := ((shaPrimes.drop 8).take 8).map (rootBits 2 64)

/-- A rotation to the right of a w-bit number. -/
def rotr (w x n : Nat) : Nat := (x >>> n) + (x % 2 ^ n) * 2 ^ (w - n)

/-- The parameters of one member of the family: word width, rotations of the four functions, constants. -/
structure ShaKind where
  w : Nat
  s0 : Nat × Nat × Nat
  s1 : Nat × Nat × Nat
  e0 : Nat × Nat × Nat
  e1 : Nat × Nat × Nat
  k : List Nat
deriving DecidableEq, Repr

def sha256Kind : ShaKind :=
  { w := 32, s0 := (7, 18, 3), s1 := (17, 19, 10), e0 := (2, 13, 22), e1 := (6, 11, 25), k := sha256K }
def sha512Kind : ShaKind :=
  { w := 64, s0 := (1, 8, 7), s1 := (19, 61, 6), e0 := (28, 34, 39), e1 := (14, 18, 41), k := sha512K }

def shaSmall (w x : Nat) (r : Nat × Nat × Nat) : Nat := Nat.xor (Nat.xor (rotr w x r.1) (rotr w x r.2.1)) (x >>> r.2.2)
def shaBig (w x : Nat) (r : Nat × Nat × Nat) : Nat := Nat.xor (Nat.xor (rotr w x r.1) (rotr w x r.2.1)) (rotr w x r.2.2)

/-- The message schedule, newest word first, from the block's words (newest first). -/
def shaSchedule (t : ShaKind) : Nat → List Nat → List Nat
  | 0, ws => ws
  | n + 1, ws =>
    shaSchedule t n
      (((shaSmall t.w (ws.getD 1 0) t.s1 + ws.getD 6 0 + shaSmall t.w (ws.getD 14 0) t.s0 + ws.getD 15 0) % 2 ^ t.w) :: ws)

/-- One round on the eight working variables. -/
def shaRound (t : ShaKind) (v : List Nat) (kw : Nat) : List Nat :=
  match v with
  | [a, b, c, d, e, f, g, h] =>
    let ch := Nat.xor (Nat.land e f) (Nat.land (2 ^ t.w - 1 - e) g)
    let maj := Nat.xor (Nat.xor (Nat.land a b) (Nat.land a c)) (Nat.land b c)
    let t1 := h + shaBig t.w e t.e1 + ch + kw
    let t2 := shaBig t.w a t.e0 + maj
    [(t1 + t2) % 2 ^ t.w, a, b, c, (d + t1) % 2 ^ t.w, e, f, g]
  | v => v

/-- One block. -/
def shaBlock (t : ShaKind) (h : List Nat) (block : List Byte) : List Nat :=
  let n := t.w / 8
  let ws := (List.range 16).map (fun i => beNat ((block.drop (n * i)).take n))
  let sched := (shaSchedule t (t.k.length - 16) ws.reverse).reverse
  let v := (t.k.zip sched).foldl (fun v p => shaRound t v (p.1 + p.2)) h
  (h.zip v).map (fun p => (p.1 + p.2) % 2 ^ t.w)

/-- The padded message (R5: lengths are big-endian). -/
def shaPad (t : ShaKind) (m : List Byte) : List Byte :=
  let b := 2 * t.w
  let z := (b - (m.length + 1 + b / 8) % b) % b
  m ++ [0x80] ++ List.replicate z 0 ++ beBytes (b / 8) (8 * m.length)

def shaBlocks (t : ShaKind) : Nat → List Nat → List Byte → List Nat
  | 0, h, _ => h
  | n + 1, h, m => shaBlocks t n (shaBlock t h (m.take (2 * t.w))) (m.drop (2 * t.w))

def shaDigest (t : ShaKind) (h0 : List Nat) (m : List Byte) : List Byte :=
  let p := shaPad t m
  ((shaBlocks t (p.length / (2 * t.w)) h0 p).map (beBytes (t.w / 8))).flatten

/-- SHA-256. -/
def sha256 (m : List Byte) : List Byte := shaDigest sha256Kind sha256H m
/-- SHA-384. -/
def sha384 (m : List Byte) : List Byte := (shaDigest sha512Kind sha384H m).take 48

end Sys2Proof.Machine
end

