-- ==== Sys2Proof/Machine/Ecdsa.lean ====
section
/-! DEFINITION. ECDSA over the curves P-384 and P-256 (R322, R324, R330, R417): verification of a signature r ‖ s over a
digest by a public key X ‖ Y, and signing, by its standard (log entry 20). -/

namespace Sys2Proof.Machine

/-- A curve y² = x³ − 3x + b over the integers modulo p, its base point g of order n, and its size in bits. -/
structure Curve where
  bits : Nat
  p : Nat
  n : Nat
  b : Nat
  g : Nat × Nat
deriving DecidableEq, Repr

def p384 : Curve :=
  { bits := 384, p := 2 ^ 384 - 2 ^ 128 - 2 ^ 96 + 2 ^ 32 - 1,
    n := 0xffffffffffffffffffffffffffffffffffffffffffffffffc7634d81f4372ddf581a0db248b0a77aecec196accc52973,
    b := 0xb3312fa7e23ee7e4988e056be3f82d19181d9c6efe8141120314088f5013875ac656398d8a2ed19d2a85c8edd3ec2aef,
    g := (0xaa87ca22be8b05378eb1c71ef320ad746e1d3b628ba79b9859f741e082542a385502f25dbf55296c3a545e3872760ab7,
          0x3617de4a96262c6f5d9e98bf9292dc29f8f41dbd289a147ce9da3113b5f0b8c00a60b1ce1d7e819d7a431d7c90ea0e5f) }

def p256 : Curve :=
  { bits := 256, p := 2 ^ 256 - 2 ^ 224 + 2 ^ 192 + 2 ^ 96 - 1,
    n := 0xffffffff00000000ffffffffffffffffbce6faada7179e84f3b9cac2fc632551,
    b := 0x5ac635d8aa3a93e7b3ebbd55769886bc651d06b0cc53b0f63bce3c3e27d2604b,
    g := (0x6b17d1f2e12c4247f8bce6e563a440f277037d812deb33a0f4a13945d898c296,
          0x4fe342e2fe1a7f9b8ee7eb4a7c0f9e162bce33576b315ececbb6406837bf51f5) }

/-- x to the power e modulo m, over the low `fuel` bits of e. -/
def powMod (m : Nat) : Nat → Nat → Nat → Nat
  | 0, _, _ => 1 % m
  | f + 1, x, e =>
    let r := powMod m f (x * x % m) (e / 2)
    if e % 2 = 1 then r * x % m else r

/-- The inverse modulo a prime. -/
def invMod (m x : Nat) : Nat := powMod m 384 (x % m) (m - 2)

/-- A point of the curve; none is the point at infinity. -/
abbrev Pt := Option (Nat × Nat)

/-- The sum of two points. -/
def Curve.add (c : Curve) : Pt → Pt → Pt
  | none, q => q
  | p, none => p
  | some (x1, y1), some (x2, y2) =>
    let m := c.p
    if x1 = x2 ∧ (y1 + y2) % m = 0 then none
    else
      let l := if x1 = x2 then (3 * x1 * x1 + m - 3) * invMod m (2 * y1) % m
        else (y2 + m - y1) * invMod m (x2 + m - x1) % m
      let x3 := (l * l + 2 * m - x1 - x2) % m
      some (x3, (l * (x1 + m - x3) + m - y1) % m)

/-- k times a point, over the low `fuel` bits of k. -/
def Curve.mul (c : Curve) : Nat → Nat → Pt → Pt
  | 0, _, _ => none
  | f + 1, k, p =>
    let r := c.mul f (k / 2) (c.add p p)
    if k % 2 = 1 then c.add r p else r

/-- The point lies on the curve. -/
def Curve.on (c : Curve) (q : Nat × Nat) : Bool :=
  decide (q.1 < c.p) && decide (q.2 < c.p) &&
    (q.2 * q.2) % c.p == (q.1 * q.1 * q.1 + (c.p - 3) * q.1 + c.b) % c.p

/-- The signature r ‖ s over a digest verifies under the key X ‖ Y (byte strings under R5). (PRESUMED, log entry
20) -/
def Curve.verify (c : Curve) (key digest sig : List Byte) : Bool :=
  let z := c.bits / 8
  let q := (beNat (slice key 0 z), beNat (slice key z z))
  let r := beNat (slice sig 0 z)
  let t := beNat (slice sig z z)
  let n := c.n
  if c.on q && decide (0 < r) && decide (r < n) && decide (0 < t) && decide (t < n) then
    let w := invMod n t
    let e := beNat (digest.take z)
    match c.add (c.mul c.bits (e * w % n) (some c.g)) (c.mul c.bits (r * w % n) (some q)) with
    | none => false
    | some (x, _) => x % n == r
  else false

/-- The public key X ‖ Y of a private key d. (PRESUMED, log entry 20) -/
def Curve.public (c : Curve) (d : Nat) : List Byte :=
  match c.mul c.bits d (some c.g) with
  | none => []
  | some q => beBytes (c.bits / 8) q.1 ++ beBytes (c.bits / 8) q.2

/-- The signature r ‖ s over a digest with a private key d and an ephemeral number k. (PRESUMED, log entry 20) -/
def Curve.sign (c : Curve) (d k : Nat) (digest : List Byte) : List Byte :=
  let z := c.bits / 8
  match c.mul c.bits k (some c.g) with
  | none => []
  | some q =>
    let r := q.1 % c.n
    beBytes z r ++ beBytes z (invMod c.n k * ((beNat (digest.take z) + r * d) % c.n) % c.n)

end Sys2Proof.Machine
end

