-- ==== Sys2Proof/Config.lean ====
section
/-! DEFINITION. What one implementation fixes and the values the spec leaves open: constants without a body, so no
proof can see what they are. -/

namespace Sys2Proof.Config

/-- The device-unique ID (R2, R456), fused; R2 says that it is not zero (see duid). (UNVERIFIED, log entry 7) -/
opaque deviceId : BitVec 64

/-- The offsets of the PCI Express and SR-IOV capabilities in configuration space (R338, R339 give none): the first lies
after the header, the second in the extended space. (PRESUMED, log entry 64) -/
opaque pcieCapAt : Fin 32
opaque sriovCapAt : Fin 512
def pcieCap : Nat := 0x40 + 4 * pcieCapAt.val
def sriovCap : Nat := 0x100 + 4 * sriovCapAt.val

/-- What the doublewords of configuration space whose values R338 does not give read as, by function x 4,096 + offset.
(PRESUMED, log entry 64) -/
opaque cfgSpace : Nat → BitVec 32

/-- The offset of the AER capability in configuration space, which R391's kind 5 records name. (UNVERIFIED, log
entry 7) -/
opaque aerCap : Nat

/-- The bytes of the Blend image that was written at manufacture (R414, R415). (DESIGN CHOICE, log entry 21) -/
opaque factoryImage : List Byte

/-- The fused SHA-384 of the vendor key (R417). (UNVERIFIED, log entry 7) -/
opaque keyHash : List Byte

/-- Kaolin's private key, drawn at manufacture (R335): the value modulo n - 1, plus 1. (UNVERIFIED, log entry 7) -/
opaque kaoKey : Nat

/-- The certificate that mode 4 returns (R335): at most its first 2,048 bytes. (UNVERIFIED, log entry 7) -/
opaque kaoCert : List Byte

/-- The calibration authority key X ‖ Y stored at manufacture (R330). (UNVERIFIED, log entry 7) -/
opaque kaoAuthority : List Byte

/-- The coefficient body that was written at manufacture (R331, R333). (UNVERIFIED, log entry 7) -/
opaque kaoBank : List Byte

/-- The audit entries of manufacture after entry 0 (R333-R335). (UNVERIFIED, log entry 7) -/
opaque kaoAudit : List (List Byte)

/-- The Kaolin time and start count that audit entry 0 carries (R334, R335). (UNVERIFIED, log entry 7) -/
opaque kaoMadeAt : BitVec 64

/-- The ephemeral number of an ECDSA signature (R324): a free value for each signing. (UNVERIFIED, log entry 8) -/
opaque kaoNonce : Nat → Nat

/-- The logic identity of the hardwired Bedrock and Loam blocks (R342). (UNVERIFIED, log entry 7) -/
opaque logicIdentity : List Byte

/-- The certificate chain of the SPDM responder (R342): at most its first 65,535 bytes. (UNVERIFIED, log entry 7) -/
opaque spdmChain : List Byte

/-- The limits that CAPABILITIES carries: CTExponent, DataTransferSize, MaxSPDMmsgSize (R342 gives none): 9 bytes.
(PRESUMED, log entry 22) -/
opaque spdmLimits : List Byte

/-- The value type that each SPDM measurement block carries, 7 bits (R342 gives none). (PRESUMED, log entry 22) -/
opaque spdmValueType : Nat → BitVec 7

/-- The measurement indices that the summary hash of the trusted computing base covers (R342 gives none).
(PRESUMED, log entry 22) -/
opaque spdmTcb : Nat → Bool

/-- The responder's nonces, 32 bytes (R342): a free value for each. (PRESUMED, log entry 22) -/
opaque spdmNonce : Nat → List Byte

/-- The responder's ECDSA P-384 signatures r ‖ s (R342): a free value for each. (PRESUMED, log entry 22) -/
opaque spdmSign : Nat → List Byte

/-- The event code of the Advisory records of R195 (R459 gives none). (UNVERIFIED, log entry 9) -/
opaque lostWordCode : BitVec 8

/-- The number format of a sensor's reading in its unit, for a sensor ID and a sample (R409, R412 give none).
(PRESUMED, log entry 23) -/
opaque sensorCode : Nat → Int → BitVec 64

/-- The numeric sensor PDR of a sensor (R412): at most its first 65,535 bytes. (PRESUMED, log entry 23) -/
opaque sensorPdr : Nat → List Byte

/-- The update times and the transfer time-out of the PDR repository (R412 gives none): 27 bytes. (PRESUMED, log
entry 23) -/
opaque pdrTimes : List Byte

/-- The terminus ID that GetTID returns (R412 gives none). (PRESUMED, log entry 23) -/
opaque pldmTid : BitVec 8

/-- The version that GetPLDMVersion returns for a PLDM type (R412 gives none). (PRESUMED, log entry 23) -/
opaque pldmVersion : Nat → BitVec 32

/-- The instance IDs of the messages that the endpoint sends on its own (R412): a free value for each. (PRESUMED,
log entry 23) -/
opaque pldmInstance : Nat → BitVec 5

end Sys2Proof.Config
end

