-- ==== Sys2Proof/Machine/Flags.lean ====
section
/-! DEFINITION. Results and flag computations of the integer opcodes (R108-R112, R136-R138) and the G13
flag word (R54, R102, R147). -/

namespace Sys2Proof.Machine

/-- The seven flags a firing can raise (R54). -/
structure Flags where
  nv : Bool := false
  dz : Bool := false
  ovf : Bool := false
  uf : Bool := false
  nx : Bool := false
  v : Bool := false
  c : Bool := false
deriving DecidableEq, Repr

/-- No flag raised. -/
def Flags.none : Flags := {}

/-- The G13 bits of the raised flags (R54). -/
def Flags.toNat (f : Flags) : Nat :=
  b2n f.nv + 2 * b2n f.dz + 4 * b2n f.ovf + 8 * b2n f.uf + 16 * b2n f.nx + 4096 * b2n f.v + 8192 * b2n f.c

/-- Two sets of raised flags together. -/
def Flags.or (f g : Flags) : Flags :=
  { nv := f.nv || g.nv, dz := f.dz || g.dz, ovf := f.ovf || g.ovf, uf := f.uf || g.uf, nx := f.nx || g.nx,
    v := f.v || g.v, c := f.c || g.c }

/-- Step 4 of R58: the raised flags ORed into G13 (R55). -/
def orFlags (g13 : Word) (f : Flags) : Word := g13 ||| BitVec.ofNat 36 f.toNat

/-- The ARITH cause of R147: the lowest-numbered raised flag whose trap enable is set in the step 1 G13. -/
def trapCause (g13 : Word) (f : Flags) : Option Nat :=
  (List.range 5).find? (fun i => bitOf f.toNat i && bitOf g13.toNat (5 + i))

/-- The results of step 2: two words and the raised flags. -/
structure ArithRes where
  w0 : Word
  w1 : Word := 0
  fl : Flags := {}
deriving DecidableEq, Repr

/-- A one-word result without flags. -/
def res1 (w : Word) : ArithRes := { w0 := w }

/-- A compare result (R112). -/
def boolWord (b : Bool) : Word := if b then 1 else 0

/-- The value fits in 36 bits two's complement. -/
def fitsSigned (x : Int) : Bool := decide (-(2 ^ 35 : Int) ≤ x) && decide (x < (2 ^ 35 : Int))

/-- ADD and ADC: sum, carry word, V and C (R109). -/
def intAdd (a b : Word) (cin : Bool) : ArithRes :=
  let n := a.toNat + b.toNat + b2n cin
  let carry := decide (n ≥ 2 ^ 36)
  { w0 := BitVec.ofNat 36 n, w1 := boolWord carry,
    fl := { v := !fitsSigned (a.toInt + b.toInt + (b2n cin : Nat)), c := carry } }

/-- SUB and SBC: difference, borrow word, V and C (R109). -/
def intSub (a b : Word) (bin : Bool) : ArithRes :=
  let borrow := decide (b.toNat + b2n bin > a.toNat)
  { w0 := BitVec.ofNat 36 (a.toNat + 2 ^ 37 - b.toNat - b2n bin), w1 := boolWord borrow,
    fl := { v := !fitsSigned (a.toInt - b.toInt - (b2n bin : Nat)), c := borrow } }

/-- NEG (R110). -/
def intNeg (a : Word) : ArithRes := { w0 := -a, fl := { v := decide (a = BitVec.ofNat 36 (2 ^ 35)) } }

/-- MUL: the low 36 bits, V when the signed product does not fit (R110). -/
def intMul (a b : Word) : ArithRes :=
  { w0 := a * b, fl := { v := !fitsSigned (a.toInt * b.toInt) } }

/-- MULW: the signed 72-bit product (R110). -/
def intMulW (a b : Word) : ArithRes :=
  let p := BitVec.ofInt 72 (a.toInt * b.toInt)
  { w0 := BitVec.ofNat 36 p.toNat, w1 := BitVec.ofNat 36 (p.toNat / 2 ^ 36) }

/-- MULWU: the unsigned 72-bit product (R110). -/
def intMulWU (a b : Word) : ArithRes :=
  let p := a.toNat * b.toNat
  { w0 := BitVec.ofNat 36 p, w1 := BitVec.ofNat 36 (p / 2 ^ 36) }

/-- The divider (R138): partial remainder, quotient register, divisor magnitude, operand signs, zero-divisor mark. -/
structure Divider where
  p : BitVec 38
  q : Word
  dv : Word
  negA : Bool
  negB : Bool
  zero : Bool
deriving DecidableEq, Repr

def Divider.reset : Divider := { p := 0, q := 0, dv := 0, negA := false, negB := false, zero := false }

/-- The magnitude of a word as two's complement. -/
def magnitude (w : Word) : Word := if w.msb then 0 - w else w

/-- Cycle 0: setup (R138). -/
def Divider.setup (signed : Bool) (a b : Word) : Divider :=
  { p := 0, q := if signed then magnitude a else a, dv := if signed then magnitude b else b,
    negA := signed && a.msb, negB := signed && b.msb, zero := b == 0 }

/-- Cycles 1 to 36: one iteration (R138). -/
def Divider.iter (d : Divider) : Divider :=
  let twice := d.p * 2 + (if d.q.msb then 1 else 0)
  let p := if d.p.msb then twice + d.dv.setWidth 38 else twice - d.dv.setWidth 38
  { d with p := p, q := d.q * 2 + (if p.msb then 0 else 1) }

/-- A number of iterations. -/
def Divider.iters : Nat → Divider → Divider
  | 0, d => d
  | k + 1, d => Divider.iters k d.iter

/-- Cycle 37: remainder correction (R138). -/
def Divider.correct (d : Divider) : Divider := if d.p.msb then { d with p := d.p + d.dv.setWidth 38 } else d

/-- The divider after cycle 37 of a division (R138). -/
def Divider.run (signed : Bool) (a b : Word) : Divider := ((Divider.setup signed a b).iters 36).correct

/-- Cycle 38: sign and edge fix (R138). -/
def Divider.result (d : Divider) (signed : Bool) (a : Word) : ArithRes :=
  let r := d.p.setWidth 36
  if d.zero then { w0 := BitVec.allOnes 36, w1 := a, fl := { dz := true } }
  else
    { w0 := if d.negA != d.negB then 0 - d.q else d.q, w1 := if d.negA then 0 - r else r,
      fl := { v := signed && d.negA == d.negB && d.q.msb } }

/-- DIVU: quotient, remainder, DZ (R110, R138). -/
def intDivU (a b : Word) : ArithRes := (Divider.run false a b).result false a

/-- DIV: quotient rounded toward zero, remainder with the dividend's sign, V and DZ (R110, R138). -/
def intDiv (a b : Word) : ArithRes := (Divider.run true a b).result true a

/-- MIN and MAX, signed. -/
def intMin (a b : Word) : ArithRes := res1 (if a.toInt ≤ b.toInt then a else b)
def intMax (a b : Word) : ArithRes := res1 (if b.toInt ≤ a.toInt then a else b)
/-- MINU and MAXU. -/
def intMinU (a b : Word) : ArithRes := res1 (if a.toNat ≤ b.toNat then a else b)
def intMaxU (a b : Word) : ArithRes := res1 (if b.toNat ≤ a.toNat then a else b)

/-- The shift count of R111: the low 8 bits of B. -/
def shiftCount (b : Word) : Nat := bitsOf b.toNat 0 8

/-- SHL, SHR and SAR (R111). -/
def intShl (a b : Word) : ArithRes := res1 (a <<< shiftCount b)
def intShr (a b : Word) : ArithRes := res1 (a >>> shiftCount b)
def intSar (a b : Word) : ArithRes := res1 (a.sshiftRight (shiftCount b))
/-- ROL and ROR: the count mod 36 (R111). -/
def intRol (a b : Word) : ArithRes := res1 (a.rotateLeft (shiftCount b % 36))
def intRor (a b : Word) : ArithRes := res1 (a.rotateRight (shiftCount b % 36))
/-- POPC (R111). -/
def intPopc (a : Word) : ArithRes :=
  res1 (BitVec.ofNat 36 ((List.range 36).foldl (fun n i => n + b2n (bitOf a.toNat i)) 0))
/-- CLZ: 36 for zero (R111). -/
def intClz (a : Word) : ArithRes := res1 (BitVec.ofNat 36 (36 - bitLen a.toNat))

end Sys2Proof.Machine
end

