-- ==== Sys2Proof/Machine/Float.lean ====
section
/-! DEFINITION. Floating point: binary32 and Stenas F36 (R115, R116, R139-R158). Every finite operand is
an exact integer multiple of a power of two; each operation computes its exact value, with a sticky mark for
a quotient or root, and rounds once. -/

namespace Sys2Proof.Machine

/-- A format: the number of fraction bits (R141, R142). The sign stands above the 8 exponent bits. -/
structure FFmt where
  fb : Nat
deriving DecidableEq, Repr

/-- binary32 (R141). -/
def fmtS : FFmt := { fb := 23 }
/-- Stenas F36 (R142). -/
def fmtX : FFmt := { fb := 27 }

/-- The exponent of the smallest subnormal: -149 or -153 (R142, R143). -/
def FFmt.qmin (f : FFmt) : Int := -126 - (f.fb : Int)

/-- The rounding modes of G13[11:10] (R54). -/
inductive RMode where
  | near | zero | up | down
deriving DecidableEq, Repr

/-- The rounding mode in a G13 value (R54). -/
def rmodeOf (g13 : Word) : RMode :=
  match bitsOf g13.toNat 10 2 with
  | 0 => .near
  | 1 => .zero
  | 2 => .up
  | _ => .down

/-- A classified operand. A finite value is m x 2^e with its sign. -/
inductive FVal where
  | nan (sig : Bool)
  | inf (s : Bool)
  | fin (s : Bool) (m : Nat) (e : Int)
deriving DecidableEq, Repr

/-- The sign, exponent and fraction fields of a word. -/
def FFmt.sign (f : FFmt) (w : Word) : Bool := bitOf w.toNat (f.fb + 8)
def FFmt.exp (f : FFmt) (w : Word) : Nat := bitsOf w.toNat f.fb 8
def FFmt.frac (f : FFmt) (w : Word) : Nat := bitsOf w.toNat 0 f.fb

/-- The value of a word (R142). -/
def FFmt.read (f : FFmt) (w : Word) : FVal :=
  let e := f.exp w
  let m := f.frac w
  if e = 255 then (if m = 0 then .inf (f.sign w) else .nan (!bitOf m (f.fb - 1)))
  else if e = 0 then .fin (f.sign w) m f.qmin
  else .fin (f.sign w) (m + 2 ^ f.fb) (f.qmin + (e : Int) - 1)

/-- A word from its sign and its bits below the sign. -/
def FFmt.pack (f : FFmt) (s : Bool) (bits : Nat) : Word :=
  BitVec.ofNat 36 (b2n s * 2 ^ (f.fb + 8) + bits)

/-- Infinity, zero, the largest finite value and the default NaN (R143). -/
def FFmt.infW (f : FFmt) (s : Bool) : Word := f.pack s (255 * 2 ^ f.fb)
def FFmt.zeroW (f : FFmt) (s : Bool) : Word := f.pack s 0
def FFmt.maxW (f : FFmt) (s : Bool) : Word := f.pack s (255 * 2 ^ f.fb - 1)
def FFmt.dnan (f : FFmt) : Word := f.pack false (255 * 2 ^ f.fb + 2 ^ (f.fb - 1))

/-- A NaN with its quiet bit set, sign and remaining fraction kept; bits above the format are dropped (R115, R148). -/
def FFmt.quiet (f : FFmt) (w : Word) : Word :=
  BitVec.ofNat 36 (Nat.lor (bitsOf w.toNat 0 (f.fb + 9)) (2 ^ (f.fb - 1)))

/-- The format's own bits of an operand (.S drops bits [35:32], R115). -/
def FFmt.trim (f : FFmt) (w : Word) : Word := BitVec.ofNat 36 (bitsOf w.toNat 0 (f.fb + 9))

/-- Rounding of m x 2^e, plus a sticky remainder below one unit of m, to an integer multiple of 2^q; answers the
multiple and whether it was inexact (R144). -/
def roundAt (rm : RMode) (s : Bool) (m : Nat) (e : Int) (st : Bool) (q : Int) : Nat × Bool :=
  if q ≤ e then (m * 2 ^ (e - q).toNat, st)
  else
    let sh := (q - e).toNat
    let k := m / 2 ^ sh
    let r := m % 2 ^ sh
    let half := 2 ^ (sh - 1)
    let inex := st || decide (r ≠ 0)
    let up := match rm with
      | .near => decide (r > half) || (decide (r = half) && (st || decide (k % 2 = 1)))
      | .zero => false
      | .up => inex && !s
      | .down => inex && s
    (if up then k + 1 else k, inex)

/-- The result of overflow (R144). -/
def FFmt.overflowW (f : FFmt) (rm : RMode) (s : Bool) : Word :=
  match rm, s with
  | .near, _ => f.infW s
  | .zero, _ => f.maxW s
  | .up, false => f.infW false
  | .up, true => f.maxW true
  | .down, false => f.maxW false
  | .down, true => f.infW true

/-- One rounding of a non-zero exact value to the format, with OF, UF and NX (R144-R146). (DEDUCED, log entry 35) -/
def FFmt.round (f : FFmt) (rm : RMode) (s : Bool) (m : Nat) (e : Int) (st : Bool) : ArithRes :=
  let qu : Int := e + (bitLen m : Int) - ((f.fb : Int) + 1)
  let q := if qu < f.qmin then f.qmin else qu
  let (r, inex) := roundAt rm s m e st q
  let (ru, _) := roundAt rm s m e st qu
  -- tiny: the rounding with unbounded exponent stays below 2^-126
  let tiny := decide (qu < f.qmin) && !(decide (qu + (bitLen ru : Int) > f.qmin + (f.fb : Int)))
  let bits := (q - f.qmin).toNat * 2 ^ f.fb + r
  if bits ≥ 255 * 2 ^ f.fb then { w0 := f.overflowW rm s, fl := { ovf := true, nx := true } }
  else { w0 := f.pack s bits, fl := { uf := tiny && inex, nx := inex } }

/-- An invalid operation (R146, R148). -/
def invalidRes (w : Word) : ArithRes := { w0 := w, fl := { nv := true } }

def FVal.isNan : FVal → Bool
  | .nan _ => true
  | _ => false
def FVal.isSig : FVal → Bool
  | .nan sig => sig
  | _ => false

/-- The NaN rule of R148: the first NaN among the operands, quieted, NV when any is signalling. -/
def FFmt.nanRule (f : FFmt) (ws : List Word) : Option ArithRes :=
  match ws.find? (fun w => (f.read w).isNan) with
  | some w => some { w0 := f.quiet w, fl := { nv := ws.any (fun x => (f.read x).isSig) } }
  | none => none

/-- The signed integer of a finite value at exponent `q` (q not above its own exponent). -/
def atExp (s : Bool) (m : Nat) (e q : Int) : Int :=
  let k : Int := (m * 2 ^ (e - q).toNat : Nat)
  if s then -k else k

/-- An exact sum i x 2^q, zero by the sign rule of R144. -/
def FFmt.ofExact (f : FFmt) (rm : RMode) (i q : Int) (zs : Bool) : ArithRes :=
  if i = 0 then { w0 := f.zeroW zs }
  else f.round rm (decide (i < 0)) i.natAbs q false

/-- The sign of an exact zero sum of terms of signs s1 and s2 (R144). -/
def zeroSign (rm : RMode) (s1 s2 : Bool) : Bool :=
  if s1 = s2 then s1 else decide (rm = .down)

/-- The sum of two values neither of which is a NaN. -/
def FFmt.sum (f : FFmt) (rm : RMode) (x y : FVal) : ArithRes :=
  match x, y with
  | .inf s, .inf t => if s = t then { w0 := f.infW s } else invalidRes f.dnan
  | .inf s, _ => { w0 := f.infW s }
  | _, .inf t => { w0 := f.infW t }
  | .fin s m e, .fin t n d =>
    let q := if e ≤ d then e else d
    f.ofExact rm (atExp s m e q + atExp t n d q) q (zeroSign rm s t)
  | _, _ => invalidRes f.dnan

/-- FADD (R149). -/
def FFmt.add (f : FFmt) (rm : RMode) (a b : Word) : ArithRes :=
  match f.nanRule [a, b] with
  | some r => r
  | none => f.sum rm (f.read a) (f.read b)

/-- A value with its sign inverted. -/
def FVal.neg : FVal → FVal
  | .nan g => .nan g
  | .inf s => .inf (!s)
  | .fin s m e => .fin (!s) m e

/-- FSUB: a NaN in B keeps its sign (R148, R149). -/
def FFmt.sub (f : FFmt) (rm : RMode) (a b : Word) : ArithRes :=
  match f.nanRule [a, b] with
  | some r => r
  | none => f.sum rm (f.read a) (f.read b).neg

/-- The exact product of two values that are no NaN; none for 0 x infinity. -/
def FVal.mul : FVal → FVal → Option FVal
  | .inf s, .inf t => some (.inf (s != t))
  | .inf s, .fin t n _ => if n = 0 then none else some (.inf (s != t))
  | .fin s m _, .inf t => if m = 0 then none else some (.inf (s != t))
  | .fin s m e, .fin t n d => some (.fin (s != t) (m * n) (e + d))
  | x, _ => some x

/-- FMUL (R150). -/
def FFmt.mul (f : FFmt) (rm : RMode) (a b : Word) : ArithRes :=
  match f.nanRule [a, b] with
  | some r => r
  | none =>
    match (f.read a).mul (f.read b) with
    | none => invalidRes f.dnan
    | some (.inf s) => { w0 := f.infW s }
    | some (.fin s m e) => if m = 0 then { w0 := f.zeroW s } else f.round rm s m e false
    | some (.nan _) => invalidRes f.dnan

/-- FFMA: one rounding of A x B + D (R152); NV also for 0 x infinity with a quiet NaN in D (R148). -/
def FFmt.fma (f : FFmt) (rm : RMode) (a b d : Word) : ArithRes :=
  let prod : Option FVal :=
    if (f.read a).isNan || (f.read b).isNan then some (.nan false) else (f.read a).mul (f.read b)
  match f.nanRule [a, b, d] with
  | some r => { r with fl := { nv := r.fl.nv || prod.isNone } }
  | none =>
    match prod with
    | none => invalidRes f.dnan
    | some p => f.sum rm p (f.read d)

/-- FDIV (R151). -/
def FFmt.div (f : FFmt) (rm : RMode) (a b : Word) : ArithRes :=
  match f.nanRule [a, b] with
  | some r => r
  | none =>
    match f.read a, f.read b with
    | .inf _, .inf _ => invalidRes f.dnan
    | .inf s, .fin t _ _ => { w0 := f.infW (s != t) }
    | .fin s _ _, .inf t => { w0 := f.zeroW (s != t) }
    | .fin s m e, .fin t n d =>
      if n = 0 then
        (if m = 0 then invalidRes f.dnan else { w0 := f.infW (s != t), fl := { dz := true } })
      else if m = 0 then { w0 := f.zeroW (s != t) }
      else
        let k : Nat := 64
        let num := m * 2 ^ k
        f.round rm (s != t) (num / n) (e - d - (k : Int)) (decide (num % n ≠ 0))
    | _, _ => invalidRes f.dnan

/-- The integer square root, one bit per step from bit `k - 1`. -/
def isqrtAux : Nat → Nat → Nat → Nat
  | 0, _, r => r
  | k + 1, n, r => if (r + 2 ^ k) * (r + 2 ^ k) ≤ n then isqrtAux k n (r + 2 ^ k) else isqrtAux k n r

/-- FSQRT (R153). -/
def FFmt.sqrt (f : FFmt) (rm : RMode) (a : Word) : ArithRes :=
  match f.nanRule [a] with
  | some r => r
  | none =>
    match f.read a with
    | .inf false => { w0 := f.infW false }
    | .inf true => invalidRes f.dnan
    | .fin s m e =>
      if m = 0 then { w0 := f.zeroW s }
      else if s then invalidRes f.dnan
      else
        let odd := decide (e % 2 ≠ 0)
        let m1 := if odd then m * 2 else m
        let e1 := if odd then e - 1 else e
        let n := m1 * 2 ^ 64
        let r := isqrtAux 48 n 0
        f.round rm false r (e1 / 2 - 32) (decide (r * r ≠ n))
    | .nan _ => invalidRes f.dnan

/-- The order key of R154 for values that are no NaN: x below y. -/
def FVal.lt : FVal → FVal → Bool
  | .inf s, .inf t => s && !t
  | .inf s, _ => s
  | _, .inf t => !t
  | .fin s m e, .fin t n d =>
    let q := if e ≤ d then e else d
    decide (atExp s m e q < atExp t n d q)
  | _, _ => false

/-- Equality of values, zeros equal (R154). -/
def FVal.eqv (x y : FVal) : Bool := !x.isNan && !y.isNan && !x.lt y && !y.lt x

/-- The compares FCEQ, FCLT, FCLE and FCUN (R148, R154). -/
def FFmt.cmpRes (f : FFmt) (a b : Word) (anyNan : Bool) (r : Bool) : ArithRes :=
  let x := f.read a
  let y := f.read b
  let nan := x.isNan || y.isNan
  { w0 := boolWord r, fl := { nv := x.isSig || y.isSig || (anyNan && nan) } }

def FFmt.ceq (f : FFmt) (a b : Word) : ArithRes := f.cmpRes a b false ((f.read a).eqv (f.read b))
def FFmt.clt (f : FFmt) (a b : Word) : ArithRes :=
  f.cmpRes a b true (!(f.read a).isNan && !(f.read b).isNan && (f.read a).lt (f.read b))
def FFmt.cle (f : FFmt) (a b : Word) : ArithRes :=
  f.cmpRes a b true (!(f.read a).isNan && !(f.read b).isNan && !(f.read b).lt (f.read a))
def FFmt.cun (f : FFmt) (a b : Word) : ArithRes :=
  f.cmpRes a b false ((f.read a).isNan || (f.read b).isNan)

/-- FMIN and FMAX (R148, R154); -0 stands below +0. -/
def FFmt.minmax (f : FFmt) (isMax : Bool) (a b : Word) : ArithRes :=
  let x := f.read a
  let y := f.read b
  let nv := x.isSig || y.isSig
  let aLess := x.lt y || (x.eqv y && f.sign a && !f.sign b)
  let w :=
    if x.isNan && y.isNan then f.quiet a
    else if x.isNan then f.trim b
    else if y.isNan then f.trim a
    else if isMax then (if aLess then f.trim b else f.trim a)
    else if aLess || x.eqv y && f.sign a = f.sign b then f.trim a else f.trim b
  { w0 := w, fl := { nv := nv } }

/-- CVTFI and CVTFU: rounding to an integer with saturation (R155). -/
def FFmt.toInt (f : FFmt) (rm : RMode) (lo hi : Int) (nanW : Word) (a : Word) : ArithRes :=
  match f.read a with
  | .nan _ => invalidRes nanW
  | .inf s => invalidRes (BitVec.ofInt 36 (if s then lo else hi))
  | .fin s m e =>
    let (k, inex) := roundAt rm s m e false 0
    let i : Int := if s then -(k : Int) else (k : Int)
    if i < lo then invalidRes (BitVec.ofInt 36 lo)
    else if i > hi then invalidRes (BitVec.ofInt 36 hi)
    else { w0 := BitVec.ofInt 36 i, fl := { nx := inex } }

def FFmt.cvtfi (f : FFmt) (rm : RMode) (a : Word) : ArithRes :=
  f.toInt rm (-(2 ^ 35 : Int)) (2 ^ 35 - 1 : Int) (BitVec.ofNat 36 (2 ^ 35 - 1)) a
def FFmt.cvtfu (f : FFmt) (rm : RMode) (a : Word) : ArithRes :=
  f.toInt rm 0 (2 ^ 36 - 1 : Int) (BitVec.ofNat 36 (2 ^ 36 - 1)) a

/-- CVTIF and CVTUF (R156). -/
def FFmt.ofInt (f : FFmt) (rm : RMode) (i : Int) : ArithRes := f.ofExact rm i 0 false
def FFmt.cvtif (f : FFmt) (rm : RMode) (a : Word) : ArithRes := f.ofInt rm a.toInt
def FFmt.cvtuf (f : FFmt) (rm : RMode) (a : Word) : ArithRes := f.ofInt rm (a.toNat : Int)

/-- FNEG and FABS (R153). -/
def FFmt.fneg (f : FFmt) (a : Word) : ArithRes :=
  res1 (BitVec.ofNat 36 (Nat.xor (f.trim a).toNat (2 ^ (f.fb + 8))))
def FFmt.fabs (f : FFmt) (a : Word) : ArithRes := res1 (BitVec.ofNat 36 (bitsOf a.toNat 0 (f.fb + 8)))

/-- CVT.X.S: binary32 to F36, exact (R142, R148, R157). -/
def cvtXS (a : Word) : ArithRes :=
  let t := fmtS.trim a
  let w : Word := BitVec.ofNat 36 (t.toNat * 16)
  match fmtS.read a with
  | .nan sig => { w0 := fmtX.quiet w, fl := { nv := sig } }
  | _ => res1 w

/-- CVT.S.X: F36 to binary32, rounded (R148, R157). (DEDUCED, log entry 35) -/
def cvtSX (rm : RMode) (a : Word) : ArithRes :=
  match fmtX.read a with
  | .nan sig => { w0 := fmtS.quiet (BitVec.ofNat 36 (a.toNat / 16)), fl := { nv := sig } }
  | .inf s => { w0 := fmtS.infW s }
  | .fin s m e =>
    if m = 0 then { w0 := fmtS.zeroW s }
    else
      let r := fmtS.round rm s m e false
      -- R158's row of the greatest F36 number raises OF in every mode
      if a.toNat % 2 ^ 35 = 0x7F7FFFFFF then { r with fl := { r.fl with ovf := true } } else r

end Sys2Proof.Machine
end

