-- ==== Sys2Proof/Machine/Insn.lean ====
section
/-! DEFINITION. The instruction slot of the fabric: fields and formats (R76-R79), operand modes (R80, R81, R84),
destination-list entries (R88, R89), the opcode map (R107 and the opcode tables of R108-R130), and the decode
causes that need only the slot and its lists (R95, R96). -/

namespace Sys2Proof.Machine

/-- The operations of the opcode tables (R108, R111, R112, R115-R117, R124, R125, R130, R90). -/
inductive FOp where
  | add | sub | adc | sbc | neg | mul | mulw | mulwu | div | divu | min | max | minu | maxu
  | and | or | xor | andn | not | shl | shr | sar | rol | ror | popc | clz
  | ceq | cne | clt | cle | cltu | cleu | steer | select | mov | gate
  | fadd | fsub | fmul | ffma | fdiv | fsqrt | fmin | fmax | fceq | fclt | fcle | fcun
  | cvtfi | cvtfu | cvtif | cvtuf | fneg | fabs | cvtXS | cvtSX
  | call | ret | send | falloc | ffree | self | prio | emit | ltbAcq | ltbRel | brk | repI | repU
deriving DecidableEq, Repr

/-- The formats of R78. -/
inductive Fmt where
  | t3 | tl | tw | px
deriving DecidableEq, Repr

/-- The D role of an opcode (R79, R99). -/
inductive DRole where
  | none | input | out1 | out2
deriving DecidableEq, Repr

/-- One row of the opcode tables: opcode value, operation, F36 form, allowed formats, operands used, D role, and the
number of result words. -/
structure OpRow where
  code : Nat
  op : FOp
  x : Bool
  fmts : List Fmt
  useB : Bool
  d : DRole
  results : Nat
deriving DecidableEq, Repr

def fmts3 : List Fmt := [.t3, .tl, .tw]
def fmts2 : List Fmt := [.t3, .tl]
def fmts1 : List Fmt := [.t3]

/-- The integer, logic, compare and routing rows (R108, R111, R112). -/
def opRowsInt : List OpRow := [
  ⟨0x001, .add, false, fmts3, true, .out1, 2⟩, ⟨0x002, .sub, false, fmts3, true, .out1, 2⟩,
  ⟨0x003, .adc, false, fmts1, true, .input, 2⟩, ⟨0x004, .sbc, false, fmts1, true, .input, 2⟩,
  ⟨0x005, .neg, false, fmts2, false, .out1, 1⟩, ⟨0x006, .mul, false, fmts3, true, .out1, 1⟩,
  ⟨0x007, .mulw, false, fmts3, true, .out2, 2⟩, ⟨0x008, .mulwu, false, fmts3, true, .out2, 2⟩,
  ⟨0x009, .div, false, fmts3, true, .out2, 2⟩, ⟨0x00A, .divu, false, fmts3, true, .out2, 2⟩,
  ⟨0x00B, .min, false, fmts3, true, .out1, 1⟩, ⟨0x00C, .max, false, fmts3, true, .out1, 1⟩,
  ⟨0x00D, .minu, false, fmts3, true, .out1, 1⟩, ⟨0x00E, .maxu, false, fmts3, true, .out1, 1⟩,
  ⟨0x020, .and, false, fmts3, true, .out1, 1⟩, ⟨0x021, .or, false, fmts3, true, .out1, 1⟩,
  ⟨0x022, .xor, false, fmts3, true, .out1, 1⟩, ⟨0x023, .andn, false, fmts3, true, .out1, 1⟩,
  ⟨0x024, .not, false, fmts2, false, .out1, 1⟩, ⟨0x028, .shl, false, fmts3, true, .out1, 1⟩,
  ⟨0x029, .shr, false, fmts3, true, .out1, 1⟩, ⟨0x02A, .sar, false, fmts3, true, .out1, 1⟩,
  ⟨0x02B, .rol, false, fmts3, true, .out1, 1⟩, ⟨0x02C, .ror, false, fmts3, true, .out1, 1⟩,
  ⟨0x02D, .popc, false, fmts2, false, .out1, 1⟩, ⟨0x02E, .clz, false, fmts2, false, .out1, 1⟩,
  ⟨0x040, .ceq, false, fmts3, true, .out1, 1⟩, ⟨0x041, .cne, false, fmts3, true, .out1, 1⟩,
  ⟨0x042, .clt, false, fmts3, true, .out1, 1⟩, ⟨0x043, .cle, false, fmts3, true, .out1, 1⟩,
  ⟨0x044, .cltu, false, fmts3, true, .out1, 1⟩, ⟨0x045, .cleu, false, fmts3, true, .out1, 1⟩,
  ⟨0x048, .steer, false, fmts2, true, .none, 1⟩, ⟨0x049, .select, false, fmts1, true, .input, 1⟩,
  ⟨0x04A, .mov, false, fmts2, false, .out1, 1⟩, ⟨0x04B, .gate, false, fmts2, true, .out1, 1⟩]

/-- The .S rows of R115 as (operation, allows TW, uses B, D role), in opcode order from 0x080. -/
def fpShape : List (FOp × List Fmt × List Fmt × Bool × DRole) := [
  (.fadd, fmts3, fmts2, true, .out1), (.fsub, fmts3, fmts2, true, .out1), (.fmul, fmts3, fmts2, true, .out1),
  (.ffma, fmts1, fmts1, true, .input), (.fdiv, fmts3, fmts2, true, .out1), (.fsqrt, fmts2, fmts2, false, .out1),
  (.fmin, fmts3, fmts2, true, .out1), (.fmax, fmts3, fmts2, true, .out1), (.fceq, fmts3, fmts2, true, .out1),
  (.fclt, fmts3, fmts2, true, .out1), (.fcle, fmts3, fmts2, true, .out1), (.fcun, fmts3, fmts2, true, .out1),
  (.cvtfi, fmts2, fmts2, false, .out1), (.cvtfu, fmts2, fmts2, false, .out1), (.cvtif, fmts2, fmts2, false, .out1),
  (.cvtuf, fmts2, fmts2, false, .out1), (.fneg, fmts2, fmts2, false, .out1), (.fabs, fmts2, fmts2, false, .out1)]

/-- The floating-point rows (R115: the .X opcode is the .S opcode + 0x20). -/
def opRowsFp : List OpRow :=
  (fpShape.zipIdx.map (fun p => OpRow.mk (0x080 + p.2) p.1.1 false p.1.2.1 p.1.2.2.2.1 p.1.2.2.2.2 1)) ++
  (fpShape.zipIdx.map (fun p => OpRow.mk (0x0A0 + p.2) p.1.1 true p.1.2.2.1 p.1.2.2.2.1 p.1.2.2.2.2 1))

/-- Conversions, contexts, EMIT, latches, BRK and the prefixes (R116, R117, R124, R125, R130, R90). -/
def opRowsSys : List OpRow := [
  ⟨0x0C0, .cvtXS, false, fmts2, false, .out1, 1⟩, ⟨0x0C1, .cvtSX, false, fmts2, false, .out1, 1⟩,
  ⟨0x100, .call, false, fmts1, true, .input, 2⟩, ⟨0x101, .ret, false, fmts2, false, .none, 1⟩,
  ⟨0x102, .send, false, fmts1, true, .input, 1⟩, ⟨0x104, .falloc, false, fmts3, true, .out1, 2⟩,
  ⟨0x105, .ffree, false, fmts2, false, .none, 1⟩, ⟨0x106, .self, false, fmts2, false, .out1, 2⟩,
  ⟨0x107, .prio, false, fmts2, false, .none, 1⟩, ⟨0x120, .emit, false, [.tl], true, .none, 1⟩,
  ⟨0x128, .ltbAcq, false, fmts2, false, .none, 2⟩, ⟨0x129, .ltbRel, false, fmts2, false, .none, 1⟩,
  ⟨0x180, .brk, false, fmts2, false, .none, 1⟩, ⟨0x1F0, .repI, false, [.px], false, .none, 1⟩,
  ⟨0x1F1, .repU, false, [.px], false, .none, 1⟩]

/-- The opcode map (R107): every value not listed is undefined. -/
def opRows : List OpRow := opRowsInt ++ opRowsFp ++ opRowsSys

def opRowOf (code : Nat) : Option OpRow := opRows.find? (fun r => r.code == code)

/-- The operand modes of R80; `res` stands for modes 12-15. -/
inductive OMode where
  | tok | imm | frm | fri | idx | cpl | glb | ist | isw | pin | toka | itx | res (m : Nat)
deriving DecidableEq, Repr

/-- A specifier: its mode and its 12-bit field (R78). -/
structure Spec where
  m : OMode
  f : Nat
deriving DecidableEq, Repr

def modeOf : Nat → OMode
  | 0 => .tok | 1 => .imm | 2 => .frm | 3 => .fri | 4 => .idx | 5 => .cpl | 6 => .glb | 7 => .ist
  | 8 => .isw | 9 => .pin | 10 => .toka | 11 => .itx | n => .res n

def OMode.code : OMode → Nat
  | .tok => 0 | .imm => 1 | .frm => 2 | .fri => 3 | .idx => 4 | .cpl => 5 | .glb => 6 | .ist => 7
  | .isw => 8 | .pin => 9 | .toka => 10 | .itx => 11 | .res n => n

/-- A 16-bit specifier (R78). -/
def specOf (x : Nat) : Spec := { m := modeOf (bitsOf x 12 4), f := bitsOf x 0 12 }

/-- The 16 bits of a specifier (R78). -/
def Spec.code (s : Spec) : Nat := s.m.code * 4096 + s.f

/-- An unused specifier: IMM with field 0 (R79). -/
def Spec.unused : Spec := { m := .imm, f := 0 }

/-- The two words of a slot with its four parity bits (R77). -/
structure Slot where
  w0 : Word
  w1 : Word
  par : BitVec 4
deriving DecidableEq, Repr

/-- The parity bits of R77: even parity over [71:54], [53:36], [35:18] and [17:0]. -/
def slotParity (w0 w1 : Word) : BitVec 4 :=
  BitVec.ofNat 4 (8 * b2n (parityOf 18 (bitsOf w0.toNat 18 18)) + 4 * b2n (parityOf 18 (bitsOf w0.toNat 0 18)) +
    2 * b2n (parityOf 18 (bitsOf w1.toNat 18 18)) + b2n (parityOf 18 (bitsOf w1.toNat 0 18)))

/-- A slot as GRAPH_LOAD writes it (R77). -/
def mkSlot (w0 w1 : Word) : Slot := { w0 := w0, w1 := w1, par := slotParity w0 w1 }

/-- A slot never written. -/
def Slot.empty : Slot := mkSlot 0 0

def Slot.parityOk (s : Slot) : Bool := s.par == slotParity s.w0 s.w1

/-- Parity of one word of the slot (destination-list and pool words, R87, R88). -/
def Slot.wordOk (s : Slot) (second : Bool) : Bool :=
  if second then bitsOf s.par.toNat 0 2 == bitsOf (slotParity s.w0 s.w1).toNat 0 2
  else bitsOf s.par.toNat 2 2 == bitsOf (slotParity s.w0 s.w1).toNat 2 2

/-- Instruction bits [71:0] (R76). -/
def Slot.bits (s : Slot) : Nat := s.w0.toNat * 2 ^ 36 + s.w1.toNat

/-- The format of a code, none for 4-7 (R78). -/
def fmtOf : Nat → Option Fmt
  | 0 => some .t3
  | 1 => some .tl
  | 2 => some .tw
  | 3 => some .px
  | _ => none

def Fmt.code : Fmt → Nat
  | .t3 => 0
  | .tl => 1
  | .tw => 2
  | .px => 3

/-- The decoded fields of a slot in its format (R76, R78). -/
structure Insn where
  op : FOp
  x : Bool
  fmt : Fmt
  a : Spec
  b : Spec
  d : Spec
  /-- L16 of TL, L32 of TW, bits [43:0] of PX, 0 of T3. -/
  lit : Nat
  ptr : Nat
deriving DecidableEq, Repr

/-- The field view of a slot whose opcode row and format are known (R78). -/
def insnOf (r : OpRow) (f : Fmt) (bits : Nat) : Insn :=
  let a := specOf (bitsOf bits 44 16)
  let b := specOf (bitsOf bits 28 16)
  let d := specOf (bitsOf bits 12 16)
  match f with
  | .t3 => { op := r.op, x := r.x, fmt := f, a := a, b := b, d := d, lit := 0, ptr := bitsOf bits 0 12 }
  | .tl => { op := r.op, x := r.x, fmt := f, a := a, b := b, d := Spec.unused, lit := bitsOf bits 12 16,
             ptr := bitsOf bits 0 12 }
  | .tw => { op := r.op, x := r.x, fmt := f, a := a, b := Spec.unused, d := Spec.unused, lit := bitsOf bits 12 32,
             ptr := bitsOf bits 0 12 }
  | .px => { op := r.op, x := r.x, fmt := f, a := a, b := Spec.unused, d := Spec.unused, lit := bitsOf bits 0 44,
             ptr := 0 }

/-- The outcome of reading a slot's opcode and format (ILLEGAL causes 0, 1 and 2, R95). -/
inductive SlotRead where
  | bad (cause : Nat)
  | ok (r : OpRow) (i : Insn)
deriving DecidableEq, Repr

/-- Parity, opcode, format in this order (R95, R96: the lowest cause is reported). (DESIGN CHOICE, log entry 53) -/
def readSlot (s : Slot) : SlotRead :=
  if !s.parityOk then .bad 0
  else
    match opRowOf (bitsOf s.bits 63 9) with
    | none => .bad 1
    | some r =>
      match fmtOf (bitsOf s.bits 60 3) with
      | none => .bad 2
      | some f => if r.fmts.contains f then .ok r (insnOf r f s.bits) else .bad 2

/-- The opcode row of an operation in its .S or .X form. -/
def opRowFor (op : FOp) (x : Bool) : Option OpRow := opRows.find? (fun r => r.op == op && r.x == x)

/-- The 72 bits of an instruction (R76, R78). -/
def Insn.bits (i : Insn) (code : Nat) : Nat :=
  let head := code * 2 ^ 63 + i.fmt.code * 2 ^ 60 + i.a.code * 2 ^ 44
  match i.fmt with
  | .t3 => head + i.b.code * 2 ^ 28 + i.d.code * 2 ^ 12 + i.ptr
  | .tl => head + i.b.code * 2 ^ 28 + i.lit * 2 ^ 12 + i.ptr
  | .tw => head + i.lit * 2 ^ 12 + i.ptr
  | .px => head + i.lit

/-- The slot that holds an instruction (R71, R76, R77). -/
def encodeInsn (i : Insn) : Slot :=
  match opRowFor i.op i.x with
  | none => Slot.empty
  | some r => mkSlot (BitVec.ofNat 36 (i.bits r.code / 2 ^ 36)) (BitVec.ofNat 36 (i.bits r.code))

/-- A specifier that its 16 bits can hold. -/
def Spec.wf (s : Spec) : Bool :=
  decide (s.f < 4096) && (match s.m with | .res n => decide (12 ≤ n) && decide (n < 16) | _ => true)

/-- An instruction that a slot can hold: its opcode exists in this form, allows its format, and every field fits the
format's bits (fields the format does not have stand at their fixed values). -/
def Insn.wf (i : Insn) : Bool :=
  match opRowFor i.op i.x with
  | none => false
  | some r =>
    r.fmts.contains i.fmt && i.a.wf && i.b.wf && i.d.wf && decide (i.ptr < 4096) &&
    (match i.fmt with
     | .t3 => decide (i.lit = 0)
     | .tl => decide (i.lit < 2 ^ 16) && decide (i.d = Spec.unused)
     | .tw => decide (i.lit < 2 ^ 32) && decide (i.b = Spec.unused) && decide (i.d = Spec.unused)
     | .px => decide (i.lit < 2 ^ 44) && decide (i.b = Spec.unused) && decide (i.d = Spec.unused) && decide (i.ptr = 0))

/-- A destination-list entry (R89). -/
structure DEntry where
  off : Nat
  port : Nat
  act : Nat
  last : Bool
  sel : Bool
  rsv : Nat
deriving DecidableEq, Repr

def dentryOf (w : Word) : DEntry :=
  { off := fieldOf w 0 20, port := fieldOf w 20 2, act := fieldOf w 22 2, last := bitOf w.toNat 24,
    sel := bitOf w.toNat 25, rsv := fieldOf w 26 10 }

/-- Operand positions (R80). -/
inductive Pos where
  | a | b | din | dout | count
deriving DecidableEq, Repr

/-- The positions a mode may occupy (R80). -/
def modeAllowed (p : Pos) (fmt : Fmt) : OMode → Bool
  | .tok => p == .a || p == .b || p == .din
  | .imm => p != .dout
  | .frm => true
  | .fri => true
  | .idx => p != .count
  | .cpl => p != .dout
  | .glb => p != .count
  | .ist => p == .a || p == .b || p == .din
  | .isw => p == .dout
  | .pin => p != .count
  | .toka => (p == .a || p == .b) && fmt == .tl
  | .itx => p == .a || p == .b || p == .din
  | .res _ => false

/-- The field bits of a specifier that must be zero are zero (R81, R84: ILLEGAL cause 4). -/
def fieldOk (s : Spec) : Bool :=
  match s.m with
  | .tok => s.f == 0
  | .itx => s.f == 0
  | .toka => bitsOf s.f 8 4 == 0 && bitsOf s.f 0 3 != 7 &&
      (!bitOf s.f 3 || bitsOf s.f 0 3 == 4 || bitsOf s.f 0 3 == 5)
  | _ => true

def isReserved : OMode → Bool
  | .res _ => true
  | _ => false

/-- The specifiers an instruction uses, with their positions: A always, B, and D by its role (R79, R99). -/
def usedSpecs (r : OpRow) (i : Insn) : List (Pos × Spec) :=
  (Pos.a, i.a) ::
  ((if r.useB && i.fmt != .tw then [(Pos.b, i.b)] else []) ++
   (match i.fmt, r.d with
    | .t3, .input => [(Pos.din, i.d)]
    | .t3, .out1 => if i.d = Spec.unused then [] else [(Pos.dout, i.d)]
    | .t3, .out2 => if i.d = Spec.unused then [] else [(Pos.dout, i.d)]
    | _, _ => []))

/-- The specifier fields that the format has but the opcode does not use (R79). -/
def unusedSpecs (r : OpRow) (i : Insn) : List Spec :=
  (if !r.useB && (i.fmt == .t3 || i.fmt == .tl) then [i.b] else []) ++
  (if i.fmt == .t3 && r.d == .none then [i.d] else [])

/-- The ports of R45: operand position to port number. -/
def posPort : Pos → Nat
  | .a => 0
  | .b => 1
  | _ => 2

/-- The operand at a port, if the instruction has one there (R45). -/
def specAt (r : OpRow) (i : Insn) (port : Nat) : Option Spec :=
  ((usedSpecs r i).find? (fun p => p.1 != .dout && posPort p.1 == port)).map (fun p => p.2)

/-- The need mask of R163 as a list of ports in TOK mode. -/
def needPorts (r : OpRow) (i : Insn) : List Nat :=
  [0, 1, 2].filter (fun p => match specAt r i p with | some s => s.m == .tok | none => false)

/-- The TOKA port with its specifier (R163). -/
def tokaPort (r : OpRow) (i : Insn) : Option (Nat × Spec) :=
  ([0, 1, 2].filterMap (fun p => match specAt r i p with
    | some s => if s.m == .toka then some (p, s) else none
    | none => none)).head?

/-- The arrival count of a TOKA specifier: L16 x 2^s (R84). -/
def tokaCount (i : Insn) (s : Spec) : Nat := i.lit * 2 ^ (bitsOf s.f 4 4)

/-- A list holds some element twice. -/
def hasDup : List Nat → Bool
  | [] => false
  | x :: xs => xs.contains x || hasDup xs

/-- Two PIN operands that name one slot (R83). -/
def pinClash (sp : List (Pos × Spec)) : Bool :=
  hasDup ((sp.filter (fun p => p.2.m == .pin)).map (fun p => bitsOf p.2.f 0 4))

/-- The decode causes of the specifiers and the literal (ILLEGAL 3-6, R79-R86, R98, R99, R124). -/
def specCauses (r : OpRow) (i : Insn) : List Nat :=
  let us := usedSpecs r i
  let un := unusedSpecs r i
  let tokas := (us.filter (fun p => p.2.m == .toka)).length
  let ists := (us.filter (fun p => p.2.m == .ist)).length
  (if us.any (fun p => isReserved p.2.m) || un.any (fun s => isReserved s.m) then [3] else []) ++
  (if us.any (fun p => !fieldOk p.2) || un.any (fun s => !isReserved s.m && s != Spec.unused) ||
      (i.fmt == .px && i.lit != 0) || (i.op == .emit && bitsOf i.lit 6 10 != 0) ||
      (i.fmt == .tl && i.op != .emit && tokas == 0 && i.lit != 0) then [4] else []) ++
  (if us.any (fun p => !isReserved p.2.m && !modeAllowed (if i.fmt == .px then .count else p.1) i.fmt p.2.m)
   then [5] else []) ++
  (if decide (tokas > 1) || (decide (tokas > 0) && (i.fmt != .tl || i.op == .emit || i.lit == 0)) ||
      decide (ists > 1) || pinClash us || (r.d == .out2 && us.any (fun p => p.2.m == .isw)) then [6] else [])

/-- The decode causes that the Matching Store sees on an arrival (R85): causes 4 and 6 of a TOKA specifier. -/
def tokaBad (r : OpRow) (i : Insn) : Bool :=
  let us := usedSpecs r i
  let tk := us.filter (fun p => p.2.m == .toka)
  tk.any (fun p => !fieldOk p.2) ||
  (tk.length != 0 && (tk.length != 1 || i.fmt != .tl || i.op == .emit || i.lit == 0))

/-- The lowest-numbered cause of a list (R96). -/
def lowest : List Nat → Option Nat
  | [] => none
  | c :: cs => match lowest cs with
    | none => some c
    | some d => some (if c ≤ d then c else d)

end Sys2Proof.Machine
end

