-- ==== Sys2Proof/Machine/Store.lean ====
section
/-! DEFINITION. Tables keyed by a number, in one canonical form: keys strictly rising, and no entry equal to what an
unlisted key reads as. Memory and every sparse part of State is such a table. -/

namespace Sys2Proof.Machine

/-- A table of values by key. -/
abbrev Tab (α : Type) := List (Nat × α)

/-- The listed value at a key. -/
def tfind {α : Type} : Tab α → Nat → Option α
  | [], _ => none
  | (j, v) :: t, k => if j = k then some v else tfind t k

/-- The value at a key, `d` where unlisted. -/
def tget {α : Type} (d : α) (t : Tab α) (k : Nat) : α := (tfind t k).getD d

/-- The table without a key. -/
def tdel {α : Type} : Tab α → Nat → Tab α
  | [], _ => []
  | (j, v) :: t, k => if j = k then tdel t k else (j, v) :: tdel t k

/-- The table with an entry placed at its position. -/
def tins {α : Type} : Tab α → Nat → α → Tab α
  | [], k, v => [(k, v)]
  | (j, w) :: t, k, v =>
    if j = k then (k, v) :: t else if k < j then (k, v) :: (j, w) :: t else (j, w) :: tins t k v

/-- The write of a key: an entry equal to the unlisted value is removed. -/
def tput {α : Type} [DecidableEq α] (d : α) (t : Tab α) (k : Nat) (v : α) : Tab α :=
  if v = d then tdel t k else tins t k v

/-- The keys rise strictly from above `lo`. -/
def trises {α : Type} : Option Nat → Tab α → Bool
  | _, [] => true
  | none, (j, _) :: t => trises (some j) t
  | some i, (j, _) :: t => decide (i < j) && trises (some j) t

/-- The canonical form. -/
def twf {α : Type} [DecidableEq α] (d : α) (t : Tab α) : Bool :=
  trises none t && t.all (fun p => decide (p.2 ≠ d))

/-- The table without the keys from `lo` to `hi - 1`. -/
def tclear {α : Type} (t : Tab α) (lo hi : Nat) : Tab α :=
  t.filter (fun p => decide (p.1 < lo) || decide (hi ≤ p.1))

/-- An element of a list, `d` past its end. -/
def lget {α : Type} (d : α) (l : List α) (i : Nat) : α := l.getD i d

/-- A list of fixed length with one element replaced. -/
def lset {α : Type} (l : List α) (i : Nat) (v : α) : List α := l.set i v

/-- Removes the first element that satisfies a test, and answers it. -/
def takeFirst {α : Type} (p : α → Bool) : List α → Option (α × List α)
  | [] => none
  | x :: xs => if p x then some (x, xs) else (takeFirst p xs).map (fun r => (r.1, x :: r.2))

/-- The numbers 0 to n - 1 whose bit is set in a mask. -/
def bitsSet (n mask : Nat) : List Nat := (List.range n).filter (fun i => mask.testBit i)

/-- The mask of a test over 0 to n - 1. -/
def maskOf (n : Nat) (p : Nat → Bool) : Nat :=
  (List.range n).foldl (fun m i => if p i then m + 2 ^ i else m) 0

end Sys2Proof.Machine
end

