-- ==== Sys2Proof/Machine/State.lean ====
section
/-! DEFINITION. Everything the spec gives the block to hold, as plain data, and its value before the first start.
INVENTORY.md lists the pieces with their rules. Fields marked MODEL are the model's own bookkeeping. -/

namespace Sys2Proof.Machine

/-- The reasons a step can stop with a fault. None is raised: every command of the table has an effect the spec gives
(R14), so the type is empty of causes but for this one, which no meaning answers (safe). -/
inductive Fault where
  /-- Never raised by any meaning; it keeps the type inhabited (safe). -/
  | never
deriving DecidableEq, Repr

/-- The reasons a command is refused by the model. -/
inductive Refusal where
  /-- A command without a meaning in the model, by its mnemonic (safe). -/
  | notModelled (mnemonic : String)
deriving DecidableEq, Repr

/-- A token with its class (R44, R460) and its destination package (R18). -/
structure Token where
  cid : BitVec 24
  ip : BitVec 20
  colour : BitVec 12
  port : BitVec 2
  cls : BitVec 3
  pkg : BitVec 4
  val : PWord
deriving DecidableEq, Repr

/-- A ready item (R181). `bad` marks the words 0-7 that a queue delivered with the poison of R194. -/
structure Item where
  cid : BitVec 24
  colour : BitVec 12
  ip : BitVec 20
  cls : BitVec 3
  pmask : BitVec 3
  kind : BitVec 2
  ovf : Bool
  remote : Bool
  v0 : PWord
  v1 : PWord
  v2 : PWord
  n : BitVec 32
  nxt : BitVec 32
  graph : BitVec 8
  bad : BitVec 8
deriving DecidableEq, Repr

/-- A Matching Store way (R160). -/
structure MsEntry where
  valid : Bool
  cid : BitVec 24
  ip : BitVec 20
  colour : BitVec 12
  pmask : BitVec 3
  acc : Bool
  fop : BitVec 3
  sgn : Bool
  rem : BitVec 31
  ovf : Bool
  val : PWord
  par : BitVec 5
deriving DecidableEq, Repr

/-- An invalid way as a clear leaves it (R228). -/
def MsEntry.empty : MsEntry :=
  { valid := false, cid := 0, ip := 0, colour := 0, pmask := 0, acc := false, fop := 0, sgn := false, rem := 0,
    ovf := false, val := PWord.zero, par := 0 }

/-- A set: sixteen ways and the overflow bit (R159, R166). -/
structure MsSet where
  ways : List MsEntry
  ovf : Bool
deriving DecidableEq, Repr

def MsSet.empty : MsSet := { ways := List.replicate 16 MsEntry.empty, ovf := false }

/-- What the Matching Store takes from an instruction: the need mask, the TOKA port with its specifier and count, and
whether the instance is enabled at once (R163, R85). -/
structure View where
  need : List Nat
  toka : Option (Nat × Spec × Nat)
  now : Bool
deriving DecidableEq, Repr

/-- An operation that occupies a walk slot: the arriving token and its set (R174). -/
structure Walk where
  slot : Nat
  set : Nat
  tok : Token
  /-- an accumulating entry that a resume brings back (R221); none for an arrival -/
  acc : Option MsEntry
  /-- the walk found the region full and holds its insert (R170) -/
  held : Bool
deriving DecidableEq, Repr

/-- An answer to one read of a firing's step 1: a word, a response with its error bit (R36), a reservation (R205), a
latch read value (R243). -/
inductive Ans where
  | word (w : PWord)
  | err
  | grant (ok : Bool)
  | latch (v : BitVec 32)
deriving DecidableEq, Repr

/-- What a firing in progress waits for: a memory response, a reply of a Bedrock unit, or a bank that wakes (R104, R205,
R229). -/
inductive Wait where
  | mem (txn : BitVec 10)
  | unit (id : Nat)
  | bank (b : Nat)
deriving DecidableEq, Repr

/-- A repetition of a repeated pair: its index, the count, and the PIN bases p of positions A, B, D (R93). -/
structure RepCtx where
  i : Nat
  n : Nat
  pins : List PWord
deriving DecidableEq, Repr

/-- The part of a repeated pair that is being fired (R127, R128): a match whose decode and count are being read, or one
repetition. -/
inductive Phase where
  | single
  | repDecode (unbroken : Bool)
  | repetition (unbroken : Bool) (r : RepCtx)
deriving DecidableEq, Repr

/-- A firing whose step 1 waits (R105). (DESIGN CHOICE, log entry 6) -/
structure Firing where
  pe : Nat
  item : Item
  phase : Phase
  got : List Ans
  wait : Wait
  /-- class under which its tokens travel (R460) -/
  lane : BitVec 3
  /-- MODEL: its place in the order in which the firings of its die began (R64 item 4) -/
  seq : Nat
deriving DecidableEq, Repr

/-- A repeated pair that a PE is running: the next repetition to begin (R127, R128). -/
structure RepRun where
  item : Item
  unbroken : Bool
  n : Nat
  next : Nat
  pins : List PWord
  lane : BitVec 3
  /-- no repetition has begun since the PE took the pair up: a REP.I pair is suspended only between repetitions (R128) -/
  fresh : Bool
deriving DecidableEq, Repr

/-- A PE (R103, R138, R183, R211). -/
structure Pe where
  /-- repeated pairs whose decode has passed, the running one first -/
  runs : List RepRun
  /-- resume items that its lane has refused, oldest first (R183) -/
  heldItems : List Item
  /-- Tamp credit counters per class (R211) -/
  cr : List Int
  /-- the divider, as its last division left it (R138) -/
  divider : Divider
deriving DecidableEq, Repr

def Pe.reset : Pe := { runs := [], heldItems := [], cr := List.replicate 8 1024, divider := Divider.reset }

/-- A ready lane (R182, R188, R192). (DESIGN CHOICE, log entry 6) -/
structure Lane where
  head : List Item
  mid : List Item
  tail : List Item
  age : Nat
  /-- position in the middle's circular buffer, in items -/
  midWr : Nat
  refill : Bool
  diag : Bool
  underrun : Bool
  /-- words of the head item already read in DIAG mode (R201) -/
  diagPos : Nat
  last : PWord
  /-- MODEL: the period running since the lane became full without a pop: its first cycle and its length (R215, R225) -/
  fullSince : Option (Nat × Nat)
deriving DecidableEq, Repr

def Lane.empty : Lane :=
  { head := [], mid := [], tail := [], age := 0, midWr := 0, refill := false, diag := false, underrun := false,
    diagPos := 0, last := PWord.zero, fullSince := none }

/-- What a queue says of a word it delivers: good, poisoned by the queue itself (R194), or the abort word of R197. -/
inductive WMark where
  | good | lost | abort
deriving DecidableEq, Repr

/-- A word of a Silt queue with its EOP mark (R191). (DESIGN CHOICE, log entry 6) -/
structure SWord where
  w : PWord
  eop : Bool
  mark : WMark := .good
  /-- the two stored parity bits: even parity of the word's bits [17:0] and [35:18]; they are set as the word is
  committed -/
  par : BitVec 2 := 0
deriving DecidableEq, Repr

/-- The word as the queue delivers it after an uncorrectable error (R194). (DESIGN CHOICE, log entry 53) -/
def SWord.hurt (x : SWord) : SWord := { x with w := { x.w with p := true }, mark := .lost }

/-- The producer's situation at a queue (R196, R200). -/
inductive DropMode where
  | none | rewound | flushed
deriving DecidableEq, Repr

/-- What a push answers its producer (R196). -/
inductive PushStatus where
  | accept | refuse | dropRewound | dropFlushed | acceptFlushed
deriving DecidableEq, Repr

/-- A Silt queue of classes 1-4 (R191-R202). (DEDUCED, log entry 63) -/
structure Silt where
  head : List SWord
  mid : List SWord
  tail : List SWord
  midWr : Nat
  refill : Bool
  diag : Bool
  underrun : Bool
  /-- committed words of the packet that is not yet complete -/
  openWords : Nat
  drop : DropMode
  /-- words of the open packet that the consumer has taken under cut-through (R197) -/
  taken : Nat
  abortDue : Bool
  /-- the next push answers ACCEPT_FLUSHED (R200) -/
  flushedFirst : Bool
  /-- what the newest push answered; a producer abort carries no word and answers nothing (UNVERIFIED, log entry 63) -/
  status : PushStatus
  last : SWord
  /-- words the producer holds and pushes in order -/
  inbox : List SWord
  /-- words of the packet the hardware consumer is taking -/
  asm : List SWord
  /-- CK_TB edge at which the Drip timer expires (R202), and whether its action was taken -/
  drip : Option Nat
  dripTaken : Bool
deriving DecidableEq, Repr

def Silt.empty : Silt :=
  { head := [], mid := [], tail := [], midWr := 0, refill := false, diag := false, underrun := false, openWords := 0,
    drop := .none, taken := 0, abortDue := false, flushedFirst := false, status := .accept, last := { w := PWord.zero, eop := false }, inbox := [], asm := [],
    drip := none, dripTaken := false }

/-- One direction of a D2D link, from its sender to its receiver (R18-R24). -/
structure LinkDir where
  /-- flits waiting for credits, pools 8, 9 and 10 in this order in one list -/
  outq : List (BitVec 128)
  /-- flits on the wire, oldest first; a numbered flit carries its number -/
  wire : List (Option (BitVec 9) × BitVec 128)
  replay : List (BitVec 9 × BitVec 128)
  nextSeq : BitVec 9
  /-- flits sent per pool, and the highest cumulative return received per pool (R21) -/
  sent : List Nat
  seen : List (BitVec 16)
  inject : Bool
  replays : Nat
  /-- receiver: next expected number, discarding until the replay, received since the last ACK -/
  expect : BitVec 9
  discarding : Bool
  /-- while discarding: flits still on the wire before the replay, once the sender has taken the NAK (R20) -/
  skip : Option Nat
  /-- the receiver waits for the TRAIN_DONE that ends training (R17, R18) -/
  training : Bool
  sinceAck : Nat
  /-- receiver: cumulative returns sent per pool -/
  freed : List (BitVec 16)
  /-- receiver: tokens that cannot move on yet (R29) -/
  stuck : List Token
deriving DecidableEq, Repr

def LinkDir.reset : LinkDir :=
  { outq := [], wire := [], replay := [], nextSeq := 0, sent := List.replicate 11 0,
    seen := List.replicate 11 0, inject := false, replays := 0, expect := 0, discarding := false, skip := none, training := false,
    sinceAck := 0,
    freed := List.replicate 11 0, stuck := [] }

/-- A D2D link (R24, R43). -/
structure Link where
  up : Bool
  half : Bool
  /-- declared down by R24: it stays down until the next start -/
  dead : Bool
deriving DecidableEq, Repr

def Link.reset : Link := { up := false, half := false, dead := false }

/-- An input of the dispatch unit (R183): an activity, or a firing released by an I-structure write (to the affinity PE's
lane). -/
structure DispIn where
  item : Item
  released : Bool
deriving DecidableEq, Repr

/-- A write buffered in a PE (R235). -/
structure WBuf where
  pe : Nat
  addr : Nat
  w : PWord
deriving DecidableEq, Repr

/-- A lift as it travels to a die (R247): latch, context, class or unlift. -/
structure LiftMsg where
  latch : Nat
  cid : BitVec 24
  cls : Option (BitVec 3)
deriving DecidableEq, Repr

/-- An idle-side write that a Frame Store bank holds (R233, R234): its global word, and the Block Mover channel that it is
a word of; none for a BAR2 write. -/
structure HeldWr where
  addr : Nat
  w : PWord
  chan : Option Nat
deriving DecidableEq, Repr

/-- A Loam die (chapters 02, 04, 06-09, 14). -/
structure Die where
  up : Bool
  /-- tokens of the die's own PEs on their way to its slice -/
  arr : List Token
  disp : List DispIn
  firing : List Firing
  /-- deferral pool (R61): returned records on top, then the next index never taken -/
  isdRet : List Nat
  isdFresh : Nat
  isdTotal : Nat
  building : Bool
  /-- MODEL: cycle at which the build of the pool began -/
  buildFrom : Nat
  /-- overflow region allocator (R167, R169) -/
  bump : Nat
  freeHead : Nat
  walks : List Walk
  waitq : List Token
  regionFull : Bool
  regionSince : Option (Nat × Nat)
  /-- counts of R176 -/
  occ : Nat
  hwm : Nat
  chainUsed : Nat
  ovfSets : Nat
  sweeping : Bool
  wbuf : List WBuf
  held : List HeldWr
  lifts : Tab LiftMsg
  liftMsgs : List LiftMsg
  /-- Tamp (R207, R208): die level, package level applied, figures sampled (set, chain, ready) -/
  level : Nat
  pkgLevel : Nat
  figs : List Nat
  /-- CK_TB edges since which floors hold, and episode marks, per class (R213) -/
  floorSince : List (Option Nat)
  floorDone : List Bool
  /-- tenths of CK_FAB cycles counted (R381), and the frequency in 100 MHz (R384) -/
  fab : Nat
  freq : Nat
  stopped : Bool
  /-- pending frequency change: V and the new frequency (R381) -/
  change : Option (BitVec 64 × Nat)
  restartAt : Option (BitVec 64)
  boundaryAt : Option (BitVec 64)
  /-- last cycle in which a firing of a graph began, and the length of the period from it (R214, R225) -/
  lastFire : Tab (Nat × Nat)
  /-- MODEL: firings begun, the words of the Frame Store written while others wait, with the writer's place, and the
  flags ORed into such words (R64 item 4) -/
  began : Nat
  wrote : List (Nat × Nat)
  ored : List (Nat × Nat × Nat)
  /-- decode cache of the slice: 4,096 entries by IP, each with the IP and what its read gave (R163) -/
  dcache : Tab (Nat × View)
  /-- thermal limit and governor counters (R384, R385) -/
  therm : Nat
  thermOk : Nat
  clampSince : Option Nat
  clampDone : Bool
deriving DecidableEq, Repr

def Die.reset : Die :=
  { up := false, arr := [], disp := [], firing := [], isdRet := [], isdFresh := 0, isdTotal := 0, building := false, buildFrom := 0,
    bump := 32768, freeHead := 0, walks := [], waitq := [], regionFull := false, regionSince := none, occ := 0,
    hwm := 0, chainUsed := 0, ovfSets := 0, sweeping := false, wbuf := [], held := [], lifts := [], liftMsgs := [],
    level := 0, pkgLevel := 0, figs := [0, 0, 0], floorSince := List.replicate 8 none,
    floorDone := List.replicate 8 false, fab := 0, freq := 0, stopped := false, change := none, restartAt := none,
    boundaryAt := none, lastFire := [], began := 0, wrote := [], ored := [], dcache := [], therm := 22, thermOk := 0, clampSince := none, clampDone := false }

/-- A code block of a loaded image (R72). -/
structure Block where
  entry : Nat
  len : Nat
  pool : Nat
  poolLen : Nat
  frame : Nat
deriving DecidableEq, Repr

/-- The states of a graph handle (R68). -/
inductive GState where
  | free | loaded | running | parked | frozen | aborting
deriving DecidableEq, Repr

/-- A procedure running on a graph, waiting for firings in progress to end (R219, R362), with the Deadlock Report it
will write (empty: none). -/
inductive GProc where
  | none
  | park (report : List Byte)
  | abort (unload : Bool) (report : List Byte)
deriving DecidableEq, Repr

/-- A PARK is in progress. -/
def GProc.isPark : GProc → Bool
  | .park _ => true
  | _ => false

/-- A graph handle (R68-R72, R121, R220). -/
structure Graph where
  state : GState
  active : Nat
  base : Nat
  slots : Nat
  blocks : List Block
  ceil : Nat
  owner : Nat
  proc : GProc
  /-- park area: words used, record counts (frame, entry, item), and whether the area is closed full (R220) -/
  parkUsed : Nat
  parkCnt : List Nat
  parkTb : Nat
  parkFull : Bool
  /-- a procedure that has moved contexts and items and goes on with its entries: its counts so far (R219, R362) -/
  moved : Option (List Nat)
  /-- cycle counts of the dies when the graph last entered RUNNING (R214) -/
  since : List (Nat × Nat)
deriving DecidableEq, Repr

/-- A PARK of the graph is in progress (R219). -/
def Graph.parking (g : Graph) : Bool := g.proc.isPark

def Graph.reset : Graph :=
  { state := .free, active := 0, base := 0, slots := 0, blocks := [], ceil := 0, owner := 0, proc := .none,
    parkUsed := 0, parkCnt := [0, 0, 0], parkTb := 0, parkFull := false, moved := none, since := [] }

/-- A memory bank (R226-R230, R239, R240). Codes: 0 On, 1 Retention, 2 Off, 3 Waking. -/
structure Bank where
  state : Nat
  req : Nat
  autoWake : Bool
  /-- state that a transition in progress reaches, and a request held while Waking (R228) -/
  target : Option Nat
  fuseUsed : Nat
  fieldUsed : Nat
  skipped : Bool
  /-- columns repaired in this start -/
  cols : List Nat
deriving DecidableEq, Repr

def Bank.reset : Bank :=
  { state := 2, req := 0, autoWake := true, target := none, fuseUsed := 0, fieldUsed := 0, skipped := false, cols := [] }

/-- A latch (R243). -/
structure Latch where
  held : Bool
  req : Nat
  cid : BitVec 24
  graph : BitVec 8
  abandoned : Bool
  wcls : BitVec 3
  waiter : Bool
  parOk : Bool
  /-- lift it has caused (R247) -/
  lifted : Option (BitVec 3)
deriving DecidableEq, Repr

def Latch.free : Latch :=
  { held := false, req := 0, cid := 0, graph := 0, abandoned := false, wcls := 0, waiter := false, parOk := true,
    lifted := none }

/-- A request of a firing to a Bedrock unit (R104, R125, R205). -/
inductive UnitReq where
  | acquire (die : Nat) (id : Nat) (latch : Nat) (cid : BitVec 24) (graph : BitVec 8) (cls : BitVec 3)
  | release (die : Nat) (id : Nat) (latch : Nat)
  | reserve (die : Nat) (id : Nat) (graph : Nat)
  | unreserve (graph : Nat)
deriving DecidableEq, Repr

/-- A burst that holds a buffer (R262): its number; its source words, below the first that is in error, once they are
read; and how many of them have been presented to their destination. -/
structure Burst where
  k : Nat
  words : Option (List PWord)
  at_ : Nat
deriving DecidableEq, Repr

/-- A Block Mover channel (R253-R273). -/
structure Chan where
  active : Bool
  stopping : Option Bool
  /-- started by a doorbell (true) or by BMV_START with its reply to come -/
  byList : Bool
  desc : List Byte
  /-- descriptor running (a list entry may still be on its way) -/
  running : Bool
  starter : Nat
  /-- bursts that hold a buffer, oldest first (R262) -/
  bursts : List Burst
  granted : Nat
  /-- words whose writes have been issued (R262, R272) -/
  doneWords : Nat
  err : Option (Nat × Nat)
  poisonAny : Bool
  poisonFirst : Option Nat
  entry : Nat
  count : Nat
  /-- next list entry, read and checked ahead: the entry status that its read or its checks give (0: it can run), and its
  bytes (R260, R261) -/
  ahead : Option (Nat × List Byte)
  last : Nat
deriving DecidableEq, Repr

def Chan.reset : Chan :=
  { active := false, stopping := none, byList := false, desc := [], running := false, starter := 0, bursts := [],
    granted := 0, doneWords := 0, err := none, poisonAny := false, poisonFirst := none, entry := 0, count := 0,
    ahead := none, last := 0 }

/-- A frame that waits for its slot (R29, R287, R298): its rank in the transmitter's order, the first time at which it may
leave in 1/64 ns, its bytes, and for a replay its number. -/
structure TxFrame where
  rank : Nat
  ready : Nat
  body : Nat
  num : Option (BitVec 8)
deriving DecidableEq, Repr

/-- The frame link of a port or of a Twikel link, both directions of one end (R28, R287). Its times are values of the
timebase in 1/64 ns. -/
structure FrameLink where
  /-- training: lanes' valid sync headers in a row, TS1 counts and TS2 counts, failure seen, start edge, restart edge -/
  sync : List Nat
  ts1 : List Nat
  ts2 : List Nat
  lanes : List (Option Nat)
  inverted : Nat
  reversed : Bool
  grant : Nat
  trainStart : Nat
  failedAt : Option Nat
  ts2Start : Option Nat
  /-- sender: next number, unacknowledged frames with their numbers, frames that wait for a slot in the order in which they
  were offered, and the first slot that no frame has taken -/
  nextSeq : BitVec 8
  replay : List (BitVec 8 × Nat)
  tx : List TxFrame
  free : Nat
  /-- receiver: next expected number, last good frame seen, discarding, retries in a row and when the last was sent, ack
  owed and since when -/
  expect : BitVec 8
  any : Bool
  discarding : Bool
  retries : Nat
  retryAt : Nat
  owesAck : Bool
  ackAt : Nat
deriving DecidableEq, Repr

def FrameLink.reset : FrameLink :=
  { sync := [], ts1 := [], ts2 := [], lanes := [], inverted := 0, reversed := false, grant := 0, trainStart := 0,
    failedAt := none, ts2Start := none, nextSeq := 0, replay := [], tx := [], free := 0, expect := 0,
    any := false, discarding := false, retries := 0, retryAt := 0, owesAck := false, ackAt := 0 }

/-- A Twikel link (R25-R33). -/
structure Twk where
  up : Bool
  training : Bool
  fl : FrameLink
  /-- credits held per class, transmit buffers, receive buffers, credits pending return per class, and when the oldest
  pending one arose in 1/64 ns (R29) -/
  credits : List Nat
  txBuf : List (List (Token × Nat))
  rxBuf : List (List (Token × Nat))
  owed : List Nat
  owedAt : Nat
  peerEpoch : BitVec 48
  peerValid : Bool
  checks : List (Nat × BitVec 64 × BitVec 48)
  peerVer : BitVec 24
  peerFloor : BitVec 24
  verValid : Bool
  compat : Bool
deriving DecidableEq, Repr

def Twk.reset : Twk :=
  { up := false, training := false, fl := FrameLink.reset,
    credits := List.replicate 8 0, txBuf := List.replicate 8 [], rxBuf := List.replicate 8 [],
    owed := List.replicate 8 0, owedAt := 0, peerEpoch := 0, peerValid := false, checks := [],
    peerVer := 0, peerFloor := 0, verValid := false, compat := false }

/-- The states of a port (R294). -/
inductive PState where
  | disabled | training | idle | armed | running
deriving DecidableEq, Repr

/-- The run of a port (R292, R296-R304). Times are in units of 1/64 ns (R279). -/
structure Run where
  base : Nat
  next : Nat
  endCount : Nat
  prefill : Nat
  trigger : Nat
  trigT : Nat
  /-- S0 once fixed; CONTROL START then waits for slot S0 - 1 -/
  s0 : Option Nat
  ticks : Nat
  /-- ticks left of the reserved burst -/
  burstLeft : Nat
  creditWait : Bool
  waitSlots : Nat
  holding : Bool
  consec : Nat
  under : Nat
  released : Nat
  underRecorded : Bool
  last : Option (Nat × List Word)
  /-- boundary instant whose boundary tick is still to come (R303) -/
  boundary : Option Nat
  /-- requested end: 2 STOP or 3 HOST, with the first permitted instant -/
  stop : Option (Nat × Nat)
  /-- a presence clear is running, the CK_TB edge at which it ends, and that the port has left IDLE (R293, R296) -/
  clearing : Bool
  clearEnd : Nat
  clearLost : Bool
deriving DecidableEq, Repr

def Run.reset : Run :=
  { base := 0, next := 0, endCount := 0, prefill := 0, trigger := 0, trigT := 0, s0 := none,
    ticks := 0, burstLeft := 0, creditWait := false, waitSlots := 0, holding := false, consec := 0, under := 0,
    released := 0, underRecorded := false, last := none, boundary := none, stop := none, clearing := false, clearEnd := 0,
    clearLost := false }

/-- A Pattern/Fail Port (chapter 11). -/
structure Port where
  state : PState
  fl : FrameLink
  run : Run
  endReason : Nat
  /-- presence of window words: slot x 4 + word, with 1 more than the timebase of the write (R292, R293, R299) -/
  present : Tab Nat
  avail : Int
  /-- fail credits the far end holds, credits pending, and when the oldest pending one arose in 1/64 ns (R290); the
  receive buffer is the inbox of the port's queue -/
  farCredits : Nat
  owed : Nat
  owedAt : Nat
  /-- record sequence number, and the record being consumed: words seen and decision (R305-R307) -/
  recSeq : Nat
  recWords : List PWord
  /-- decided record: delivered with the handler registers, or discarded -/
  decided : Option (Option (Nat × Nat × Nat))
  sentWords : Nat
  s0Time : Nat
  ticksShown : Nat
deriving DecidableEq, Repr

def Port.reset : Port :=
  { state := .disabled, fl := FrameLink.reset, run := Run.reset, endReason := 0, present := [], avail := 0,
    farCredits := 0, owed := 0, owedAt := 0, recSeq := 0, recWords := [], decided := none, sentWords := 0, s0Time := 0,
    ticksShown := 0 }

/-- A command packet that the Command Engine holds (R347, R356). -/
structure Cmd where
  id : Nat
  qp : Nat
  fn : Nat
  pkt : BitVec 512
  /-- timebase when it began (R357 NOP) -/
  beganAt : BitVec 64
  /-- result words decided before the reply is due -/
  res : List Nat
  /-- its pair has been disabled since: no reply is sent (R349) -/
  mute : Bool
deriving DecidableEq, Repr

/-- A running ORPHAN_SWEEP: its command, its place (die x 262,144 + set), the entries found, and the records listed
(R177-R179). -/
structure Sweep where
  cmd : Cmd
  pos : Nat
  found : Nat
  listed : List Byte
deriving DecidableEq, Repr

/-- A queue pair's ring state (R345-R349); the ring registers themselves stand in the register file. -/
structure Qp where
  head : Nat
  tail : Nat
  cqTail : Nat
  cqHead : Nat
  phase : Bool
  /-- MODEL: the ring writer still holds replies of a write that a full ring stopped (R348) -/
  writing : Bool
  /-- pending commands that the newest ring read covers and the engine has not taken (R347) -/
  ahead : Nat
deriving DecidableEq, Repr

def Qp.reset : Qp :=
  { head := 0, tail := 0, cqTail := 0, cqHead := 0, phase := true, writing := false, ahead := 0 }

/-- The Command Engine (R347, R356, R321). -/
structure Engine where
  /-- commands begun whose effect is the next command row of their opcode -/
  begun : List Cmd
  /-- commands held for a boundary, and those whose boundary has come (R356, R375) -/
  deferred : List Cmd
  due : List Cmd
  /-- commands begun whose reply is still to come -/
  open_ : List Cmd
  nextId : Nat
  /-- last pair visited (R347), and pairs whose next command is read and waits for its FENCE -/
  cmdRr : Nat
  fenceWait : List Nat
  injRr : Nat
  /-- host-injection credits per class (R212) -/
  injCr : List Int
  deferAt : Option (BitVec 64)
deriving DecidableEq, Repr

def Engine.reset : Engine :=
  { begun := [], deferred := [], due := [], open_ := [], nextId := 0, cmdRr := 63, fenceWait := [], injRr := 63,
    injCr := List.replicate 8 1024, deferAt := none }

/-- A Seal Port request (R313), with the command it serves. -/
structure SealReq where
  ty : Nat
  cmd : Option Cmd
  body : List Byte
  /-- CK_TB edge at which its command began, for the timeout of R314 -/
  since : Nat
  /-- send time of KAO_MEASURE (R318) -/
  sendAt : BitVec 64
deriving DecidableEq, Repr

/-- A measurement that Kaolin holds (R319-R321). -/
structure KRun where
  params : List Byte
  cmd : Option Cmd
  /-- Bedrock timebase at which the Command Engine sent the request (R322) -/
  sentTb : BitVec 64
  started : Bool
  startMec : BitVec 32
  startCal : BitVec 32
  /-- the coefficients of the bank that is active when it starts (R333); empty for those of manufacture -/
  coefs : List Byte
  uncal : Bool
  /-- start edge of the running sample: exact time with correction in 1/2048 fs, raw time in the same unit -/
  startEdge : Option (Int × Nat)
  stops : Nat
  /-- DC conversions seen, the first five of which are discarded (R315) -/
  conv : Nat
  /-- raw time at which the running sample begins (R319) -/
  sampleFrom : Nat
  /-- completed samples, exact: in 1/(2048 · 10⁹) fs for TDC types, in 1/(2²³ · 10⁹) pV for DC -/
  samples : List Int
  refFault : Bool
  /-- ended with this status, waiting for ring space (R321) -/
  ended : Option Nat
deriving DecidableEq, Repr

/-- A signature block to be made (R324): the last record it covers, H of that record, whether SIGN asked for it, and once
its signing has begun the message M. -/
structure SigBlock where
  n : Nat
  head : List Byte
  bySign : Bool
  msg : Option (List Byte)
deriving DecidableEq, Repr

/-- The parts of Kaolin's commit word that name an event (R333): the MEC after a calibration write, its kind and digest. -/
structure CommitWord where
  mec : BitVec 32
  kind : Nat
  digest : List Byte
deriving DecidableEq, Repr

/-- Kaolin (chapter 12). -/
structure Kao where
  rstLow : Bool
  ready : Bool
  refOk : Bool
  kref100 : Bool
  starts : BitVec 32
  /-- requests held: those not ended in arrival order, then those ended and uncommitted in the order of their ends -/
  held : List KRun
  seqNext : Nat
  oldest : Nat
  cmrs : Tab (List Byte)
  /-- H of the newest record; empty for H(−1) -/
  chain : List Byte
  blocks : List (List Byte)
  /-- signature blocks to be made, the one in progress first (R324) -/
  signing : List SigBlock
  /-- SIGN requests that wait for a block that covers this sequence number -/
  signCmd : List (Nat × Cmd)
  /-- audit entries after those of manufacture -/
  audit : List (List Byte)
  /-- A of the newest entry; empty for that of manufacture -/
  auditChain : List Byte
  mec : BitVec 32
  calId : BitVec 32
  /-- banks A and B; empty for the body of manufacture -/
  bankA : List Byte
  bankB : List Byte
  active : Bool
  /-- digest of the active bank in the commit word; empty for that of manufacture -/
  bankDigest : List Byte
  /-- what else the commit word holds (R333); none for that of manufacture -/
  word : Option CommitWord
  uncal : Bool
  overflow : Bool
  dropped : BitVec 32
  refusals : BitVec 32
  /-- the calibration authority key; empty for that of manufacture -/
  authKey : List Byte
  sealClosed : Bool
  /-- calibration write in progress: the image received so far -/
  cal : Option (List Byte)
  /-- last timestamped edge per TDC channel, raw time in 1/2048 fs, plus one (R315 dead time) -/
  lastEdge : Tab Nat
  /-- Kaolin time: ns since its last start, counted on KREF (R322) -/
  ns : Nat
  /-- counter of the free values of signatures (MODEL) -/
  rnd : Nat
deriving DecidableEq, Repr

/-- Kaolin as manufactured (R322, R330, R333): MEC 2, calibration ID 1, no record. (DESIGN CHOICE, log entry 2) -/
def Kao.reset : Kao :=
  { rstLow := true, ready := false, refOk := false, kref100 := false, starts := 0, held := [],
    seqNext := 0, oldest := 0, cmrs := [], chain := [], blocks := [], signing := [],
    signCmd := [], audit := [], auditChain := [], mec := 2, calId := 1, bankA := [], bankB := [],
    active := false, bankDigest := [], word := none, uncal := false, overflow := false, dropped := 0, refusals := 0, authKey := [],
    sealClosed := true, cal := none, lastEdge := [], ns := 0, rnd := 0 }

/-- The Bedrock end of the Seal Port (R313, R314, R321, R336). -/
structure SealEnd where
  up : Bool
  /-- requests the Command Engine holds, oldest first -/
  waitingR : List SealReq
  /-- requests on the port -/
  sent : List SealReq
  /-- what Kaolin reported last: ready, seal_closed, kref_locked, uncalibrated, trail_overflow (R336) -/
  rep : BitVec 5
  /-- the MEC that Kaolin reported last (R342) -/
  repMec : Option (BitVec 32)
deriving DecidableEq, Repr

def SealEnd.reset : SealEnd := { up := false, waitingR := [], sent := [], rep := 0, repMec := none }

/-- An error as a unit raises it (R388-R393): what the record will hold, before its place in the queue is decided. -/
structure Raise where
  sev : Nat
  kind : Nat
  src : Nat
  off : Nat
  lsb : Nat
  graph : Nat
  fn : Nat
  d0 : Nat
  d1 : Nat
  tb : BitVec 64
deriving DecidableEq, Repr

/-- A queued error record (R391). -/
structure ErrRec where
  r : Raise
  esc : Bool
  prior : Nat
  seq : BitVec 16
deriving DecidableEq, Repr

/-- The Error Record Queue (R394, R405). -/
structure Erq where
  slots : Tab ErrRec
  rd : BitVec 8
  wr : BitVec 8
  pending : Nat
  seq : BitVec 16
  started : Bool
  heldR : List Raise
deriving DecidableEq, Repr

def Erq.reset : Erq :=
  { slots := [], rd := 0, wr := 0, pending := 0, seq := 0, started := false, heldR := [] }

/-- An event log entry (R409). -/
structure LogEntry where
  tb : BitVec 64
  num : BitVec 32
  ty : Nat
  start : BitVec 24
  payload : List Byte
deriving DecidableEq, Repr

/-- Clocks, timebase and epoch (R370-R377). (DESIGN CHOICE, log entry 6) -/
structure Clk where
  run : Bool
  tb : BitVec 64
  edges : Nat
  epoch : BitVec 48
  last : BitVec 64
  /-- the CK_TB edge of the last boundary's instant (R374) -/
  lastEdge : Nat
  anyB : Bool
  src : BitVec 3
  sched : Option (BitVec 64)
  /-- a timebase load has jumped over the pending value, so no value of this timebase reaches it (R371) -/
  jumped : Bool
  loadAt : Option (BitVec 64)
  /-- instants of EPOCH_IN edges that are still to come, oldest first (R373) -/
  pins : List (BitVec 64)
  /-- EPOCH_OUT is high until this CK_TB edge (R377) -/
  outHigh : Bool
  outFall : Nat
  /-- MODEL: instants and epoch numbers of the last 32 boundaries, newest first (R32) -/
  recent : List (BitVec 64 × BitVec 48)
deriving DecidableEq, Repr

def Clk.reset : Clk :=
  { run := false, tb := 0, edges := 0, epoch := 0, last := 0, lastEdge := 0, anyB := false, src := 0, sched := none,
    jumped := false, loadAt := none, pins := [], outHigh := false, outFall := 0, recent := [] }

/-- Governor and sensors (R384, R385, R408). -/
structure Gov where
  cur : Nat
  cap : Nat
  curOk : Nat
  capOk : Nat
  vin : Nat
  iin : Nat
  /-- package power averaged over 10 us, in watts (sensor 25) -/
  pkgW : Nat
  /-- diode readings in 1/8 degree and faults -/
  temps : Tab Int
  faults : Nat
  volts : Tab Nat
  currents : Tab Nat
  /-- PLDM sensors: state (0 normal, 1 warning, 2 critical) plus 4 times the state before it (R412) -/
  events : Tab Nat
deriving DecidableEq, Repr

def Gov.reset : Gov :=
  { cur := 22, cap := 22, curOk := 0, capOk := 0, vin := 0, iin := 0, pkgW := 0, temps := [], faults := 0, volts := [],
    currents := [], events := [] }

/-- A power domain (R382, R383): 0 off, 1 on, 2 waking, 3 switching off; and its request. -/
structure Dom where
  state : Nat
  req : Bool
deriving DecidableEq, Repr

def Dom.reset : Dom := { state := 0, req := true }

/-- A ledger entry (R401). -/
structure LedgerEntry where
  number : BitVec 32
  cause : Nat
  outcome : Nat
  consec : Nat
  flags : Nat
  steps : List Nat
  dieFen : Nat
  dieFail : Nat
  ringFen : Nat
  ringFail : Nat
  ddrFen : Nat
  ddrFail : Nat
  grpFen : Nat
  grpFail : Nat
  twkFen : Nat
  twkFail : Nat
  cons : Nat
  hubFail : Nat
  firstFail : Nat
  tb : BitVec 64
  blend : Nat
  post : Nat
deriving DecidableEq, Repr

/-- The start sequence and its ledger (R396-R406, R433, R434). -/
structure Start where
  state : Nat
  step : Nat
  degraded : Bool
  number : BitVec 32
  /-- cause of a start that is about to begin -/
  due : Option Nat
  retry : Bool
  /-- fenced or failed at this start (FENCE_STATUS), and the ring links of down dies (R43) -/
  dies : Nat
  ddr : Nat
  groups : Nat
  twikel : Nat
  ring : Nat
  /-- newest first; entries after a clear marker count for R398 -/
  ledger : List LedgerEntry
  cleared : Bool
  sinceClear : Nat
  vin : Bool
  vio : Bool
  vstby : Bool
  perstHigh : Bool
  poweredOn : Bool
  tripped : Bool
  faultLow : Bool
  /-- installed DDR (R37): active channels and capacity in bytes -/
  active : List Nat
  capacity : Nat
deriving DecidableEq, Repr

def Start.reset : Start :=
  { state := 0, step := 1, degraded := false, number := 0, due := none, retry := false, dies := 0, ddr := 0,
    groups := 0, twikel := 0, ring := 0, ledger := [], cleared := false, sinceClear := 0, vin := false, vio := false,
    vstby := false, perstHigh := false, poweredOn := false, tripped := false, faultLow := false, active := [],
    capacity := 0 }

/-- A record of REG_DEFAULTS or of a PSS copy (R416, R425). -/
structure RegRec where
  off : Nat
  lsb : Nat
  width : Nat
  value : Nat
deriving DecidableEq, Repr

/-- A Blend slot (R414-R418). `written`: by a completed stage or at manufacture; `verified` with the version and rollback
index recorded then. -/
structure BSlot where
  written : Bool
  factory : Bool
  image : List Byte
  verified : Bool
  version : BitVec 24
  rollback : Nat
deriving DecidableEq, Repr

/-- A Persistent Settings Store copy (R425). -/
inductive PssCopy where
  | zero
  | bad
  | good (schema : Nat) (seq : Nat) (recs : List RegRec)
deriving DecidableEq, Repr

/-- Blends and the Persistent Settings Store (R414-R429). -/
structure Blend where
  slots : List BSlot
  active : Nat
  /-- slot the selector in force names, its sequence number, and whether a write of it is due -/
  selSlot : Nat
  selSeq : Nat
  selDue : Bool
  pss0 : PssCopy
  pss1 : PssCopy
  settingsFb : Bool
  slotFb : Bool
  /-- pending activation: basis, settings outcome, value -/
  act : Option (Nat × Nat × BitVec 64)
  /-- settings outcome of the activation whose store read runs -/
  reading : Option Nat
  /-- pending revert: the first instant it may take -/
  revert : Option (BitVec 64)
  lastAct : Nat
  counter : Nat
  burning : Option Nat
  /-- records ignored at the last read of the store (R427) -/
  ignored : Nat
deriving DecidableEq, Repr

/-- Blend stores as manufactured: slot A active with the factory Blend (DESIGN CHOICE, log entry 2). (DESIGN
CHOICE, log entry 21) -/
def Blend.reset : Blend :=
  { slots := [{ written := true, factory := true, image := [], verified := true, version := 0, rollback := 0 },
              { written := false, factory := false, image := [], verified := false, version := 0, rollback := 0 }],
    active := 0, selSlot := 0, selSeq := 0, selDue := false, pss0 := .zero, pss1 := .zero, settingsFb := false,
    slotFb := false, act := none, reading := none, revert := none, lastAct := 0, counter := 0, burning := none,
    ignored := 0 }

/-- Out-of-band endpoint (R411, R412). (DESIGN CHOICE, log entry 2) -/
structure Oob where
  i3c : Bool
  addr : Nat
  eid : BitVec 8
  receiver : Option (BitVec 8)
deriving DecidableEq, Repr

/-- DOE and SPDM responder (R342). -/
structure Spdm where
  versioned : Bool
  capable : Bool
  negotiated : Bool
  /-- counter of the free values: nonces and signatures (MODEL) -/
  rnd : Nat
deriving DecidableEq, Repr

def Oob.reset : Oob := { i3c := false, addr := 0, eid := 0, receiver := none }
def Spdm.reset : Spdm := { versioned := false, capable := false, negotiated := false, rnd := 0 }

/-- MSI-X vectors of all functions (R340), keyed fn x 2,048 + vector: unmasked and pending; and the first three
doublewords of each entry of the tables (R338, R451), keyed (fn x 2,048 + vector) x 4 + doubleword. (DESIGN
CHOICE, log entry 52) (PRESUMED, log entry 54) -/
structure Msix where
  unmasked : Tab Bool
  pba : Tab Bool
  table : Tab (BitVec 32)
deriving DecidableEq, Repr

/-- What leaves the package (MODEL): newest last. (DESIGN CHOICE, log entry 10) (DESIGN CHOICE, log entry 55) -/
inductive Out where
  /-- a write to, and a read of, host memory under a function's requester ID (R236, R237, R259, R261) -/
  | hostWrite (addr : Nat) (data : List Byte) (noSnoop : Bool) (fn : Nat)
  | hostRead (addr len : Nat) (noSnoop : Bool) (fn : Nat)
  | msix (fn vec : Nat)
  | aer (detail : Nat)
  | pfpFrame (port : Nat) (frame : Nat) (time : Nat)
  | twkFrame (tw : Nat) (frame : Nat) (time : Nat)
  /-- the training blocks that the lanes of a port or of a Twikel link send from now on, before scrambling (R26, R277,
  R278) -/
  | pfpTrain (port : Nat) (blocks : List Nat)
  | twkTrain (tw : Nat) (blocks : List Nat)
  | regData (v : BitVec 32)
  | bar2Data (data : List Byte) (ep : Bool)
  | doe (resp : List Byte)
  | mctp (eid : BitVec 8) (resp : List Byte)
  | pin (name : String) (level : Bool)
deriving DecidableEq, Repr

/-- What configuration space holds beyond its fixed values (R338, R339): the codes of the programmed Max_Payload_Size and
Max_Read_Request_Size, 128 x 2^code bytes, and the base addresses written, by function x 4,096 + offset. (PRESUMED, log
entry 64) -/
structure Pci where
  mps : BitVec 3
  mrrs : BitVec 3
  bars : Tab (BitVec 32)
  /-- lanes and generation of the trained link (R337); 0 while none is trained -/
  width : Nat
  gen : Nat
deriving DecidableEq, Repr

def Pci.reset : Pci := { mps := 0, mrrs := 2, bars := [], width := 0, gen := 0 }

/-- A pending Boundary shadow of a register: value and mask of the fields written (R12). -/
structure Shadow where
  val : BitVec 32
  mask : BitVec 32
deriving DecidableEq, Repr

/-- The block. -/
structure State where
  /-- commands that wait, first in, first out -/
  pending : List Instr
  clk : Clk
  /-- global words: DDR, Frame Stores, Global Scratch, Pour windows (R34) -/
  mem : Tab PWord
  /-- stored register fields by PF BAR0 offset; an unlisted register holds its reset value (R7, R454) -/
  regs : Tab (BitVec 32)
  shadows : Tab Shadow
  /-- time-window captures per requester: timebase [63:36] and epoch [47:36] (R35) -/
  capture : Tab (Nat × Nat)
  dies : List Die
  pes : Tab Pe
  lanes : Tab Lane
  sets : Tab MsSet
  istore : Tab Slot
  graphs : Tab Graph
  /-- the ORPHAN_SWEEP that runs (R179) -/
  sweep : Option Sweep
  queues : Tab Silt
  links : List Link
  dirs : List LinkDir
  banks : Tab Bank
  latches : Tab Latch
  units : List UnitReq
  nextUnit : Nat
  chans : List Chan
  /-- last channel granted per priority level (R263) -/
  lastGrant : List Nat
  ports : List Port
  tws : List Twk
  qps : Tab Qp
  ce : Engine
  kao : Kao
  sealPort : SealEnd
  erq : Erq
  log : Tab LogEntry
  logNext : BitVec 32
  gov : Gov
  doms : Tab Dom
  start : Start
  blend : Blend
  /-- field repair records: bank, column, sequence, timebase (R241) -/
  repairs : List (Nat × Nat × Nat × Nat)
  oob : Oob
  spdm : Spdm
  msix : Msix
  cfg : Pci
  d3hot : Bool
  pcieUp : Bool
  /-- package level (R207), its applied instant is per die -/
  pkgLevel : Nat
  rptSeq : BitVec 32
  /-- ID_CFG_REJECT per view: 0 the PF, v the VFv (R457) -/
  cfgReject : Tab Nat
  /-- storage-deadlock victims chosen per region (R215): region key, cycle of the last choice and the length of the period from it -/
  victims : Tab (Nat × Nat)
  /-- MODEL: errors raised within the step, queued when it ends (R393) -/
  raised : List Raise
  /-- MODEL: what left the package -/
  outbox : List Out
  /-- MODEL: counter of the free values drawn -/
  draws : Nat
deriving DecidableEq, Repr

/-- The block before its first start (DESIGN CHOICE, log entry 1): no supply good, no die up, every store empty; Preserved stores as
manufactured. Registers stand at the reset values of their tables (an unlisted register reads its table's value). -/
def State.reset : State :=
  { pending := [], clk := Clk.reset, mem := [], regs := [], shadows := [], capture := [],
    dies := List.replicate 6 Die.reset, pes := [], lanes := [], sets := [], istore := [], graphs := [], sweep := none, queues := [],
    links := List.replicate 12 Link.reset, dirs := List.replicate 24 LinkDir.reset, banks := [], latches := [],
    units := [], nextUnit := 0, chans := List.replicate 32 Chan.reset, lastGrant := List.replicate 8 31,
    ports := List.replicate 16 Port.reset, tws := List.replicate 2 Twk.reset, qps := [], ce := Engine.reset,
    kao := Kao.reset, sealPort := SealEnd.reset, erq := Erq.reset, log := [], logNext := 0, gov := Gov.reset,
    doms := [], start := Start.reset, blend := Blend.reset, repairs := [], oob := Oob.reset, spdm := Spdm.reset,
    msix := { unmasked := [], pba := [], table := [] }, cfg := Pci.reset, d3hot := false, pcieUp := false, pkgLevel := 0, rptSeq := 0, cfgReject := [],
    victims := [], raised := [], outbox := [], draws := 0 }

end Sys2Proof.Machine
end

