-- ==== Sys2Proof/Machine/Flit.lean ====
section
/-! DEFINITION. D2D flits (R18, R19): field layout, checks of reserved bits, and the CRC. -/

namespace Sys2Proof.Machine

/-- The bytes 0-13 of a flit. -/
def flitBody (f : Nat) : List Byte := leBytes 14 f

/-- A flit from its bits [111:0], with the CRC in bytes 14-15 (R19). -/
def mkFlit (body : Nat) : BitVec 128 :=
  BitVec.ofNat 128 (body % 2 ^ 112 + crc16 (flitBody body) * 2 ^ 112)

/-- The CRC is good (R19). -/
def flitOk (f : BitVec 128) : Bool := fieldOf f 112 16 == crc16 (flitBody f.toNat)

/-- FTYPE, DEST, and the source die of memory and POUR_WORD flits. -/
def flitType (f : BitVec 128) : Nat := fieldOf f 0 4
def flitDest (f : BitVec 128) : Nat := fieldOf f 8 3
def flitSrc (f : BitVec 128) : Nat := fieldOf f 11 3

def ftIdle : Nat := 0
def ftToken : Nat := 1
def ftRdReq : Nat := 3
def ftWr : Nat := 4
def ftRdRsp : Nat := 5
def ftCredit : Nat := 6
def ftPour : Nat := 7
def ftCtrl : Nat := 14

/-- A TOKEN flit (R18, R44). -/
def tokenFlit (t : Token) (dest : Nat) : BitVec 128 :=
  mkFlit (ftToken + t.cls.toNat * 2 ^ 4 + dest * 2 ^ 8 + t.pkg.toNat * 2 ^ 11 + t.port.toNat * 2 ^ 16 +
    t.colour.toNat * 2 ^ 18 + t.ip.toNat * 2 ^ 30 + t.cid.toNat * 2 ^ 50 + t.val.v.toNat * 2 ^ 74 +
    b2n t.val.p * 2 ^ 110)

/-- The token of a TOKEN flit. -/
def flitToken (f : BitVec 128) : Token :=
  { cid := BitVec.ofNat 24 (fieldOf f 50 24), ip := BitVec.ofNat 20 (fieldOf f 30 20),
    colour := BitVec.ofNat 12 (fieldOf f 18 12), port := BitVec.ofNat 2 (fieldOf f 16 2),
    cls := BitVec.ofNat 3 (fieldOf f 4 3), pkg := BitVec.ofNat 4 (fieldOf f 11 4),
    val := { v := BitVec.ofNat 36 (fieldOf f 74 36), p := bitOf f.toNat 110 } }

/-- A memory flit (R18): type, destination, source, address, transaction, data, error bit. -/
def memFlit (ty dest src addr txn : Nat) (w : PWord) (err : Bool) : BitVec 128 :=
  mkFlit (ty + dest * 2 ^ 8 + src * 2 ^ 11 + addr * 2 ^ 16 + txn * 2 ^ 52 + w.v.toNat * 2 ^ 74 +
    b2n w.p * 2 ^ 110 + b2n err * 2 ^ 111)

def flitAddr (f : BitVec 128) : Nat := fieldOf f 16 36
def flitTxn (f : BitVec 128) : BitVec 10 := BitVec.ofNat 10 (fieldOf f 52 10)
def flitData (f : BitVec 128) : PWord :=
  { v := BitVec.ofNat 36 (fieldOf f 74 36), p := bitOf f.toNat 110 }
def flitErr (f : BitVec 128) : Bool := bitOf f.toNat 111

/-- A POUR_WORD flit (R18, R124): port, word number, length - 1, index, word. -/
def pourFlit (src port word len1 index : Nat) (w : PWord) : BitVec 128 :=
  mkFlit (ftPour + 6 * 2 ^ 8 + src * 2 ^ 11 + port * 2 ^ 16 + word * 2 ^ 20 + len1 * 2 ^ 22 + index * 2 ^ 24 +
    w.v.toNat * 2 ^ 74 + b2n w.p * 2 ^ 110)

/-- A CREDIT flit and a LINK_CTRL flit to the die at the other end (R18). -/
def creditFlit (dest pool count : Nat) : BitVec 128 := mkFlit (ftCredit + dest * 2 ^ 8 + pool * 2 ^ 16 + count * 2 ^ 20)
def ctrlFlit (dest sub seq : Nat) : BitVec 128 := mkFlit (ftCtrl + dest * 2 ^ 8 + sub * 2 ^ 16 + seq * 2 ^ 20)

/-- The flit is numbered (R20). -/
def flitNumbered (f : BitVec 128) : Bool :=
  flitType f != ftIdle && flitType f != ftCredit && flitType f != ftCtrl

/-- The credit pool of a numbered flit (R21). -/
def flitPool (f : BitVec 128) : Nat :=
  if flitType f = ftToken then fieldOf f 4 3
  else if flitType f = ftRdRsp then 9
  else if flitType f = ftPour then 10
  else 8

/-- A reserved FTYPE or a non-zero reserved bit (R18, R19); a bit that R18 gives as zero counts as reserved (DEDUCED, log
entry 59). -/
def flitBad (f : BitVec 128) : Bool :=
  let n := f.toNat
  let nz (lo w : Nat) : Bool := bitsOf n lo w != 0
  let common := nz 7 1 || nz 15 1
  if flitType f = ftToken then common || nz 111 1 || flitDest f == 7
  else if flitType f = ftRdReq || flitType f = ftWr || flitType f = ftRdRsp then
    common || nz 4 3 || nz 14 1 || nz 62 12 || flitDest f == 7 ||
      (flitType f == ftRdReq && (nz 74 36 || nz 110 1)) || (flitType f != ftRdRsp && nz 111 1)
  else if flitType f = ftPour then common || nz 4 3 || nz 14 1 || nz 60 14 || nz 111 1 || flitDest f == 7
  else if flitType f = ftCredit then common || nz 4 3 || nz 11 4 || nz 36 76 || flitDest f == 7
  else if flitType f = ftCtrl then common || nz 4 3 || nz 11 4 || nz 29 83 || flitDest f == 7 || decide (fieldOf f 16 4 > 2)
  else if flitType f = ftIdle then nz 4 108
  else true

end Sys2Proof.Machine
end

