-- ==== Sys2Proof/Machine/RegTable.lean ====
section
/-! DEFINITION. The register map: blocks (R448), registers with their fields, access codes, classes and reset values
(the register tables of every chapter, R454), and the location of a register by its PF BAR0 offset (R449). -/

namespace Sys2Proof.Machine

/-- The registers of the register tables. -/
inductive RegId where
  | twkCtrl | twkStatus | twkErr | twkPeerEpochLo | twkPeerEpochHi | d2dLnkStatus | d2dLnkCtrl | d2dLnkErrcnt
  | fabHomeMap | fabCdtBase | fabStrayCnt | fabGraphStatus | lmFreelistBase | lmIsdBase | lmIsdCount
  | lmIsdFree | lmDbgCtrl | lmMsHashSeedLo | lmMsHashSeedHi | lmMsOcc | lmMsOccHwm | lmMsChain | lmMsOvfSets
  | lmMsFill | lmMsRegion | lmMsWalks | lmMsDup | lmMsPar | lmDispStealThr | lmDispAge | lmDispSteals
  | lmDispLost | lmDispDepth | lmDispMid | sqClsCfg | sqClsDrip | sqClsStat | sqSel | sqStatus | sqDepth
  | sqCtrl | sqDbgPopLo | sqDbgPopHi | tmpWmDie | tmpWmPkg | tmpHyst | tmpLevel | tmpClamp | tmpKbHits
  | tmpDiscard | tmpClass | tmpRptBaseLo | tmpRptBaseHi | tmpRptCtrl | tmpRptPtr | tmpGraph | tmpParkBase
  | tmpParkSize | lmQuiesceCyc | lmTmpLevel | lmBankCtrl | lmBankRep | lmBankEvt | ltbGrpRights | ltbPeekSel
  | ltbPeek | ltbWait | ltbEvt | bmvChCtrl | bmvChOwner | bmvChDlistLo | bmvChDlistHi | bmvChDbell
  | bmvChStatus | bmvChDone | bmvChBufs | bmvChPoison | bmvPool | bmvVfwinBase | bmvVfwinLimit | pfpOwner
  | pfpCfg | pfpTiming | pfpUnderrun | pfpBurst | pfpGraph | pfpHandlerLo | pfpHandlerHi | pfpState
  | pfpNextLo | pfpNextHi | pfpTicksLo | pfpTicksHi | pfpStartLo | pfpStartHi | pfpUnderCnt | pfpFailCnt
  | pfpWaits | pfpDropCnt | pfpLinkErr | pfpFailDrop | pfpEpochTrigLo | pfpEpochTrigHi | pfpVcredit
  | lmEmitDrop | kaoStatus | kaoTimeouts | qpSqBaseLo | qpSqBaseHi | qpCqBaseLo | qpCqBaseHi | qpSize
  | qpCtrl | qpSqTail | qpSqHead | qpCqTail | qpCqHead | qpStatus | hostBar2Base | hostPkgId | hostPkgRoute
  | hostRouteDrop | hostCmdCnt | hostDefer | epochCfg | epochCntLo | epochCntHi | epochLastLo | epochLastHi
  | epochStat | tbLoadLo | tbLoadHi | pwrGov | pwrFreq | pwrLimits | pwrPkgCap | pwrTherm | pwrVin | pwrClamp
  | pwrDomCtrl | pwrDomCur | erqStatus | erqRd | erqWr | erqLost | erqCtrl | erqRec | startStatus | startCtrl
  | fenceStatus | ledgerWin | mcId | mcRomSum | mcBlendStatus | mcBlendVer | mcBlendActLo | mcBlendActHi
  | mcBlendActCfg | mcRb | mcRbBurn | mcPssCtrl | mcPssStatus | mcLogNext | mcLogLost | mcPeerVer
  | mcPeerFloor | mcTemp | idHwType | idRev | idDuidLo | idDuidHi | idOrder | idPresent | idBlend | idFn
  | idDirUsed | idMapVer | idCfgReject | hmemBankCtrl | hmemBankRep | hmemBankEvt | idDir
deriving DecidableEq, Repr

/-- The access codes of R9 that the register tables use. -/
inductive Acc where
  | rw | ro | wo | w1c | rc
deriving DecidableEq, Repr

/-- The field classes of R12. -/
inductive FCls where
  | live | locked | boundary
deriving DecidableEq, Repr

/-- A field: lsb, width, access, class, and reset value (the figure of the table, or the Blend default; log entry 2
where neither is stated). -/
structure Field where
  lsb : Nat
  width : Nat
  acc : Acc
  cls : FCls
  reset : Nat
deriving DecidableEq, Repr

/-- A register of a table: block code, offset of its first index, stride between indexes, first index, number of
indexes, fields, and the mask of its refused reserved bits (R10). -/
structure RegRow where
  id : RegId
  code : Nat
  off : Nat
  stride : Nat
  first : Nat
  count : Nat
  fields : List Field
  refused : Nat
deriving DecidableEq, Repr

/-- A block of R448. -/
structure BlockRow where
  code : Nat
  base : Nat
  stride : Nat
  insts : Nat
  span : Nat
deriving DecidableEq, Repr

/-- The PF BAR0 blocks (R448). -/
def blockRows : List BlockRow := [
  ⟨1, 0x0, 0x0, 1, 0x400⟩,
  ⟨2, 0x10000, 0x0, 1, 0xC00⟩,
  ⟨3, 0x20000, 0x40, 12, 0xC⟩,
  ⟨4, 0x100000, 0x10000, 6, 0x1804⟩,
  ⟨5, 0x200000, 0x0, 1, 0x98⟩,
  ⟨6, 0x210000, 0x0, 1, 0x1000⟩,
  ⟨7, 0x220000, 0x0, 1, 0x204⟩,
  ⟨8, 0x230000, 0x0, 1, 0x110⟩,
  ⟨9, 0x240000, 0x0, 1, 0x4000⟩,
  ⟨10, 0x250000, 0x0, 1, 0x980⟩,
  ⟨11, 0x260000, 0x0, 1, 0x800⟩,
  ⟨12, 0x270000, 0x0, 1, 0x8⟩,
  ⟨13, 0x280000, 0x40, 64, 0x2C⟩,
  ⟨14, 0x290000, 0x0, 1, 0xC4⟩,
  ⟨15, 0x2A0000, 0x0, 1, 0x20⟩,
  ⟨16, 0x2B0000, 0x0, 1, 0x440⟩,
  ⟨17, 0x2C0000, 0x0, 1, 0x3000⟩,
  ⟨18, 0x2D0000, 0x0, 1, 0x500⟩,
  ⟨19, 0x2E0000, 0x0, 1, 0x158⟩]

/-- Block ID. -/
def regsId : List RegRow := [
  ⟨.idHwType, 1, 0x0, 0, 0, 1, [⟨0, 32, .ro, .live, 0x5a880001⟩], 0x0⟩,
  ⟨.idRev, 1, 0x4, 0, 0, 1, [⟨0, 8, .ro, .live, 1⟩], 0x0⟩,
  ⟨.idDuidLo, 1, 0x8, 0, 0, 1, [⟨0, 32, .ro, .live, 0⟩], 0x0⟩,
  ⟨.idDuidHi, 1, 0xC, 0, 0, 1, [⟨0, 32, .ro, .live, 0⟩], 0x0⟩,
  ⟨.idOrder, 1, 0x10, 4, 0, 3, [⟨0, 32, .ro, .live, 0⟩], 0x0⟩,
  ⟨.idPresent, 1, 0x1C, 0, 0, 1, [⟨0, 7, .ro, .live, 0⟩, ⟨7, 4, .ro, .live, 0⟩], 0x0⟩,
  ⟨.idBlend, 1, 0x20, 0, 0, 1, [⟨0, 24, .ro, .live, 0⟩, ⟨24, 1, .ro, .live, 0⟩], 0x0⟩,
  ⟨.idFn, 1, 0x24, 0, 0, 1, [⟨0, 5, .ro, .live, 0⟩, ⟨5, 6, .ro, .live, 0⟩, ⟨11, 6, .ro, .live, 0⟩], 0x0⟩,
  ⟨.idDirUsed, 1, 0x28, 0, 0, 1, [⟨0, 6, .ro, .live, 0⟩], 0x0⟩,
  ⟨.idMapVer, 1, 0x2C, 0, 0, 1, [⟨0, 16, .ro, .live, 1⟩], 0x0⟩,
  ⟨.idCfgReject, 1, 0x30, 0, 0, 1, [⟨1, 19, .w1c, .live, 0⟩], 0x0⟩,
  ⟨.idDir, 1, 0x100, 4, 0, 192, [⟨0, 32, .ro, .live, 0⟩], 0x0⟩]

/-- Block FAB. -/
def regsFab : List RegRow := [
  ⟨.fabHomeMap, 2, 0x0, 4, 0, 256, [⟨0, 3, .rw, .locked, 0⟩], 0xFFFFFFF8⟩,
  ⟨.fabCdtBase, 2, 0x400, 0, 0, 1, [⟨0, 11, .rw, .locked, 0⟩, ⟨11, 1, .rw, .locked, 0⟩], 0xFFFFF000⟩,
  ⟨.fabStrayCnt, 2, 0x408, 0, 0, 1, [⟨0, 32, .rc, .live, 0⟩], 0x0⟩,
  ⟨.fabGraphStatus, 2, 0x800, 4, 0, 256, [⟨0, 3, .ro, .live, 0⟩, ⟨3, 25, .ro, .live, 0⟩], 0x0⟩]

/-- Block D2D_LNK. -/
def regsD2dlnk : List RegRow := [
  ⟨.d2dLnkStatus, 3, 0x0, 0, 0, 1, [⟨0, 1, .ro, .live, 0⟩, ⟨1, 1, .ro, .live, 0⟩, ⟨2, 1, .ro, .live, 0⟩,
      ⟨3, 1, .w1c, .live, 0⟩, ⟨4, 9, .ro, .live, 0⟩], 0x0⟩,
  ⟨.d2dLnkCtrl, 3, 0x4, 0, 0, 1, [⟨0, 1, .rw, .locked, 0⟩, ⟨1, 1, .wo, .live, 0⟩], 0xFFFFFFFC⟩,
  ⟨.d2dLnkErrcnt, 3, 0x8, 0, 0, 1, [⟨0, 16, .rc, .live, 0⟩, ⟨16, 8, .rc, .live, 0⟩, ⟨24, 8, .rc, .live, 0⟩], 0x0⟩]

/-- Block LM. -/
def regsLm : List RegRow := [
  ⟨.lmFreelistBase, 4, 0x200, 0, 0, 1, [⟨0, 22, .rw, .locked, 0⟩], 0xFFC00000⟩,
  ⟨.lmIsdBase, 4, 0x204, 0, 0, 1, [⟨0, 23, .rw, .locked, 0⟩], 0xFF800000⟩,
  ⟨.lmIsdCount, 4, 0x208, 0, 0, 1, [⟨0, 20, .rw, .locked, 0⟩], 0xFFF00000⟩,
  ⟨.lmIsdFree, 4, 0x20C, 0, 0, 1, [⟨0, 20, .ro, .live, 0⟩, ⟨31, 1, .ro, .live, 0⟩], 0x0⟩,
  ⟨.lmDbgCtrl, 4, 0x300, 0, 0, 1, [⟨0, 1, .rw, .live, 0⟩], 0xFFFFFFFE⟩,
  ⟨.lmMsHashSeedLo, 4, 0x400, 0, 0, 1, [⟨0, 32, .rw, .locked, 0⟩], 0x0⟩,
  ⟨.lmMsHashSeedHi, 4, 0x404, 0, 0, 1, [⟨0, 32, .rw, .locked, 0⟩], 0x0⟩,
  ⟨.lmMsOcc, 4, 0x410, 0, 0, 1, [⟨0, 23, .ro, .live, 0⟩], 0x0⟩,
  ⟨.lmMsOccHwm, 4, 0x414, 0, 0, 1, [⟨0, 23, .rc, .live, 0⟩], 0x0⟩,
  ⟨.lmMsChain, 4, 0x418, 0, 0, 1, [⟨0, 26, .ro, .live, 0⟩], 0x0⟩,
  ⟨.lmMsOvfSets, 4, 0x41C, 0, 0, 1, [⟨0, 19, .ro, .live, 0⟩, ⟨31, 1, .ro, .live, 0⟩], 0x0⟩,
  ⟨.lmMsFill, 4, 0x420, 0, 0, 1, [⟨0, 11, .ro, .live, 0⟩, ⟨16, 11, .ro, .live, 0⟩, ⟨27, 1, .ro, .live, 0⟩], 0x0⟩,
  ⟨.lmMsRegion, 4, 0x424, 0, 0, 1, [⟨0, 6, .ro, .live, 0⟩], 0x0⟩,
  ⟨.lmMsWalks, 4, 0x428, 0, 0, 1, [⟨0, 32, .rc, .live, 0⟩], 0x0⟩,
  ⟨.lmMsDup, 4, 0x42C, 0, 0, 1, [⟨0, 32, .rc, .live, 0⟩], 0x0⟩,
  ⟨.lmMsPar, 4, 0x430, 0, 0, 1, [⟨0, 16, .rc, .live, 0⟩, ⟨16, 8, .rc, .live, 0⟩], 0x0⟩,
  ⟨.lmDispStealThr, 4, 0x500, 0, 0, 1, [⟨0, 13, .rw, .live, 0x100⟩], 0xFFFFE000⟩,
  ⟨.lmDispAge, 4, 0x504, 0, 0, 1, [⟨0, 24, .rw, .live, 0x10000⟩], 0xFF000000⟩,
  ⟨.lmDispSteals, 4, 0x508, 0, 0, 1, [⟨0, 32, .rc, .live, 0⟩], 0x0⟩,
  ⟨.lmDispLost, 4, 0x50C, 0, 0, 1, [⟨0, 32, .rc, .live, 0⟩], 0x0⟩,
  ⟨.lmDispDepth, 4, 0x600, 4, 0, 64, [⟨0, 13, .ro, .live, 0⟩, ⟨13, 8, .ro, .live, 0⟩], 0x0⟩,
  ⟨.lmDispMid, 4, 0x700, 4, 0, 64, [⟨0, 19, .ro, .live, 0⟩], 0x0⟩,
  ⟨.lmQuiesceCyc, 4, 0x800, 0, 0, 1, [⟨0, 32, .rw, .live, 0x100000⟩], 0x0⟩,
  ⟨.lmTmpLevel, 4, 0x804, 0, 0, 1, [⟨0, 3, .ro, .live, 0⟩, ⟨3, 3, .ro, .live, 0⟩, ⟨6, 8, .ro, .live, 0⟩], 0x0⟩,
  ⟨.lmBankCtrl, 4, 0x1000, 4, 0, 144, [⟨0, 2, .rw, .live, 0⟩, ⟨2, 1, .rw, .live, 1⟩,
      ⟨3, 2, .ro, .live, 2⟩], 0xFFFFFFE0⟩,
  ⟨.lmBankRep, 4, 0x1400, 4, 0, 144, [⟨0, 8, .ro, .live, 0⟩, ⟨8, 8, .ro, .live, 0⟩, ⟨16, 1, .ro, .live, 0⟩], 0x0⟩,
  ⟨.lmBankEvt, 4, 0x1800, 0, 0, 1, [⟨0, 16, .rc, .live, 0⟩, ⟨16, 16, .rc, .live, 0⟩], 0x0⟩,
  ⟨.lmEmitDrop, 4, 0x900, 0, 0, 1, [⟨0, 32, .rc, .live, 0⟩], 0x0⟩]

/-- Block SQ. -/
def regsSq : List RegRow := [
  ⟨.sqClsCfg, 5, 0x0, 4, 0, 5, [⟨0, 6, .rw, .locked, 0⟩, ⟨6, 2, .rw, .live, 0⟩,
      ⟨8, 11, .rw, .live, 0⟩], 0xFFF80000⟩,
  ⟨.sqClsDrip, 5, 0x20, 4, 0, 5, [⟨0, 32, .rw, .live, 0⟩], 0x0⟩,
  ⟨.sqClsStat, 5, 0x40, 4, 0, 5, [⟨0, 8, .rc, .live, 0⟩, ⟨8, 8, .rc, .live, 0⟩, ⟨16, 8, .rc, .live, 0⟩,
      ⟨24, 8, .rc, .live, 0⟩], 0x0⟩,
  ⟨.sqSel, 5, 0x80, 0, 0, 1, [⟨0, 13, .rw, .live, 0⟩], 0xFFFFE000⟩,
  ⟨.sqStatus, 5, 0x84, 0, 0, 1, [⟨0, 1, .ro, .live, 1⟩, ⟨1, 1, .w1c, .live, 0⟩, ⟨2, 1, .ro, .live, 0⟩,
      ⟨3, 1, .ro, .live, 0⟩, ⟨4, 1, .ro, .live, 0⟩, ⟨5, 1, .ro, .live, 0⟩], 0x0⟩,
  ⟨.sqDepth, 5, 0x88, 0, 0, 1, [⟨0, 23, .ro, .live, 0⟩], 0x0⟩,
  ⟨.sqCtrl, 5, 0x8C, 0, 0, 1, [⟨0, 1, .rw, .locked, 0⟩, ⟨1, 1, .wo, .live, 0⟩], 0xFFFFFFFC⟩,
  ⟨.sqDbgPopLo, 5, 0x90, 0, 0, 1, [⟨0, 32, .rc, .live, 0⟩], 0x0⟩,
  ⟨.sqDbgPopHi, 5, 0x94, 0, 0, 1, [⟨0, 4, .ro, .live, 0⟩, ⟨4, 1, .ro, .live, 0⟩, ⟨5, 1, .ro, .live, 0⟩,
      ⟨6, 1, .ro, .live, 0⟩], 0x0⟩]

/-- Block TMP. -/
def regsTmp : List RegRow := [
  ⟨.tmpWmDie, 6, 0x0, 4, 0, 4, [⟨0, 10, .rw, .live, 0x200⟩, ⟨10, 10, .rw, .live, 0x2c0⟩,
      ⟨20, 10, .rw, .live, 0x340⟩], 0xC0000000⟩,
  ⟨.tmpWmPkg, 6, 0x10, 4, 0, 4, [⟨0, 10, .rw, .live, 0x180⟩, ⟨10, 10, .rw, .live, 0x240⟩,
      ⟨20, 10, .rw, .live, 0x300⟩], 0xC0000000⟩,
  ⟨.tmpHyst, 6, 0x20, 0, 0, 1, [⟨0, 10, .rw, .live, 0x20⟩], 0xFFFFFC00⟩,
  ⟨.tmpLevel, 6, 0x24, 0, 0, 1, [⟨0, 3, .ro, .live, 0⟩, ⟨3, 18, .ro, .live, 0⟩], 0x0⟩,
  ⟨.tmpClamp, 6, 0x28, 0, 0, 1, [⟨0, 8, .w1c, .live, 0⟩], 0x0⟩,
  ⟨.tmpKbHits, 6, 0x2C, 0, 0, 1, [⟨0, 32, .rc, .live, 0⟩], 0x0⟩,
  ⟨.tmpDiscard, 6, 0x30, 0, 0, 1, [⟨0, 32, .rc, .live, 0⟩], 0x0⟩,
  ⟨.tmpClass, 6, 0x40, 4, 0, 8, [⟨0, 11, .rw, .live, 4⟩, ⟨11, 11, .rw, .live, 0x400⟩], 0xFFC00000⟩,
  ⟨.tmpRptBaseLo, 6, 0x60, 0, 0, 1, [⟨12, 20, .rw, .locked, 0⟩], 0xFFF⟩,
  ⟨.tmpRptBaseHi, 6, 0x64, 0, 0, 1, [⟨0, 32, .rw, .locked, 0⟩], 0x0⟩,
  ⟨.tmpRptCtrl, 6, 0x68, 0, 0, 1, [⟨0, 1, .rw, .live, 0⟩, ⟨1, 11, .rw, .live, 0⟩,
      ⟨16, 8, .rc, .live, 0⟩], 0xFF00F000⟩,
  ⟨.tmpRptPtr, 6, 0x6C, 0, 0, 1, [⟨0, 6, .ro, .live, 0⟩, ⟨8, 6, .rw, .live, 0⟩], 0xFFFFC000⟩,
  ⟨.tmpGraph, 6, 0x400, 4, 0, 256, [⟨0, 25, .rw, .live, 0⟩, ⟨25, 2, .rw, .live, 0⟩], 0xF8000000⟩,
  ⟨.tmpParkBase, 6, 0x808, 8, 1, 255, [⟨0, 27, .rw, .locked, 0⟩], 0xF8000000⟩,
  ⟨.tmpParkSize, 6, 0x80C, 8, 1, 255, [⟨0, 27, .rw, .locked, 0⟩], 0xF8000000⟩]

/-- Block HMEM. -/
def regsHmem : List RegRow := [
  ⟨.hmemBankCtrl, 7, 0x0, 4, 0, 48, [⟨0, 2, .rw, .live, 0⟩, ⟨2, 1, .rw, .live, 1⟩,
      ⟨3, 2, .ro, .live, 2⟩], 0xFFFFFFE0⟩,
  ⟨.hmemBankRep, 7, 0x100, 4, 0, 48, [⟨0, 8, .ro, .live, 0⟩, ⟨8, 8, .ro, .live, 0⟩, ⟨16, 1, .ro, .live, 0⟩], 0x0⟩,
  ⟨.hmemBankEvt, 7, 0x200, 0, 0, 1, [⟨0, 16, .rc, .live, 0⟩, ⟨16, 16, .rc, .live, 0⟩], 0x0⟩]

/-- Block LTB. -/
def regsLtb : List RegRow := [
  ⟨.ltbGrpRights, 8, 0x0, 4, 0, 64, [⟨0, 26, .rw, .live, 0⟩], 0xFC000000⟩,
  ⟨.ltbPeekSel, 8, 0x100, 0, 0, 1, [⟨0, 12, .rw, .live, 0⟩], 0xFFFFF000⟩,
  ⟨.ltbPeek, 8, 0x104, 0, 0, 1, [⟨0, 32, .ro, .live, 0⟩], 0x0⟩,
  ⟨.ltbWait, 8, 0x108, 0, 0, 1, [⟨0, 3, .ro, .live, 0⟩, ⟨3, 1, .ro, .live, 0⟩, ⟨4, 1, .ro, .live, 0⟩], 0x0⟩,
  ⟨.ltbEvt, 8, 0x10C, 0, 0, 1, [⟨0, 12, .rc, .live, 0⟩, ⟨12, 8, .rc, .live, 0⟩, ⟨20, 12, .rc, .live, 0⟩], 0x0⟩]

/-- Block BMV. -/
def regsBmv : List RegRow := [
  ⟨.bmvChCtrl, 10, 0x0, 64, 0, 32, [⟨0, 3, .rw, .locked, 0⟩, ⟨3, 5, .rw, .locked, 4⟩,
      ⟨8, 11, .rw, .locked, 0⟩, ⟨19, 1, .rw, .locked, 0⟩], 0xFFF00000⟩,
  ⟨.bmvChOwner, 10, 0x4, 64, 0, 32, [⟨0, 5, .rw, .locked, 0⟩], 0xFFFFFFE0⟩,
  ⟨.bmvChDlistLo, 10, 0x8, 64, 0, 32, [⟨6, 26, .rw, .locked, 0⟩], 0x3F⟩,
  ⟨.bmvChDlistHi, 10, 0xC, 64, 0, 32, [⟨0, 32, .rw, .locked, 0⟩], 0x0⟩,
  ⟨.bmvChDbell, 10, 0x10, 64, 0, 32, [⟨0, 13, .wo, .live, 0⟩], 0xFFFFE000⟩,
  ⟨.bmvChStatus, 10, 0x14, 64, 0, 32, [⟨0, 1, .ro, .live, 0⟩, ⟨1, 1, .ro, .live, 0⟩, ⟨2, 1, .w1c, .live, 0⟩,
      ⟨4, 8, .ro, .live, 0⟩, ⟨12, 12, .ro, .live, 0⟩], 0x0⟩,
  ⟨.bmvChDone, 10, 0x18, 64, 0, 32, [⟨0, 32, .ro, .live, 0⟩], 0x0⟩,
  ⟨.bmvChBufs, 10, 0x1C, 64, 0, 32, [⟨0, 5, .ro, .live, 0⟩], 0x0⟩,
  ⟨.bmvChPoison, 10, 0x20, 64, 0, 32, [⟨0, 32, .rc, .live, 0⟩], 0x0⟩,
  ⟨.bmvPool, 10, 0x800, 0, 0, 1, [⟨0, 9, .ro, .live, 0x100⟩], 0x0⟩,
  ⟨.bmvVfwinBase, 10, 0x900, 8, 0, 16, [⟨0, 19, .rw, .live, 0⟩], 0xFFF80000⟩,
  ⟨.bmvVfwinLimit, 10, 0x904, 8, 0, 16, [⟨0, 19, .rw, .live, 0⟩], 0xFFF80000⟩]

/-- Block PFP. -/
def regsPfp : List RegRow := [
  ⟨.pfpOwner, 11, 0x0, 128, 0, 16, [⟨0, 5, .rw, .locked, 0⟩], 0xFFFFFFE0⟩,
  ⟨.pfpCfg, 11, 0x4, 128, 0, 16, [⟨0, 1, .rw, .live, 0⟩, ⟨1, 2, .rw, .locked, 0⟩,
      ⟨3, 2, .rw, .locked, 0⟩], 0xFFFFFFE0⟩,
  ⟨.pfpTiming, 11, 0x8, 128, 0, 16, [⟨0, 16, .rw, .locked, 2⟩, ⟨16, 16, .rw, .locked, 0x200⟩], 0x0⟩,
  ⟨.pfpUnderrun, 11, 0xC, 128, 0, 16, [⟨0, 2, .rw, .boundary, 0⟩, ⟨2, 16, .rw, .boundary, 0⟩], 0xFFFC0000⟩,
  ⟨.pfpBurst, 11, 0x10, 128, 0, 16, [⟨0, 13, .rw, .locked, 0x100⟩, ⟨13, 10, .rw, .locked, 0x40⟩], 0xFF800000⟩,
  ⟨.pfpGraph, 11, 0x14, 128, 0, 16, [⟨0, 8, .rw, .locked, 0⟩, ⟨8, 11, .rw, .live, 0⟩], 0xFFF80000⟩,
  ⟨.pfpHandlerLo, 11, 0x18, 128, 0, 16, [⟨0, 24, .rw, .boundary, 0⟩, ⟨24, 3, .rw, .boundary, 0⟩,
      ⟨27, 1, .rw, .boundary, 0⟩, ⟨28, 1, .rw, .boundary, 0⟩], 0xE0000000⟩,
  ⟨.pfpHandlerHi, 11, 0x1C, 128, 0, 16, [⟨0, 20, .rw, .boundary, 0⟩, ⟨20, 12, .rw, .boundary, 0⟩], 0x0⟩,
  ⟨.pfpState, 11, 0x20, 128, 0, 16, [⟨0, 3, .ro, .live, 0⟩, ⟨3, 4, .ro, .live, 0⟩, ⟨7, 1, .ro, .live, 0⟩,
      ⟨8, 1, .ro, .live, 0⟩, ⟨9, 1, .ro, .live, 0⟩, ⟨10, 16, .ro, .live, 0⟩], 0x0⟩,
  ⟨.pfpNextLo, 11, 0x24, 128, 0, 16, [⟨0, 32, .ro, .live, 0⟩], 0x0⟩,
  ⟨.pfpNextHi, 11, 0x28, 128, 0, 16, [⟨0, 4, .ro, .live, 0⟩], 0x0⟩,
  ⟨.pfpTicksLo, 11, 0x2C, 128, 0, 16, [⟨0, 32, .ro, .live, 0⟩], 0x0⟩,
  ⟨.pfpTicksHi, 11, 0x30, 128, 0, 16, [⟨0, 16, .ro, .live, 0⟩], 0x0⟩,
  ⟨.pfpStartLo, 11, 0x34, 128, 0, 16, [⟨0, 32, .ro, .live, 0⟩], 0x0⟩,
  ⟨.pfpStartHi, 11, 0x38, 128, 0, 16, [⟨0, 32, .ro, .live, 0⟩], 0x0⟩,
  ⟨.pfpUnderCnt, 11, 0x3C, 128, 0, 16, [⟨0, 32, .rc, .live, 0⟩], 0x0⟩,
  ⟨.pfpFailCnt, 11, 0x48, 128, 0, 16, [⟨0, 32, .rc, .live, 0⟩], 0x0⟩,
  ⟨.pfpWaits, 11, 0x5C, 128, 0, 16, [⟨0, 32, .rc, .live, 0⟩], 0x0⟩,
  ⟨.pfpDropCnt, 11, 0x40, 128, 0, 16, [⟨0, 8, .rc, .live, 0⟩, ⟨8, 8, .rc, .live, 0⟩, ⟨16, 8, .rc, .live, 0⟩,
      ⟨24, 8, .rc, .live, 0⟩], 0x0⟩,
  ⟨.pfpLinkErr, 11, 0x44, 128, 0, 16, [⟨0, 16, .rc, .live, 0⟩, ⟨16, 8, .rc, .live, 0⟩,
      ⟨24, 8, .rc, .live, 0⟩], 0x0⟩,
  ⟨.pfpFailDrop, 11, 0x4C, 128, 0, 16, [⟨0, 12, .rc, .live, 0⟩, ⟨12, 12, .rc, .live, 0⟩,
      ⟨24, 8, .rc, .live, 0⟩], 0x0⟩,
  ⟨.pfpEpochTrigLo, 11, 0x50, 128, 0, 16, [⟨0, 32, .rw, .live, 0⟩], 0x0⟩,
  ⟨.pfpEpochTrigHi, 11, 0x54, 128, 0, 16, [⟨0, 4, .rw, .live, 0⟩, ⟨31, 1, .rw, .live, 0⟩], 0x7FFFFFF0⟩,
  ⟨.pfpVcredit, 11, 0x58, 128, 0, 16, [⟨0, 32, .ro, .live, 0⟩], 0x0⟩]

/-- Block KAO. -/
def regsKao : List RegRow := [
  ⟨.kaoStatus, 12, 0x0, 0, 0, 1, [⟨0, 1, .ro, .live, 0⟩, ⟨1, 1, .ro, .live, 0⟩, ⟨2, 1, .ro, .live, 0⟩,
      ⟨3, 1, .ro, .live, 0⟩, ⟨4, 1, .ro, .live, 0⟩, ⟨5, 1, .ro, .live, 0⟩, ⟨16, 7, .ro, .live, 0⟩], 0x0⟩,
  ⟨.kaoTimeouts, 12, 0x4, 0, 0, 1, [⟨0, 32, .rc, .live, 0⟩], 0x0⟩]

/-- Block QP. -/
def regsQp : List RegRow := [
  ⟨.qpSqBaseLo, 13, 0x0, 0, 0, 1, [⟨12, 20, .rw, .locked, 0⟩], 0xFFF⟩,
  ⟨.qpSqBaseHi, 13, 0x4, 0, 0, 1, [⟨0, 32, .rw, .locked, 0⟩], 0x0⟩,
  ⟨.qpCqBaseLo, 13, 0x8, 0, 0, 1, [⟨12, 20, .rw, .locked, 0⟩], 0xFFF⟩,
  ⟨.qpCqBaseHi, 13, 0xC, 0, 0, 1, [⟨0, 32, .rw, .locked, 0⟩], 0x0⟩,
  ⟨.qpSize, 13, 0x10, 0, 0, 1, [⟨0, 4, .rw, .locked, 4⟩, ⟨4, 4, .rw, .locked, 4⟩], 0xFFFFFF00⟩,
  ⟨.qpCtrl, 13, 0x14, 0, 0, 1, [⟨0, 1, .rw, .live, 0⟩, ⟨1, 1, .rw, .locked, 0⟩, ⟨2, 1, .rw, .locked, 0⟩,
      ⟨3, 1, .rw, .locked, 0⟩, ⟨4, 1, .rw, .locked, 0⟩, ⟨5, 11, .rw, .locked, 0⟩], 0xFFFF0000⟩,
  ⟨.qpSqTail, 13, 0x18, 0, 0, 1, [⟨0, 12, .rw, .live, 0⟩], 0xFFFFF000⟩,
  ⟨.qpSqHead, 13, 0x1C, 0, 0, 1, [⟨0, 12, .ro, .live, 0⟩], 0xFFFFF000⟩,
  ⟨.qpCqTail, 13, 0x20, 0, 0, 1, [⟨0, 12, .ro, .live, 0⟩, ⟨12, 1, .ro, .live, 1⟩], 0xFFFFE000⟩,
  ⟨.qpCqHead, 13, 0x24, 0, 0, 1, [⟨0, 12, .rw, .live, 0⟩], 0xFFFFF000⟩,
  ⟨.qpStatus, 13, 0x28, 0, 0, 1, [⟨0, 1, .w1c, .live, 0⟩, ⟨1, 1, .w1c, .live, 0⟩, ⟨2, 1, .ro, .live, 0⟩,
      ⟨3, 1, .ro, .live, 0⟩], 0x0⟩]

/-- Block HOST. -/
def regsHost : List RegRow := [
  ⟨.twkCtrl, 14, 0x90, 32, 0, 2, [⟨0, 1, .rw, .locked, 0⟩, ⟨1, 11, .rw, .locked, 0x100⟩], 0xFFFFF000⟩,
  ⟨.twkStatus, 14, 0x94, 32, 0, 2, [⟨0, 1, .ro, .live, 0⟩, ⟨1, 1, .ro, .live, 0⟩, ⟨2, 8, .ro, .live, 0⟩,
      ⟨10, 1, .w1c, .live, 0⟩, ⟨11, 1, .w1c, .live, 0⟩], 0x0⟩,
  ⟨.twkErr, 14, 0x98, 32, 0, 2, [⟨0, 16, .rc, .live, 0⟩, ⟨16, 8, .rc, .live, 0⟩, ⟨24, 8, .rc, .live, 0⟩], 0x0⟩,
  ⟨.twkPeerEpochLo, 14, 0x9C, 32, 0, 2, [⟨0, 32, .ro, .live, 0⟩], 0x0⟩,
  ⟨.twkPeerEpochHi, 14, 0xA0, 32, 0, 2, [⟨0, 16, .ro, .live, 0⟩, ⟨16, 1, .ro, .live, 0⟩], 0x0⟩,
  ⟨.hostBar2Base, 14, 0x0, 0, 0, 1, [⟨0, 5, .rw, .live, 0⟩], 0xFFFFFFE0⟩,
  ⟨.hostPkgId, 14, 0x4, 0, 0, 1, [⟨0, 4, .rw, .locked, 0⟩], 0xFFFFFFF0⟩,
  ⟨.hostPkgRoute, 14, 0x40, 4, 0, 16, [⟨0, 2, .rw, .live, 0⟩], 0xFFFFFFFC⟩,
  ⟨.hostRouteDrop, 14, 0x80, 0, 0, 1, [⟨0, 32, .rc, .live, 0⟩], 0x0⟩,
  ⟨.hostCmdCnt, 14, 0x88, 0, 0, 1, [⟨0, 32, .rc, .live, 0⟩], 0x0⟩,
  ⟨.hostDefer, 14, 0x84, 0, 0, 1, [⟨0, 7, .ro, .live, 0⟩], 0x0⟩]

/-- Block EPOCH. -/
def regsEpoch : List RegRow := [
  ⟨.epochCfg, 15, 0x0, 0, 0, 1, [⟨0, 1, .rw, .live, 0⟩, ⟨1, 1, .rw, .live, 0⟩, ⟨2, 1, .rw, .live, 0⟩], 0xFFFFFFF8⟩,
  ⟨.epochCntLo, 15, 0x4, 0, 0, 1, [⟨0, 32, .ro, .live, 0⟩], 0x0⟩,
  ⟨.epochCntHi, 15, 0x8, 0, 0, 1, [⟨0, 16, .ro, .live, 0⟩], 0x0⟩,
  ⟨.epochLastLo, 15, 0xC, 0, 0, 1, [⟨0, 32, .ro, .live, 0⟩], 0x0⟩,
  ⟨.epochLastHi, 15, 0x10, 0, 0, 1, [⟨0, 32, .ro, .live, 0⟩], 0x0⟩,
  ⟨.epochStat, 15, 0x14, 0, 0, 1, [⟨0, 3, .ro, .live, 0⟩, ⟨8, 8, .rc, .live, 0⟩, ⟨16, 1, .ro, .live, 0⟩], 0x0⟩,
  ⟨.tbLoadLo, 15, 0x18, 0, 0, 1, [⟨0, 32, .rw, .locked, 0⟩], 0x0⟩,
  ⟨.tbLoadHi, 15, 0x1C, 0, 0, 1, [⟨0, 32, .rw, .locked, 0⟩], 0x0⟩]

/-- Block PWR. -/
def regsPwr : List RegRow := [
  ⟨.pwrGov, 16, 0x0, 4, 0, 6, [⟨0, 5, .rw, .boundary, 5⟩, ⟨8, 5, .rw, .boundary, 0x16⟩], 0xFFFFE0E0⟩,
  ⟨.pwrFreq, 16, 0x20, 4, 0, 6, [⟨0, 5, .ro, .live, 0⟩, ⟨8, 5, .ro, .live, 0x16⟩], 0x0⟩,
  ⟨.pwrLimits, 16, 0x40, 0, 0, 1, [⟨0, 5, .ro, .live, 0x16⟩, ⟨8, 5, .ro, .live, 0x16⟩], 0x0⟩,
  ⟨.pwrPkgCap, 16, 0x44, 0, 0, 1, [⟨0, 9, .rw, .live, 0x104⟩], 0xFFFFFE00⟩,
  ⟨.pwrTherm, 16, 0x48, 0, 0, 1, [⟨0, 7, .rw, .live, 0x64⟩], 0xFFFFFF80⟩,
  ⟨.pwrVin, 16, 0x4C, 0, 0, 1, [⟨0, 16, .ro, .live, 0⟩, ⟨16, 12, .ro, .live, 0⟩], 0x0⟩,
  ⟨.pwrClamp, 16, 0x50, 0, 0, 1, [⟨0, 6, .w1c, .live, 0⟩, ⟨6, 1, .w1c, .live, 0⟩, ⟨7, 1, .w1c, .live, 0⟩], 0x0⟩,
  ⟨.pwrDomCtrl, 16, 0x100, 4, 0, 80, [⟨0, 1, .rw, .live, 1⟩, ⟨1, 2, .ro, .live, 0⟩, ⟨3, 1, .ro, .live, 0⟩,
      ⟨16, 16, .ro, .live, 0⟩], 0x0⟩,
  ⟨.pwrDomCur, 16, 0x300, 4, 0, 80, [⟨0, 20, .ro, .live, 0⟩], 0x0⟩]

/-- Block ERQ. -/
def regsErq : List RegRow := [
  ⟨.erqStatus, 17, 0x0, 0, 0, 1, [⟨0, 9, .ro, .live, 0⟩, ⟨9, 1, .w1c, .live, 0⟩, ⟨10, 5, .ro, .live, 0⟩], 0x0⟩,
  ⟨.erqRd, 17, 0x4, 0, 0, 1, [⟨0, 8, .rw, .live, 0⟩], 0xFFFFFF00⟩,
  ⟨.erqWr, 17, 0x8, 0, 0, 1, [⟨0, 8, .ro, .live, 0⟩], 0x0⟩,
  ⟨.erqLost, 17, 0xC, 0, 0, 1, [⟨0, 32, .rc, .live, 0⟩], 0x0⟩,
  ⟨.erqCtrl, 17, 0x10, 0, 0, 1, [⟨0, 1, .rw, .live, 0⟩, ⟨1, 3, .rw, .live, 0⟩,
      ⟨4, 11, .rw, .live, 0⟩], 0xFFFF8000⟩,
  ⟨.erqRec, 17, 0x1000, 4, 0, 2048, [⟨0, 32, .ro, .live, 0⟩], 0x0⟩]

/-- Block START. -/
def regsStart : List RegRow := [
  ⟨.startStatus, 18, 0x0, 0, 0, 1, [⟨0, 2, .ro, .live, 0⟩, ⟨2, 5, .ro, .live, 1⟩, ⟨7, 1, .ro, .live, 0⟩,
      ⟨8, 24, .ro, .live, 0⟩], 0x0⟩,
  ⟨.startCtrl, 18, 0x4, 0, 0, 1, [⟨0, 1, .wo, .live, 0⟩, ⟨1, 1, .wo, .live, 0⟩], 0xFFFFFFFC⟩,
  ⟨.fenceStatus, 18, 0x8, 0, 0, 1, [⟨0, 6, .ro, .live, 0⟩, ⟨6, 8, .ro, .live, 0⟩, ⟨14, 4, .ro, .live, 0⟩,
      ⟨18, 2, .ro, .live, 0⟩, ⟨20, 6, .ro, .live, 0⟩], 0x0⟩,
  ⟨.ledgerWin, 18, 0x100, 4, 0, 256, [⟨0, 32, .ro, .live, 0⟩], 0x0⟩]

/-- Block MC. -/
def regsMc : List RegRow := [
  ⟨.mcId, 19, 0x0, 0, 0, 1, [⟨0, 16, .ro, .live, 0x101⟩], 0x0⟩,
  ⟨.mcRomSum, 19, 0x4, 0, 0, 1, [⟨0, 32, .ro, .live, 0x7c2d90a1⟩], 0x0⟩,
  ⟨.mcBlendStatus, 19, 0x10, 0, 0, 1, [⟨0, 1, .ro, .live, 0⟩, ⟨1, 1, .ro, .live, 0⟩, ⟨2, 1, .ro, .live, 0⟩,
      ⟨3, 2, .ro, .live, 0⟩, ⟨5, 1, .ro, .live, 0⟩, ⟨6, 1, .ro, .live, 0⟩, ⟨7, 1, .ro, .live, 0⟩,
      ⟨8, 4, .ro, .live, 0⟩], 0x0⟩,
  ⟨.mcBlendVer, 19, 0x14, 4, 0, 2, [⟨0, 24, .ro, .live, 0⟩, ⟨24, 7, .ro, .live, 0⟩], 0x0⟩,
  ⟨.mcBlendActLo, 19, 0x20, 0, 0, 1, [⟨0, 32, .ro, .live, 0⟩], 0x0⟩,
  ⟨.mcBlendActHi, 19, 0x24, 0, 0, 1, [⟨0, 32, .ro, .live, 0⟩], 0x0⟩,
  ⟨.mcBlendActCfg, 19, 0x28, 0, 0, 1, [⟨0, 1, .ro, .live, 0⟩, ⟨1, 2, .ro, .live, 0⟩], 0x0⟩,
  ⟨.mcRb, 19, 0x30, 0, 0, 1, [⟨0, 7, .ro, .live, 0⟩, ⟨7, 1, .ro, .live, 0⟩], 0x0⟩,
  ⟨.mcRbBurn, 19, 0x34, 0, 0, 1, [⟨0, 7, .wo, .live, 0⟩, ⟨24, 8, .wo, .live, 0⟩], 0xFFFF80⟩,
  ⟨.mcPssCtrl, 19, 0x40, 0, 0, 1, [⟨0, 1, .wo, .live, 0⟩], 0xFFFFFFFE⟩,
  ⟨.mcPssStatus, 19, 0x44, 0, 0, 1, [⟨0, 16, .ro, .live, 0⟩, ⟨16, 1, .ro, .live, 0⟩, ⟨17, 1, .ro, .live, 0⟩,
      ⟨18, 1, .ro, .live, 0⟩, ⟨19, 13, .ro, .live, 0⟩], 0x0⟩,
  ⟨.mcLogNext, 19, 0x50, 0, 0, 1, [⟨0, 32, .ro, .live, 0⟩], 0x0⟩,
  ⟨.mcLogLost, 19, 0x54, 0, 0, 1, [⟨0, 32, .rc, .live, 0⟩], 0x0⟩,
  ⟨.mcPeerVer, 19, 0x60, 8, 0, 2, [⟨0, 24, .ro, .live, 0⟩, ⟨24, 1, .ro, .live, 0⟩, ⟨25, 1, .ro, .live, 0⟩], 0x0⟩,
  ⟨.mcPeerFloor, 19, 0x64, 8, 0, 2, [⟨0, 24, .ro, .live, 0⟩], 0x0⟩,
  ⟨.mcTemp, 19, 0x100, 4, 0, 22, [⟨0, 16, .ro, .live, 0⟩, ⟨16, 1, .ro, .live, 0⟩], 0x0⟩]

/-- The rows of a block code. -/
def rowsOfBlock : Nat → List RegRow
  | 1 => regsId
  | 2 => regsFab
  | 3 => regsD2dlnk
  | 4 => regsLm
  | 5 => regsSq
  | 6 => regsTmp
  | 7 => regsHmem
  | 8 => regsLtb
  | 10 => regsBmv
  | 11 => regsPfp
  | 12 => regsKao
  | 13 => regsQp
  | 14 => regsHost
  | 15 => regsEpoch
  | 16 => regsPwr
  | 17 => regsErq
  | 18 => regsStart
  | 19 => regsMc
  | _ => []

/-- A located register: its row, block instance, index, and PF BAR0 offset. -/
structure Loc where
  row : RegRow
  inst : Nat
  idx : Nat
  off : Nat
deriving DecidableEq, Repr

/-- The index of an offset in a row, if the row has a register there. -/
def RegRow.index (r : RegRow) (o : Nat) : Option Nat :=
  if o < r.off then none
  else if r.stride = 0 then (if o = r.off then some r.first else none)
  else if (o - r.off) % r.stride = 0 && decide ((o - r.off) / r.stride < r.count) then
    some (r.first + (o - r.off) / r.stride)
  else none

/-- The first row of a list with a register at a block offset. -/
def findRow : List RegRow → Nat → Option (RegRow × Nat)
  | [], _ => none
  | r :: rs, o => match r.index o with
    | some k => some (r, k)
    | none => findRow rs o

/-- The block and instance that hold an offset (R448). -/
def blockOf (off : Nat) : Option (BlockRow × Nat × Nat) :=
  (blockRows.find? (fun b => decide (b.base ≤ off) &&
    decide (off < b.base + (if b.stride = 0 then b.span else b.insts * b.stride)))).map
    (fun b => if b.stride = 0 then (b, 0, off - b.base) else (b, (off - b.base) / b.stride, (off - b.base) % b.stride))

/-- The register at a PF BAR0 offset (R449); none at unassigned offsets and in LTB_WIN. -/
def locate (off : Nat) : Option Loc :=
  match blockOf off with
  | none => none
  | some (b, inst, o) => (findRow (rowsOfBlock b.code) o).map
      (fun p => { row := p.1, inst := inst, idx := p.2, off := off })

/-- The reset value of a row (R454). (DESIGN CHOICE, log entry 2) -/
def RegRow.default (r : RegRow) : Nat := r.fields.foldl (fun a f => a + f.reset * 2 ^ f.lsb) 0

/-- Reset figures that differ per index: the Home Map has the Blend default of R48; TMP_WM_DIE_3 holds no field; the Silt classes have the Blend defaults of R191. -/
def locDefault (l : Loc) : Nat :=
  match l.row.id with
  | .tmpWmDie => if l.idx = 3 then 0 else l.row.default
  | .fabHomeMap => l.idx % 6
  | .sqClsCfg => lget 0 [0, 0x40, 0x40, 0xC2, 0xC0] l.idx
  | .sqClsDrip => lget 0 [0, 0, 0, 10000, 2000] l.idx
  | _ => l.row.default

/-- The reset value at a PF BAR0 offset. (DESIGN CHOICE, log entry 2) -/
def regDefault (off : Nat) : Nat := match locate off with | some l => locDefault l | none => 0

/-- The mask of a field. -/
def Field.mask (f : Field) : Nat := (2 ^ f.width - 1) * 2 ^ f.lsb

/-- The mask of the fields of a register that satisfy a test. -/
def RegRow.maskWhere (r : RegRow) (p : Field → Bool) : Nat :=
  r.fields.foldl (fun a f => if p f then a + f.mask else a) 0

end Sys2Proof.Machine
end

