-- ==== Sys2Proof/Machine/Ops.lean ====
section
/-! DEFINITION. The named operations over State: parts by number, registers by offset, error records, the global word
space (R34-R40), banks (R226-R229), contexts (R47-R50), graphs, links (R16, R22) and the passing of time (R370, R381). -/

namespace Sys2Proof.Machine

/-! ### Parts by number -/

def State.die (s : State) (n : Nat) : Die := lget Die.reset s.dies n
def State.setDie (s : State) (n : Nat) (d : Die) : State := { s with dies := lset s.dies n d }
def State.updDie (s : State) (n : Nat) (f : Die → Die) : State := s.setDie n (f (s.die n))

def peKey (n p : Nat) : Nat := n * 64 + p
def laneKey (n p c : Nat) : Nat := (n * 64 + p) * 8 + c

def State.pe (s : State) (k : Nat) : Pe := tget Pe.reset s.pes k
def State.setPe (s : State) (k : Nat) (p : Pe) : State := { s with pes := tput Pe.reset s.pes k p }
def State.lane (s : State) (k : Nat) : Lane := tget Lane.empty s.lanes k
def State.setLane (s : State) (k : Nat) (l : Lane) : State := { s with lanes := tput Lane.empty s.lanes k l }
def State.queue (s : State) (q : Nat) : Silt := tget Silt.empty s.queues q
def State.setQueue (s : State) (q : Nat) (x : Silt) : State := { s with queues := tput Silt.empty s.queues q x }
def State.dir (s : State) (d : Nat) : LinkDir := lget LinkDir.reset s.dirs d
def State.setDir (s : State) (d : Nat) (x : LinkDir) : State := { s with dirs := lset s.dirs d x }
def State.link (s : State) (l : Nat) : Link := lget Link.reset s.links l
def State.setLink (s : State) (l : Nat) (x : Link) : State := { s with links := lset s.links l x }
def State.graph (s : State) (g : Nat) : Graph := tget Graph.reset s.graphs g
def State.setGraph (s : State) (g : Nat) (x : Graph) : State := { s with graphs := tput Graph.reset s.graphs g x }
def State.updGraph (s : State) (g : Nat) (f : Graph → Graph) : State := s.setGraph g (f (s.graph g))
def State.bank (s : State) (b : Nat) : Bank := tget Bank.reset s.banks b
def State.setBank (s : State) (b : Nat) (x : Bank) : State := { s with banks := tput Bank.reset s.banks b x }
def State.latch (s : State) (k : Nat) : Latch := tget Latch.free s.latches k
def State.setLatch (s : State) (k : Nat) (x : Latch) : State := { s with latches := tput Latch.free s.latches k x }
def State.chan (s : State) (c : Nat) : Chan := lget Chan.reset s.chans c
def State.setChan (s : State) (c : Nat) (x : Chan) : State := { s with chans := lset s.chans c x }
def State.updChan (s : State) (c : Nat) (f : Chan → Chan) : State := s.setChan c (f (s.chan c))
def State.port (s : State) (p : Nat) : Port := lget Port.reset s.ports p
def State.setPort (s : State) (p : Nat) (x : Port) : State := { s with ports := lset s.ports p x }
def State.updPort (s : State) (p : Nat) (f : Port → Port) : State := s.setPort p (f (s.port p))
def State.twk (s : State) (n : Nat) : Twk := lget Twk.reset s.tws n
def State.setTwk (s : State) (n : Nat) (x : Twk) : State := { s with tws := lset s.tws n x }
def State.qp (s : State) (q : Nat) : Qp := tget Qp.reset s.qps q
def State.setQp (s : State) (q : Nat) (x : Qp) : State := { s with qps := tput Qp.reset s.qps q x }
def State.dom (s : State) (d : Nat) : Dom := tget Dom.reset s.doms d
def State.setDom (s : State) (d : Nat) (x : Dom) : State := { s with doms := tput Dom.reset s.doms d x }
def State.mset (s : State) (n set : Nat) : MsSet := tget MsSet.empty s.sets (n * 262144 + set)
def State.setMset (s : State) (n set : Nat) (x : MsSet) : State :=
  { s with sets := tput MsSet.empty s.sets (n * 262144 + set) x }
def State.slot (s : State) (n ip : Nat) : Slot := tget Slot.empty s.istore (n * 1048576 + ip)
def State.setSlot (s : State) (n ip : Nat) (x : Slot) : State :=
  { s with istore := tput Slot.empty s.istore (n * 1048576 + ip) x }
def State.emit (s : State) (o : Out) : State := { s with outbox := s.outbox ++ [o] }

/-- The device-unique ID (R2): not zero. (UNVERIFIED, log entry 7) -/
def duid : BitVec 64 := if Config.deviceId = 0 then 1 else Config.deviceId

/-! ### Registers by PF BAR0 offset -/

def fabOff (o : Nat) : Nat := 0x10000 + o
def lnkOff (l o : Nat) : Nat := 0x20000 + 0x40 * l + o
def lmOff (n o : Nat) : Nat := 0x100000 + 0x10000 * n + o
def sqOff (o : Nat) : Nat := 0x200000 + o
def tmpOff (o : Nat) : Nat := 0x210000 + o
def hmemOff (o : Nat) : Nat := 0x220000 + o
def ltbOff (o : Nat) : Nat := 0x230000 + o
def bmvOff (c o : Nat) : Nat := 0x250000 + 0x40 * c + o
def pfpOff (p o : Nat) : Nat := 0x260000 + 0x80 * p + o
def kaoOff (o : Nat) : Nat := 0x270000 + o
def qpOff (q o : Nat) : Nat := 0x280000 + 0x40 * q + o
def hostOff (o : Nat) : Nat := 0x290000 + o
def twkOff (n o : Nat) : Nat := 0x290090 + 0x20 * n + o
def epochOff (o : Nat) : Nat := 0x2A0000 + o
def pwrOff (o : Nat) : Nat := 0x2B0000 + o
def erqOff (o : Nat) : Nat := 0x2C0000 + o
def startOff (o : Nat) : Nat := 0x2D0000 + o
def mcOff (o : Nat) : Nat := 0x2E0000 + o

/-- The stored value of a register; its table's reset value where nothing is stored. -/
def State.reg (s : State) (off : Nat) : Nat :=
  match tfind s.regs off with
  | some v => v.toNat
  | none => regDefault off

/-- Stores a register value. -/
def State.setReg (s : State) (off v : Nat) : State :=
  { s with regs := tput (BitVec.ofNat 32 (regDefault off)) s.regs off (BitVec.ofNat 32 v) }

/-- A field of a register. -/
def State.fld (s : State) (off lsb w : Nat) : Nat := bitsOf (s.reg off) lsb w

/-- A one-bit field. -/
def State.flag (s : State) (off lsb : Nat) : Bool := bitOf (s.reg off) lsb

/-- Writes a field. -/
def State.setFld (s : State) (off lsb w v : Nat) : State := s.setReg off (setField (s.reg off) lsb w v)

/-- Adds to a saturating counter field. -/
def State.bump (s : State) (off lsb w n : Nat) : State :=
  s.setFld off lsb w (satAdd (2 ^ w - 1) (s.fld off lsb w) n)

/-! ### Error records -/

/-- A unit raises an error (R391): severity, kind, source, reporting register and lsb, graph, function, details. The
record is queued at the end of the step (R393). -/
def State.err (s : State) (sev kind src off lsb graph fn d0 d1 : Nat) : State :=
  { s with raised := s.raised ++ [{ sev := sev, kind := kind, src := src, off := off, lsb := lsb, graph := graph,
                                    fn := fn, d0 := d0, d1 := d1, tb := s.clk.tb }] }

/-- An event record without graph and function. -/
def State.event (s : State) (sev src off lsb d0 d1 : Nat) : State := s.err sev 0 src off lsb 0 0x1F d0 d1

/-- A kind 7 record (R459): code, instance, source, graph, function, detail 1. -/
def State.unreported (s : State) (code inst src graph fn d1 : Nat) : State :=
  s.err 0 7 src 0 0 graph fn (code + inst * 256) d1

/-- A refused write (R10, R12): the register's offset and lsb 0, by a function. (DEDUCED, log entry 36) -/
def State.refuseWrite (s : State) (fn off : Nat) : State :=
  s.err 0 1 (match blockOf off with | some (b, n, _) => if b.code = 4 then n else 6 | none => 6) off 0 0 fn 0 0

/-! ### Installed memory and the address map -/

/-- A Loam die is fenced or failed at this start (FENCE_STATUS.dies). -/
def State.fenced (s : State) (n : Nat) : Bool := bitOf s.start.dies n
/-- The unfenced Loam dies. -/
def State.unfenced (s : State) : List Nat := (List.range 6).filter (fun n => !s.fenced n)
/-- The device is ready (START_STATUS.state = 1). (DEDUCED, log entry 37) -/
def State.ready (s : State) : Bool := s.start.state == 1

/-- Installed DDR in words (R37), and the first word of the Silt carve-out (R38). -/
def State.ddrWords (s : State) : Nat := s.start.capacity / 8
def State.carve (s : State) : Nat := s.ddrWords - 2 ^ 32

/-- The parts of the global word space (R34). -/
inductive AddrKind where
  | ddr (a : Nat)
  | frame (n off : Nat)
  | scratch (off : Nat)
  | pour (off : Nat)
  | latch (k : Nat)
  | time (k : Nat)
  | ident (k : Nat)
  | home (i : Nat)
  | reserved
deriving DecidableEq, Repr

/-- The part that holds an on-package address offset (R34). -/
def packageKind (h : Nat) : AddrKind :=
  if h < 0x6000000 then
    (if h % 0x1000000 < 0x800000 then .frame (h / 0x1000000) (h % 0x1000000) else .reserved)
  else if 0x10000000 ≤ h ∧ h < 0x10400000 then .scratch (h - 0x10000000)
  else if 0x11000000 ≤ h ∧ h < 0x11400000 then .pour (h - 0x11000000)
  else if 0x12000000 ≤ h ∧ h < 0x12001000 then .latch (h - 0x12000000)
  else if 0x13000000 ≤ h ∧ h < 0x13000004 then .time (h - 0x13000000)
  else if 0x13000010 ≤ h ∧ h < 0x13000012 then .ident (h - 0x13000010)
  else if 0x13000100 ≤ h ∧ h < 0x13000200 then .home (h - 0x13000100)
  else .reserved

/-- The part that holds a global word address (R34, R38: words at or above C/8 are reserved). -/
def State.kindOf (s : State) (a : Nat) : AddrKind :=
  if a < 2 ^ 35 then (if a < s.ddrWords then .ddr a else .reserved) else packageKind (a - 2 ^ 35)

def frameWord (n off : Nat) : Nat := 0x800000000 + n * 0x1000000 + off
def scratchWord (off : Nat) : Nat := 0x810000000 + off
def pourWordAddr (port slot w : Nat) : Nat := 0x811000000 + port * 0x40000 + slot * 4 + w

/-- Memory in its canonical form: addresses strictly rising, no entry equal to what an unlisted word reads as.
(DESIGN CHOICE, log entry 3) -/
def Memory.wf (m : Tab PWord) : Bool := twf PWord.zero m

/-- A stored word of memory; a word that is not listed reads 0, not poisoned (R228; DESIGN CHOICE, log entry 3 for
DDR). -/
def State.rd (s : State) (a : Nat) : PWord := tget PWord.zero s.mem a
/-- A write of one word of memory. (DESIGN CHOICE, log entry 3) -/
def State.wr (s : State) (a : Nat) (w : PWord) : State := { s with mem := tput PWord.zero s.mem a w }
/-- Writes of consecutive words. -/
def State.wrs (s : State) (a : Nat) : List PWord → State
  | [] => s
  | w :: ws => (s.wr a w).wrs (a + 1) ws
/-- Consecutive words. -/
def State.rds (s : State) (a n : Nat) : List PWord := (List.range n).map (fun i => s.rd (a + i))

/-- A Frame Store read returns the newest buffered value of the word (R235). -/
def State.frameRd (s : State) (n off : Nat) : PWord :=
  match (s.die n).wbuf.reverse.find? (fun b => b.addr == frameWord n off) with
  | some b => b.w
  | none => s.rd (frameWord n off)

/-- Every buffered write to a word lands, oldest first (R232: an atomic operation waits for them). -/
def State.drainWord (s : State) (n a : Nat) : State :=
  let hits := (s.die n).wbuf.filter (fun b => b.addr == a)
  let s1 := hits.foldl (fun t b => t.wr b.addr b.w) s
  s1.updDie n (fun d => { d with wbuf := d.wbuf.filter (fun b => b.addr != a) })

/-- An atomic write of a Frame Store word at its bank. -/
def State.frameWr (s : State) (n off : Nat) (w : PWord) : State :=
  (s.drainWord n (frameWord n off)).wr (frameWord n off) w

/-! ### Banks (R226-R230) -/

/-- The bank kinds of R226. -/
inductive BKind where
  | frame | istore | match | scratch | pour
deriving DecidableEq, Repr

/-- The kind of a global bank number; none where the table assigns none. -/
def bankKind (b : Nat) : Option BKind :=
  if b < 0x600 then
    (if b % 256 < 64 then some .frame else if b % 256 < 80 then some .istore
     else if b % 256 < 144 then some .match else none)
  else if b < 0x620 then some .scratch
  else if b < 0x630 then some .pour
  else none

/-- All assigned bank numbers. -/
def bankNumbers : List Nat := (List.range 0x630).filter (fun b => (bankKind b).isSome)

/-- The die of a bank, 6 for Bedrock. -/
def bankDie (b : Nat) : Nat := if b < 0x600 then b / 256 else 6

/-- The power domain of a bank (R382). -/
def bankDom (b : Nat) : Nat :=
  match bankKind b with
  | some .frame => 10 * (b / 256) + (if b % 256 < 32 then 4 else 5)
  | some .istore => 10 * (b / 256) + 6
  | some .match => 10 * (b / 256) + 7
  | some .scratch => 68
  | _ => 69

/-- The bank of a global word (R226). -/
def kindBank : AddrKind → Option Nat
  | .frame n off => some (n * 256 + off / 131072)
  | .scratch off => some (0x600 + off / 131072)
  | .pour off => some (0x620 + off / 0x40000)
  | _ => none

def isBank (n ip : Nat) : Nat := n * 256 + 64 + ip / 65536
def msBank (n set : Nat) : Nat := n * 256 + 80 + set % 64

/-- The state of a bank: Off while its domain is off (R228). -/
def State.bankState (s : State) (b : Nat) : Nat :=
  if (s.dom (bankDom b)).state = 0 then 2 else (s.bank b).state

/-- auto_wake of a bank: fixed at 1 but for Frame Store and Global Scratch banks (R229). -/
def State.autoWake (s : State) (b : Nat) : Bool :=
  match bankKind b with
  | some .frame => (s.bank b).autoWake
  | some .scratch => (s.bank b).autoWake
  | _ => true

/-- The event register of a bank's block (R250, R251). -/
def bankEvt (b : Nat) : Nat := if b < 0x600 then lmOff (b / 256) 0x1800 else hmemOff 0x200

/-- The contents of a bank are lost (R227). -/
def State.loseBank (s : State) (b : Nat) : State :=
  match bankKind b with
  | some .frame =>
    { s with mem := tclear s.mem (frameWord (b / 256) (b % 256 * 131072)) (frameWord (b / 256) ((b % 256 + 1) * 131072)) }
  | some .scratch =>
    { s with mem := tclear s.mem (scratchWord ((b - 0x600) * 131072)) (scratchWord ((b - 0x600 + 1) * 131072)) }
  | some .pour =>
    { s with mem := tclear s.mem (pourWordAddr (b - 0x620) 0 0) (pourWordAddr (b - 0x620 + 1) 0 0) }
  | some .istore =>
    let base := b / 256 * 1048576 + (b % 256 - 64) * 65536
    { s with istore := tclear s.istore base (base + 65536) }
  | some .match =>
    { s with sets := s.sets.filter (fun p => !(p.1 / 262144 == b / 256 && p.1 % 64 == b % 256 - 80)) }
  | none => s

/-- Every buffered write of a die to a bank lands (R228, R235). -/
def State.drainBank (s : State) (b : Nat) : State :=
  let n := b / 256
  let hit (w : WBuf) : Bool := kindBank (packageKind (w.addr - 2 ^ 35)) == some b
  let s1 := ((s.die n).wbuf.filter hit).foldl (fun t w => t.wr w.addr w.w) s
  if b < 0x600 then s1.updDie n (fun d => { d with wbuf := d.wbuf.filter (fun w => !hit w) }) else s1

/-- A domain is on, with its request (R383). -/
def State.domOn (s : State) (d : Nat) : State :=
  if (s.dom d).state = 1 then s else s.setDom d { state := 1, req := true }

/-- A bank transition ends at a state (R228): entering Off loses the contents. -/
def State.enterBank (s : State) (b st : Nat) : State :=
  let s1 := if (s.bank b).state = 0 && st != 0 then s.drainBank b else s
  let s2 := if st = 2 then s1.loseBank b else s1
  s2.setBank b { s2.bank b with state := st, target := none }

/-- A wake begins: the domain is on, the bank Waking (R228). -/
def State.beginWake (s : State) (b : Nat) : State :=
  let s1 := s.domOn (bankDom b)
  s1.setBank b { s1.bank b with state := 3, target := some 0 }

/-- The answer of a bank to an access (R229). -/
inductive BankAns where
  | served | waits | poisoned
deriving DecidableEq, Repr

/-- An access reaches a bank (R229). -/
def State.access (s : State) (b : Nat) : State × BankAns :=
  if s.bankState b = 0 then (s, .served)
  else if s.bankState b = 3 then (s, .waits)
  else if s.autoWake b then
    let s1 := s.setBank b { s.bank b with req := 0 }
    ((s1.beginWake b).bump (bankEvt b) 0 16 1, .waits)
  else ((s.bump (bankEvt b) 16 16 1).event 0 (bankDie b) (bankEvt b) 16 b 0, .poisoned)

/-- An access of a requester that waits out a wake within its command: it is served as it will be after the wake, while the
bank stays Waking until its transition ends (DESIGN CHOICE, log entry 12): the state, and whether it is answered with
poison. -/
def State.accessNow (s : State) (b : Nat) : State × Bool :=
  match s.access b with
  | (s1, .served) => (s1, false)
  | (s1, .poisoned) => (s1, true)
  | (s1, .waits) => (s1, false)

/-- The Frame Store bank of a global word of a die. -/
def frameBank (n a : Nat) : Nat := n * 256 + a % 0x1000000 / 131072

/-- A buffered PE write drains to its bank (R229, R235). -/
def State.drainWr (s : State) (n : Nat) (b : WBuf) : State :=
  match s.accessNow (frameBank n b.addr) with
  | (s1, true) => s1
  | (s1, false) => s1.wr b.addr b.w

/-! ### Contexts (R47-R50) -/

/-- The Home Map index of a CID (R47). -/
def homeIndex (cid : Nat) : Nat := (cid * 0x9E3B1F35 % 2 ^ 32) / 2 ^ 24
/-- The home die of a CID (R47). -/
def State.homeOf (s : State) (cid : Nat) : Nat := s.fld (fabOff (4 * homeIndex cid)) 0 3
/-- The CDT is enabled, and its first word (R49, R74). -/
def State.cdtOn (s : State) : Bool := s.flag (fabOff 0x400) 11
def State.cdtBase (s : State) : Nat := s.fld (fabOff 0x400) 0 11 * 2 ^ 24
/-- The Frame Store offset of a context's G0 (R49). -/
def State.cdt (s : State) (cid : Nat) : Nat := fieldOf (s.rd (s.cdtBase + cid)).v 0 23

/-- A context header (R50). -/
structure Hdr where
  aff : Nat
  cls : Nat
  st : Nat
  graph : Nat
  block : Nat
deriving DecidableEq, Repr

def hdrOf (w : Word) : Hdr :=
  { aff := fieldOf w 0 6, cls := fieldOf w 6 3, st := fieldOf w 9 2, graph := fieldOf w 11 8, block := fieldOf w 19 12 }

def Hdr.word (h : Hdr) : Word :=
  BitVec.ofNat 36 (h.aff % 64 + h.cls % 8 * 2 ^ 6 + h.st % 4 * 2 ^ 9 + h.graph % 256 * 2 ^ 11 + h.block % 4096 * 2 ^ 19)

/-- A header read (R50: a CID with CDT offset 0 has none and reads state 3). -/
def State.hdr (s : State) (cid : Nat) : Hdr :=
  if s.cdt cid = 0 then { aff := 0, cls := 0, st := 3, graph := 0, block := 0 }
  else hdrOf (s.frameRd (s.homeOf cid) (s.cdt cid - 1)).v

/-- A device-side write of a Frame Store word at its bank, with the bank rules of R229. -/
def State.putFrame (s : State) (n off : Nat) (w : PWord) : State :=
  match s.accessNow (n * 256 + off / 131072) with
  | (s1, false) => s1.frameWr n off w
  | (s1, true) => s1

/-- A header write (R50: discarded for a CID without a header). -/
def State.setHdr (s : State) (cid : Nat) (h : Hdr) : State :=
  if s.cdt cid = 0 then s else s.putFrame (s.homeOf cid) (s.cdt cid - 1) (.clean h.word)

/-- The state and the header a device-side read gives, with the bank rules of R229. -/
def State.readHdr (s : State) (cid : Nat) : State × Hdr :=
  if s.cdt cid = 0 then (s, s.hdr cid)
  else match s.accessNow (s.homeOf cid * 256 + (s.cdt cid - 1) / 131072) with
    | (s1, false) => (s1, s1.hdr cid)
    | (s1, true) => (s1, hdrOf 0)

/-- Frame word Gk of a context: read and write at the home die; a word beyond the Frame Store reads 0. -/
def State.gWord (s : State) (cid k : Nat) : PWord :=
  if s.cdt cid + k < 8388608 then s.frameRd (s.homeOf cid) (s.cdt cid + k) else PWord.zero
def State.setG (s : State) (cid k : Nat) (w : PWord) : State :=
  if s.cdt cid + k < 8388608 then s.putFrame (s.homeOf cid) (s.cdt cid + k) w else s

/-! ### Graphs -/

def GState.code : GState → Nat
  | .free => 0 | .loaded => 1 | .running => 2 | .parked => 3 | .frozen => 4 | .aborting => 5

/-- The slots of a graph hold an IP (R69). -/
def Graph.holds (g : Graph) (ip : Nat) : Bool :=
  g.state != .free && decide (g.base ≤ ip) && decide (ip < g.base + g.slots)

/-- The handle of the loaded graph whose slots hold an IP, 0 where none. -/
def State.graphOfIp (s : State) (ip : Nat) : Nat :=
  match s.graphs.find? (fun p => p.2.holds ip) with
  | some p => p.1
  | none => 0

/-- Some graph is in a state other than FREE. -/
def State.anyGraph (s : State) : Bool := s.graphs.any (fun p => p.2.state != .free)

/-- A graph enters FROZEN, from RUNNING or PARKED only (R68). -/
def State.freeze (s : State) (g : Nat) : State :=
  let x := s.graph g
  if x.state = .running || x.state = .parked then s.setGraph g { x with state := .frozen } else s

/-- The word offset of FAB_GRAPH_STATUS_g. -/
def graphReg (g : Nat) : Nat := fabOff (0x800 + 4 * g)

/-- The function that a record about a graph concerns (R391): the graph's owner. -/
def State.graphFn (s : State) (g : Nat) : Nat := if (s.graph g).state = .free then 0x1F else (s.graph g).owner

/-- A record of a changed graph state (R391 kind 6); its register lies on Bedrock (R389). -/
def State.graphRec (s : State) (sev g d1 : Nat) : State := s.err sev 6 6 (graphReg g) 0 g (s.graphFn g) 0 d1

/-- A tag as detail 1 of an error record (R391). -/
def tagDetail (cid ip colour : Nat) : Nat := cid + ip * 2 ^ 24 + colour * 2 ^ 44

/-- The active-context count changes; a RUNNING graph whose count reaches 0 is LOADED again (R68). -/
def State.incActive (s : State) (g : Nat) : State := s.updGraph g (fun x => { x with active := x.active + 1 })
def State.decActive (s : State) (g : Nat) : State :=
  s.updGraph g (fun x =>
    let a := x.active - 1
    { x with active := a, state := if a = 0 && x.state = .running then .loaded else x.state })

/-! ### Links (R16, R22) -/

/-- The ring link that joins two adjacent dies, as a link number of R43, and the direction from i. -/
def ringDir (i j : Nat) : Nat := if j = (i + 1) % 6 then (6 + i) * 2 else (6 + j) * 2 + 1
/-- The hub link direction from a die to Bedrock, and from Bedrock to a die. -/
def hubUp (i : Nat) : Nat := i * 2
def hubDown (i : Nat) : Nat := i * 2 + 1

/-- The link direction is usable. -/
def State.dirUp (s : State) (d : Nat) : Bool := (s.link (d / 2)).up

/-- The first link direction of the path from i to j, 6 for Bedrock (R22). -/
def State.nextHop (s : State) (i j : Nat) : Nat :=
  if i = 6 then hubDown j
  else if j = 6 then hubUp i
  else
    let d := min ((i + 6 - j) % 6) ((j + 6 - i) % 6)
    if d = 1 then (if s.dirUp (ringDir i j) then ringDir i j else hubUp i)
    else if d = 2 then
      let m := if (j + 6 - i) % 6 = 2 then (i + 1) % 6 else (i + 5) % 6
      if !s.fenced m && s.dirUp (ringDir i m) && s.dirUp (ringDir m j) then ringDir i m else hubUp i
    else hubUp i

/-- The die at the receiving end of a direction, 6 for Bedrock. -/
def dirTo (d : Nat) : Nat :=
  let l := d / 2
  if l < 6 then (if d % 2 = 0 then 6 else l) else (if d % 2 = 0 then (l - 6 + 1) % 6 else l - 6)
/-- The die at the sending end. -/
def dirFrom (d : Nat) : Nat :=
  let l := d / 2
  if l < 6 then (if d % 2 = 0 then l else 6) else (if d % 2 = 0 then l - 6 else (l - 6 + 1) % 6)

/-- The initial credits of a pool (R21). -/
def poolInit (p : Nat) : Nat := if p < 8 then 256 else if p < 10 then 128 else 256

/-- Credits of a pool at a sender (R21: computed from the highest cumulative return). -/
def LinkDir.credit (x : LinkDir) (p : Nat) : Nat :=
  (poolInit p + (lget 0 x.seen p).toNat + 65536 - lget 0 x.sent p % 65536) % 65536

/-- A flit is sent on the wire of a direction; a numbered flit takes the next number and a replay entry (R20). An armed
crc_inject corrupts the next numbered flit (R43). (DEDUCED, log entry 31) -/
def LinkDir.send (x : LinkDir) (f : BitVec 128) : LinkDir :=
  if flitNumbered f then
    { x with wire := x.wire ++ [(some x.nextSeq, if x.inject then f ^^^ (BitVec.ofNat 128 (2 ^ 112)) else f)],
             replay := x.replay ++ [(x.nextSeq, f)], nextSeq := x.nextSeq + 1, inject := false,
             sent := lset x.sent (flitPool f) (lget 0 x.sent (flitPool f) + 1) }
  else { x with wire := x.wire ++ [(none, f)] }

/-- Waiting flits move to the wire in order per pool, while credits and the replay buffer allow (R20, R21). -/
def LinkDir.pump : Nat → LinkDir → LinkDir
  | 0, x => x
  | k + 1, x =>
    match takeFirst (fun f => decide (x.replay.length < 256) && decide (0 < x.credit (flitPool f))) x.outq with
    | none => x
    | some (f, rest) => LinkDir.pump k (({ x with outq := rest }).send f)

/-- A direction sends what it can; the flit that crc_inject corrupts is the next of either direction (R43). -/
def State.pumpDir (s : State) (d : Nat) : State :=
  let x := s.dir d
  let y := x.pump x.outq.length
  let s1 := s.setDir d y
  let e := if d % 2 = 0 then d + 1 else d - 1
  if x.inject && !y.inject then s1.setDir e { s1.dir e with inject := false } else s1

/-- A flit joins the queue of a direction and moves on as credits allow. -/
def State.queueFlit (s : State) (d : Nat) (f : BitVec 128) : State :=
  let x := s.dir d
  (s.setDir d { x with outq := x.outq ++ [f] }).pumpDir d

/-- A flit leaves a die (6: Bedrock) toward its DEST. -/
def State.sendFlit (s : State) (src : Nat) (f : BitVec 128) : State := s.queueFlit (s.nextHop src (flitDest f)) f

/-! ### Time (R370, R381) -/

/-- CK_FAB cycles of a die (R381: counted in tenths). -/
def Die.cycles (d : Die) : Nat := d.fab / 10

/-- A quiescence period that starts now on a die: its first cycle, and its length in CK_FAB cycles, the value of
LM_QUIESCE_CYC at its start (R214, R215, R225). (DESIGN CHOICE, log entry 14) -/
def State.period (s : State) (n : Nat) : Nat × Nat := ((s.die n).cycles, s.reg (lmOff n 0x800))

/-- The timebase as a number. -/
def State.now (s : State) : Nat := s.clk.tb.toNat

/-- The present time in units of 1/64 ns (R279). -/
def State.now64 (s : State) : Nat := 64 * s.now

end Sys2Proof.Machine
end

