-- ==== Sys2Proof/Machine/Silt.lean ====
section
/-! DEFINITION. Silt queues (R191-R202): word queues of classes 1-4 and ready lanes, with their middles in DDR, packets,
cut-through, flush, DIAG mode and Drip; MSI-X messages (R340). -/

namespace Sys2Proof.Machine

/-! ### MSI-X (R340) -/

/-- The number of vectors of a function (R338). -/
def vecCount (fn : Nat) : Nat := if fn = 0 then 2048 else 64

/-- A message is sent, or held in the PBA of a masked vector (R340). (PRESUMED, log entry 54) -/
def State.msi (s : State) (fn vec : Nat) : State :=
  if vec < vecCount fn then
    (if tget false s.msix.unmasked (fn * 2048 + vec) then s.emit (.msix fn vec)
     else { s with msix := { s.msix with pba := tput false s.msix.pba (fn * 2048 + vec) true } })
  else s

/-! ### Queue numbers (R204) -/

/-- The class of a word queue number; none for lanes and unassigned numbers. -/
def siltClass (q : Nat) : Option Nat :=
  if q < 192 then some 1 else if q < 256 then some 2 else if q < 272 then some 3 else if q < 336 then some 4 else none

/-- The lane key of a class 0 queue number. -/
def laneOfQueue (q : Nat) : Option Nat := if 0x1000 ≤ q ∧ q < 0x1000 + 3072 then some (q - 0x1000) else none

/-- Head and tail capacity (R191). -/
def siltCap (cls : Nat) : Nat := if cls = 1 then 96 else if cls = 2 then 48 else if cls = 3 then 512 else 128

/-- Middle capacity in words, and its first word within the 2 GiB Silt region (R191, R193). -/
def siltMidCap (cls : Nat) : Nat := if cls = 3 then 2 ^ 22 else if cls = 4 then 2 ^ 18 else 2 ^ 19
def siltMidBase (q : Nat) : Nat :=
  if q < 192 then q * 2 ^ 19
  else if q < 256 then 0x6000000 + (q - 192) * 2 ^ 19
  else if q < 272 then 0x8000000 + (q - 256) * 2 ^ 22
  else 0xC000000 + (q - 272) * 2 ^ 18

/-- The 2 GiB Silt region, and the ready-list region of a die (R38). -/
def State.siltBase (s : State) : Nat := s.carve + 6 * 2 ^ 29 + 6 * 2 ^ 27
def State.readyBase (s : State) (n : Nat) : Nat := s.carve + 6 * 2 ^ 29 + n * 2 ^ 27

/-- cut_thr of a class, and its Drip period (R204). -/
def State.cutThr (s : State) (cls : Nat) : Nat := s.fld (sqOff (4 * cls)) 0 6
def State.dripNs (s : State) (cls : Nat) : Nat := s.fld (sqOff (0x20 + 4 * cls)) 0 32

/-! ### Word queues -/

/-- Stored entries (R196). -/
def Silt.stored (x : Silt) : Nat := x.head.length + x.mid.length + x.tail.length

/-- Words of the open packet still stored. -/
def Silt.openStored (x : Silt) : Nat := x.openWords - x.taken

/-- The open packet is visible under cut-through (R197). -/
def Silt.cutOpen (thr : Nat) (x : Silt) : Bool := decide (0 < thr) && decide (thr ≤ x.openWords)

/-- Visible entries in the head (R192, R196, R197). -/
def Silt.visible (thr : Nat) (x : Silt) : Nat :=
  if x.abortDue then 1
  else min x.head.length (if x.cutOpen thr then x.stored else x.stored - x.openStored)

/-- The queue is full (R199). -/
def Silt.full (cls : Nat) (x : Silt) : Bool :=
  decide (siltCap cls ≤ x.tail.length) && decide (siltMidCap cls < x.mid.length + 32)

/-- Tail words move to the head while the middle is empty (R192). -/
def Silt.promote (cls : Nat) (x : Silt) : Silt :=
  if x.mid.isEmpty then
    let k := siltCap cls - x.head.length
    { x with head := x.head ++ x.tail.take k, tail := x.tail.drop k }
  else x

/-- The tail's oldest block goes to the middle (R192). -/
def Silt.spillOnce (cls : Nat) (x : Silt) : Silt :=
  if decide (siltCap cls / 2 < x.tail.length) && decide (32 ≤ x.tail.length) &&
      decide (x.mid.length + 32 ≤ siltMidCap cls) then
    { x with mid := x.mid ++ x.tail.take 32, tail := x.tail.drop 32, midWr := (x.midWr + 32) % siltMidCap cls }
  else x

/-- A refill is requested while the middle is not empty and the head has room for a block (R192). -/
def Silt.askRefill (cls : Nat) (x : Silt) : Silt :=
  { x with refill := !x.mid.isEmpty && decide (x.head.length + 32 ≤ siltCap cls) }

def Silt.settle (cls : Nat) (x : Silt) : Silt := ((x.promote cls).spillOnce cls).askRefill cls

/-- The parity bits of a word (R191): even parity of its bits [17:0] and [35:18], as R77 groups them. (PRESUMED, log
entry 63) -/
def wordPar (v : Word) : BitVec 2 :=
  BitVec.ofNat 2 (b2n (parityOf 18 v.toNat) + 2 * b2n (parityOf 18 (v.toNat / 2 ^ 18)))

/-- A word as the queue commits it: with good parity. -/
def SWord.commit (x : SWord) : SWord := { x with par := wordPar x.w.v }

/-- A word as the queue delivers it: poisoned when its stored parity no longer agrees (R194). -/
def SWord.deliver (x : SWord) : SWord := if x.par = wordPar x.w.v then x else x.hurt

/-- Stored parity bits of a queue's front word change their value in the store (R194). -/
def Silt.upset (x : Silt) (e : BitVec 2) : Silt :=
  match x.head with
  | [] => x
  | w :: rest => { x with head := { w with par := w.par ^^^ e } :: rest }

/-- Writes of a block to the middle's DDR words (R39, R192). -/
def State.wrBlock (s : State) (base cap pos : Nat) : List SWord → State
  | [] => s
  | w :: ws => (s.wr (base + pos % cap) w.w).wrBlock base cap (pos + 1) ws

/-- A queue after a change: parts balanced, spilled words in DDR, Drip timer kept (R192, R202). `popped` restarts the
timer; no timer runs in DIAG mode (R201). (DEDUCED, log entry 63) -/
def State.putQueue (s : State) (q cls : Nat) (before after : Silt) (popped : Bool) : State :=
  let thr := s.cutThr cls
  let y := after.settle cls
  let s1 := if y.midWr ≠ after.midWr then
      s.wrBlock (s.siltBase + siltMidBase q) (siltMidCap cls) after.midWr (y.mid.drop after.mid.length) else s
  let vis := decide (0 < y.visible thr)
  let was := decide (0 < before.visible thr)
  let due := if s.dripNs cls = 0 ∨ after.diag = true then none else some (s.clk.edges + s.dripNs cls)
  let drip := if !vis then none else if !was || popped then due else y.drip
  let taken := if !vis || !was || popped then false else y.dripTaken
  s1.setQueue q { y with drip := drip, dripTaken := taken }

/-- Removes the newest k stored words (R196); the middle's write position moves back over those it held. -/
def Silt.dropNewest (cls k : Nat) (x : Silt) : Silt :=
  let t := min k x.tail.length
  let m := min (k - t) x.mid.length
  let h := k - t - m
  { x with tail := x.tail.take (x.tail.length - t), mid := x.mid.take (x.mid.length - m),
           midWr := (x.midWr + siltMidCap cls - m) % siltMidCap cls,
           head := x.head.take (x.head.length - h) }

/-- A rewind of the open packet (R196, R197). -/
def Silt.rewind (cls : Nat) (x : Silt) : Silt :=
  let y := x.dropNewest cls x.openStored
  { y with abortDue := y.abortDue || decide (0 < x.taken), openWords := 0, taken := 0 }

/-- The counter register of a class (SQ_CLS_STAT). -/
def statReg (cls : Nat) : Nat := sqOff (0x40 + 4 * cls)

/-- Counts a rewound packet (R196). -/
def State.countRewind (s : State) (cls : Nat) : State := s.bump (statReg cls) 0 8 1

/-- The words of the producer's next packet leave it, up to and including its EOP. -/
def Silt.skipPacket (x : Silt) : Silt := { x with inbox := (x.inbox.dropWhile (fun v => !v.eop)).drop 1 }

/-- A producer abort (R196): it ends the packet, which is rewound unless a rewind or a flush has taken it already. -/
def State.siltAbort (s : State) (q cls : Nat) : State :=
  let x := s.queue q
  if x.drop = .none then (s.countRewind cls).putQueue q cls x (x.rewind cls).skipPacket false
  else s.putQueue q cls x { x.skipPacket with drop := .none } false

/-- A push of the word w, after which the producer holds `rest`, by a producer that is not dropping (R194, R196, R199). -/
def State.siltWord (s : State) (q cls : Nat) (w : SWord) (rest : List SWord) (bad : Bool) : State :=
  let x := s.queue q
  if x.full cls then s.setQueue q { x with status := .refuse }
  else if bad then
    (s.countRewind cls).putQueue q cls x
      { x.rewind cls with inbox := rest, drop := if w.eop then .none else .rewound, status := .dropRewound } false
  else
    s.putQueue q cls x
      { x with inbox := rest, tail := x.tail ++ [w.commit], flushedFirst := false,
               status := if x.flushedFirst then .acceptFlushed else .accept,
               openWords := if w.eop then 0 else x.openWords + 1, taken := if w.eop then 0 else x.taken } false

/-- One push by the producer of its next word, or of the abort mark (R194, R196, R199, R200). -/
def State.siltPush (s : State) (q cls : Nat) (env : PushEnv) : State :=
  let x := s.queue q
  match env, x.inbox with
  | .abort, _ => s.siltAbort q cls
  | _, [] => s
  | _, w :: rest =>
    match x.drop with
    | .rewound => s.putQueue q cls x
        { x with inbox := rest, drop := if w.eop then .none else .rewound, status := .dropRewound } false
    | .flushed => (s.bump (statReg cls) 16 8 1).putQueue q cls x
        { x with inbox := rest, drop := if w.eop then .none else .flushed, status := .dropFlushed } false
    | .none => s.siltWord q cls w rest (env == .badParity)

/-- The word that a pop delivers, with the state (R192, R194, R197); none while no entry is visible. -/
def State.siltTake (s : State) (q cls : Nat) : Option (SWord × State) :=
  let x := s.queue q
  let ab : SWord := { w := { v := 0, p := true }, eop := true, mark := .abort }
  if x.abortDue then
    some (ab, (s.bump (statReg cls) 8 8 1).putQueue q cls x { x with abortDue := false, last := ab } true)
  else if x.visible (s.cutThr cls) = 0 then none
  else match x.head with
    | [] => none
    | w :: rest =>
      let inOpen := decide (0 < x.openWords) && x.stored == x.openStored
      some (w.deliver, s.putQueue q cls x { x with head := rest, last := w.deliver, taken := if inOpen then x.taken + 1 else x.taken } true)

/-- Words pushed by a device unit in one command, each with good parity; words that the queue refuses stay with the
producer. -/
def State.pushAll : Nat → State → Nat → Nat → State
  | 0, s, _, _ => s
  | k + 1, s, q, cls => if (s.queue q).inbox.isEmpty then s else State.pushAll k (s.siltPush q cls .word) q cls

/-- A packet joins the producer's words. -/
def packet (ws : List PWord) : List SWord :=
  ws.zipIdx.map (fun p => { w := p.1, eop := p.2 + 1 == ws.length })

def State.offer (s : State) (q : Nat) (ws : List PWord) : State :=
  let x := s.queue q
  s.setQueue q { x with inbox := x.inbox ++ packet ws }

/-- A block read arrives in the head (R192); the DDR controller returned the words `lost` of the block with an
uncorrectable error (R194). -/
def State.siltRefill (s : State) (q cls : Nat) (lost : List (Fin 32)) : State :=
  let x := s.queue q
  if x.refill && !x.mid.isEmpty then
    let ws := (x.mid.take 32).zipIdx.map (fun p => if lost.any (fun k => k.val == p.2) then p.1.hurt else p.1)
    s.putQueue q cls x { x with head := x.head ++ ws, mid := x.mid.drop 32 } false
  else s

/-- The Advisory record of a word that a queue delivers poisoned (R194, R195); its source, function and instance are those
of code 4 (R459). (UNVERIFIED, log entry 9) -/
def State.lostWord (s : State) (q src fn : Nat) : State := s.unreported Config.lostWordCode.toNat q src 0 fn 0

/-- The function that owns a queue pair (R345, R451). -/
def qpFn (q : Nat) : Nat := if q < 32 then 0 else (q - 32) / 2 + 1

/-- The source and the function that a record about a word queue names (R459). -/
def queueSrc (q : Nat) : Nat := if q < 192 then dirFrom (q / 8) else 6
def queueFn (q : Nat) : Nat :=
  if q < 192 then 0x1F else if q < 256 then qpFn (q - 192) else if q < 272 then 0x1F else qpFn (q - 272)

/-- A word of a queue of class 3 or 4 is delivered poisoned (R195). (UNVERIFIED, log entry 9) -/
def State.noteLost (s : State) (q : Nat) (w : SWord) : State :=
  if w.mark = .lost then s.lostWord q (queueSrc q) (queueFn q) else s

/-- What the consumer of a queue of class 1 or 2 does with the words of an item (R195): a token item whose word 0 or 1
is lost is discarded, one whose word 2 is lost travels poisoned, and an item that an abort word ended is dropped. -/
def State.takeItem (s : State) (q cls : Nat) (ws : List SWord) : State × Option (List PWord) :=
  if ws.length ≠ 3 || ws.any (fun w => w.mark == .abort) then (s, none)
  else if (ws.take 2).any (fun w => w.mark == .lost) then
    ((s.bump (statReg cls) 24 8 1).err 1 0 (queueSrc q) (statReg cls) 24 0 (queueFn q) q 0, none)
  else ((ws.drop 2).foldl (fun t w => t.noteLost q w) s, some (ws.map (fun w => w.w)))

/-- A packet is partial: some of its words are committed, or its rest is being dropped (R200, R204). -/
def Silt.packetOpen (x : Silt) : Bool := decide (0 < x.openWords) || decide (x.drop ≠ .none)

/-- A flush (R200): the partial packet's stored words are counted, and its further words will be dropped. -/
def State.siltFlush (s : State) (q cls : Nat) : State :=
  let x := s.queue q
  let part := x.packetOpen
  let s1 := if part then s.bump (statReg cls) 16 8 x.openStored else s
  s1.setQueue q { x with head := [], mid := [], tail := [], midWr := 0, refill := false, openWords := 0, taken := 0,
                         abortDue := false, drop := if part then .flushed else .none,
                         flushedFirst := !part, last := { w := PWord.zero, eop := false }, asm := [], drip := none, dripTaken := false }

/-! ### Ready lanes (class 0) -/

/-- Entries that a PE's lanes hold beyond their reserves in one store (R182). -/
def sharedUsed (ls : List Lane) (f : Lane → Nat) : Nat := ls.foldl (fun n l => n + (f l - 128)) 0

def State.lanesOf (s : State) (k : Nat) : List Lane := (List.range 8).map (fun c => s.lane (k * 8 + c))

/-- Room of a lane in a store of its PE (R182). -/
def storeRoom (ls : List Lane) (f : Lane → Nat) (own : Nat) : Nat :=
  (128 - own) + (1024 - min 1024 (sharedUsed ls f))

def Lane.size (l : Lane) : Nat := l.head.length + l.mid.length + l.tail.length

/-- The on-chip depth of a PE (R182). -/
def State.onchip (s : State) (k : Nat) : Nat :=
  (s.lanesOf k).foldl (fun n l => n + l.head.length + l.tail.length) 0

/-- The lane refuses a push (R199). -/
def State.laneFull (s : State) (k c : Nat) : Bool :=
  let ls := s.lanesOf k
  let l := s.lane (k * 8 + c)
  storeRoom ls (fun l => l.tail.length) l.tail.length == 0 && decide (32768 < l.mid.length + 4)

/-- The eight words of a ready item (R181). -/
def Item.words (i : Item) : List PWord :=
  [.clean (BitVec.ofNat 36 (i.cid.toNat + i.colour.toNat * 2 ^ 24)),
   .clean (BitVec.ofNat 36 (i.ip.toNat + i.cls.toNat * 2 ^ 20 + i.pmask.toNat * 2 ^ 23 + i.kind.toNat * 2 ^ 26 +
     b2n i.ovf * 2 ^ 28 + b2n i.remote * 2 ^ 29)),
   i.v0, i.v1, i.v2, .clean (BitVec.ofNat 36 i.n.toNat), .clean (BitVec.ofNat 36 i.nxt.toNat),
   .clean (BitVec.ofNat 36 i.graph.toNat)].zipIdx.map (fun w => { w.1 with p := w.1.p || i.bad.toNat.testBit w.2 })

/-- The item as a lane delivers it when the DDR controller returned its words `lost` with an uncorrectable error
(R194). -/
def Item.hurt (i : Item) (lost : List Nat) : Item :=
  let hit (k : Nat) (v : PWord) : PWord := { v with p := v.p || lost.contains k }
  { i with v0 := hit 2 i.v0, v1 := hit 3 i.v1, v2 := hit 4 i.v2,
           bad := i.bad ||| BitVec.ofNat 8 (maskOf 8 (fun k => lost.contains k)) }

/-- Words 0, 1, 5 or 6 of the item are lost: it cannot fire (R195). -/
def Item.broken (i : Item) : Bool := i.bad &&& 0x63 != 0

/-- The item of eight words (R181), with the poison marks of R194. -/
def itemOf (ws : List PWord) : Item :=
  let w (k : Nat) : PWord := lget PWord.zero ws k
  { cid := BitVec.ofNat 24 (fieldOf (w 0).v 0 24), colour := BitVec.ofNat 12 (fieldOf (w 0).v 24 12),
    ip := BitVec.ofNat 20 (fieldOf (w 1).v 0 20), cls := BitVec.ofNat 3 (fieldOf (w 1).v 20 3),
    pmask := BitVec.ofNat 3 (fieldOf (w 1).v 23 3), kind := BitVec.ofNat 2 (fieldOf (w 1).v 26 2),
    ovf := bitOf (w 1).v.toNat 28, remote := bitOf (w 1).v.toNat 29, v0 := w 2, v1 := w 3, v2 := w 4,
    n := BitVec.ofNat 32 (fieldOf (w 5).v 0 32), nxt := BitVec.ofNat 32 (fieldOf (w 6).v 0 32),
    graph := BitVec.ofNat 8 (fieldOf (w 7).v 0 8),
    bad := BitVec.ofNat 8 ((if (w 0).p then 1 else 0) + (if (w 1).p then 2 else 0) + (if (w 5).p then 32 else 0) +
      (if (w 6).p then 64 else 0) + (if (w 7).p then 128 else 0)) }

/-- Items to the middle's DDR words (R182). -/
def State.wrItems (s : State) (k c pos : Nat) : List Item → State
  | [] => s
  | i :: is =>
    (s.wrs (s.readyBase (k / 64) + (k % 64 * 8 + c) * 2 ^ 18 + pos % 32768 * 8) i.words).wrItems k c (pos + 1) is

/-- A lane after a change: promotion, one spill, refill request (R192). -/
def State.settleLane (s : State) (k c : Nat) : State :=
  let l := s.lane (k * 8 + c)
  let ls := s.lanesOf k
  if l.mid.isEmpty then
    let room := storeRoom ls (fun l => l.head.length) l.head.length
    let l1 := { l with head := l.head ++ l.tail.take room, tail := l.tail.drop room }
    if l1.tail.length > 128 then
      let l2 := { l1 with mid := l1.tail.take 4, tail := l1.tail.drop 4, midWr := (l1.midWr + 4) % 32768, refill := false }
      (s.wrItems k c l1.midWr (l1.tail.take 4)).setLane (k * 8 + c) l2
    else s.setLane (k * 8 + c) { l1 with refill := false }
  else
    let l1 := if l.tail.length > 128 && decide (l.mid.length + 4 ≤ 32768) then
        { l with mid := l.mid ++ l.tail.take 4, tail := l.tail.drop 4, midWr := (l.midWr + 4) % 32768 } else l
    let s1 := if l1.midWr ≠ l.midWr then s.wrItems k c l.midWr (l.tail.take 4) else s
    s1.setLane (k * 8 + c)
      { l1 with refill := decide (4 ≤ storeRoom ls (fun l => l.head.length) l1.head.length) }

/-- The lane has been full since (R215). -/
def State.markFull (s : State) (k c : Nat) : State :=
  let l := s.lane (k * 8 + c)
  s.setLane (k * 8 + c) { l with fullSince := if s.laneFull k c then
      (match l.fullSince with | some t => some t | none => some (s.period (k / 64))) else none }

/-- The lanes of a PE share their stores (R182): after a change of lane c the others of the PE are balanced too, lane c
first. -/
def State.settlePe (s : State) (k c : Nat) : State :=
  let cs := c :: (List.range 8).filter (fun j => j != c)
  let s1 := cs.foldl (fun t j => t.settleLane k j) s
  cs.foldl (fun t j => t.markFull k j) s1

/-- A push of an item; the state is unchanged when the lane refuses it (R199). -/
def State.lanePush (s : State) (k c : Nat) (i : Item) : Option State :=
  if s.laneFull k c then none
  else
    let l := s.lane (k * 8 + c)
    some ((s.setLane (k * 8 + c) { l with tail := l.tail ++ [i] }).settlePe k c)

/-- A pop of a lane's head item (R187, R188: the age counter returns to 0). -/
def State.lanePop (s : State) (k c : Nat) : State :=
  let l := s.lane (k * 8 + c)
  let l1 := { l with head := l.head.drop 1, age := 0, fullSince := none, diagPos := 0,
                     last := (l.head.head?.map (fun i => lget PWord.zero i.words 7)).getD l.last }
  (s.setLane (k * 8 + c) l1).settlePe k c

/-- Items leave a lane in place (R217, R220): what its middle still holds moves together in the middle's buffer. (DEDUCED,
log entry 63) -/
def State.putLane (s : State) (k c : Nat) (l : Lane) : State :=
  let old := s.lane (k * 8 + c)
  if l.mid.length = old.mid.length then (s.setLane (k * 8 + c) l).settlePe k c
  else
    let from_ := old.midWr + 32768 - old.mid.length
    ((s.wrItems k c (from_ % 32768) l.mid).setLane (k * 8 + c)
      { l with midWr := (from_ + l.mid.length) % 32768 }).settlePe k c

/-- Words of a lane's head item fail the parity check when it is delivered (R194). -/
def State.laneUpset (s : State) (k c : Nat) (e : BitVec 8) : State :=
  let l := s.lane (k * 8 + c)
  match l.head with
  | [] => s
  | i :: rest => s.setLane (k * 8 + c) { l with head := i.hurt ((List.range 8).filter (fun j => e.toNat.testBit j)) :: rest }

/-- A block of items arrives in the head while the PE's store has room for it (R192), its words `lost` with an
uncorrectable error (R194). -/
def State.laneRefill (s : State) (k c : Nat) (lost : List (Fin 32)) : State :=
  let l := s.lane (k * 8 + c)
  if l.refill && !l.mid.isEmpty && decide (4 ≤ storeRoom (s.lanesOf k) (fun l => l.head.length) l.head.length) then
    let is := (l.mid.take 4).zipIdx.map (fun p =>
      p.1.hurt ((lost.filter (fun w => w.val / 8 == p.2)).map (fun w => w.val % 8)))
    (s.setLane (k * 8 + c) { l with head := l.head ++ is, mid := l.mid.drop 4 }).settlePe k c
  else s

end Sys2Proof.Machine
end

