-- ==== Sys2Proof/Machine/FrameLink.lean ====
section
/-! DEFINITION. The frame link of ports and Twikel links: line coding (R25, R276), frame header, CRC-32 and go-back-N retry
(R27, R28, R280, R285-R288), the transmitter's slots (R29, R279, R298), and link training (R26, R277, R278). -/

namespace Sys2Proof.Machine

/-! ### Line coding (R25, R276) -/

/-- A 66-bit block: the sync header 01 of a data block or 10 of a control block in bits [1:0], and its eight bytes. -/
def lineBlock (control : Bool) (payload : Nat) : Nat := (if control then 2 else 1) + payload % 2 ^ 64 * 4

/-- The data block that logical lane 4i + j of a port, or lane j of a Twikel link, carries in the block time of a frame: its
bytes 8j to 8j + 7. -/
def laneBlock (frame j : Nat) : Nat := lineBlock false (bitsOf frame (64 * j) 64)

/-- The scrambler x^58 + x^39 + 1 on the payload bits of a lane; its state holds the 58 bits sent last, newest first. -/
def scramble : List Bool → List Bool → List Bool
  | _, [] => []
  | st, b :: bs =>
    let c := b ^^ (st.getD 38 false ^^ st.getD 57 false)
    c :: scramble ((c :: st).take 58) bs

/-- The receiver's side of the scrambler; its state holds the 58 bits received last, newest first. -/
def descramble : List Bool → List Bool → List Bool
  | _, [] => []
  | st, c :: cs => (c ^^ (st.getD 38 false ^^ st.getD 57 false)) :: descramble ((c :: st).take 58) cs

/-! ### Frames -/

/-- A frame of `len` bytes from its bytes 0 to len - 5, with the CRC-32 at its end (R286, R27). -/
def mkFrame (len body : Nat) : Nat :=
  body % 2 ^ (8 * (len - 4)) + crc32 (leBytes (len - 4) body) * 2 ^ (8 * (len - 4))

/-- The CRC of a frame is good. -/
def frameOk (len f : Nat) : Bool := bitsOf f (8 * (len - 4)) 32 == crc32 (leBytes (len - 4) f)

def frameType (f : Nat) : Nat := bitsOf f 0 4
def frameSeq (f : Nat) : BitVec 8 := BitVec.ofNat 8 (bitsOf f 4 8)
def frameAck (f : Nat) : BitVec 8 := BitVec.ofNat 8 (bitsOf f 12 8)
def frameAckValid (f : Nat) : Bool := bitOf f 20
/-- `w` bits of a frame from bit `lo` of byte `b`. -/
def frameBits (f b lo w : Nat) : Nat := bitsOf f (8 * b + lo) w

/-- A frame as the link sends it: the header takes the sequence number and the last good frame (R280). -/
def FrameLink.dress (x : FrameLink) (len body seq : Nat) : Nat :=
  mkFrame len (setField (setField (setField body 4 8 seq) 12 8 (if x.any then (x.expect - 1).toNat else 0)) 20 1 (b2n x.any))

/-! ### The transmitter (R29, R279, R287, R298) -/

/-- The first slot boundary at or after a time (R279). -/
def slotAt (len t : Nat) : Nat := (t + len - 1) / len * len

/-- The transmitter's order: a replay; a tick, CONTROL, VERSION or EPOCH frame; CREDIT; RETRY, which the manual does not
rank; TOKENS; IDLE. (DEDUCED, log entry 66) -/
def rankReplay : Nat := 0
def rankTick : Nat := 1
def rankCredit : Nat := 2
def rankRetry : Nat := 3
def rankTokens : Nat := 4
def rankIdle : Nat := 5

/-- A frame is offered to the transmitter. -/
def FrameLink.offer (x : FrameLink) (rank ready body : Nat) : FrameLink :=
  { x with tx := x.tx ++ [{ rank := rank, ready := ready, body := body, num := none }] }

/-- While 128 frames are unacknowledged only IDLE frames and replays leave (R287 item 2). (DEDUCED, log entry 66) -/
def FrameLink.mayLeave (x : FrameLink) (t : TxFrame) : Bool :=
  t.num.isSome || t.rank == rankIdle || decide (x.replay.length < 128)

/-- The slot that a waiting frame could take. -/
def FrameLink.slotOf (x : FrameLink) (len : Nat) (t : TxFrame) : Nat := slotAt len (max x.free t.ready)

/-- The next slot that a waiting frame takes, and the frame: in one slot the lowest rank goes, then the frame offered
first. (DEDUCED, log entry 66) -/
def FrameLink.nextSlot (x : FrameLink) (len : Nat) : Option (Nat × TxFrame) :=
  (x.tx.filter x.mayLeave).foldl (fun a t =>
    match a with
    | none => some (x.slotOf len t, t)
    | some (b, u) =>
      if x.slotOf len t < b ∨ (x.slotOf len t = b ∧ t.rank < u.rank) then some (x.slotOf len t, t) else a) none

/-- A numbered frame leaves: it takes the next number and enters the replay buffer (R287 items 1 and 2). -/
def FrameLink.number (x : FrameLink) (len body : Nat) : FrameLink × Nat :=
  ({ x with replay := x.replay ++ [(x.nextSeq, body)], nextSeq := x.nextSeq + 1, owesAck := false },
   x.dress len body x.nextSeq.toNat)

/-- A waiting frame of `bytes` bytes leaves in a slot; an IDLE frame only when an acknowledgement is still owed (R287 item
3). A RETRY names the number expected in its slot. (DEDUCED, log entry 66) -/
def FrameLink.leave (x : FrameLink) (len bytes slot : Nat) (t : TxFrame) : FrameLink × Option Nat :=
  let y := { x with tx := x.tx.erase t, free := slot + len }
  match t.num with
  | some k => ({ y with owesAck := false }, some (x.dress bytes t.body k.toNat))
  | none =>
    if t.rank = rankIdle then
      (if x.owesAck then ({ y with owesAck := false }, some (x.dress bytes 0 0)) else ({ x with tx := x.tx.erase t }, none))
    else if t.rank = rankRetry then ({ y with owesAck := false }, some (x.dress bytes (5 + x.expect.toNat * 2 ^ 32) 0))
    else
      let r := y.number bytes t.body
      (r.1, some r.2)

/-- The frames that leave in slots before a time, with their slots. -/
def FrameLink.sendUntil : Nat → Nat → Nat → Nat → FrameLink → FrameLink × List (Nat × Nat)
  | 0, _, _, _, x => (x, [])
  | k + 1, len, bytes, until_, x =>
    match x.nextSlot len with
    | none => (x, [])
    | some (a, t) =>
      if until_ ≤ a then (x, [])
      else
        let y := x.leave len bytes a t
        let r := FrameLink.sendUntil k len bytes until_ y.1
        (r.1, (y.2.toList.map (fun f => (f, a))) ++ r.2)

/-- The ack of a good frame is taken (R285, R287): every frame up to it leaves the replay buffer. -/
def FrameLink.takeAck (x : FrameLink) (f : Nat) : FrameLink :=
  if frameAckValid f && x.replay.any (fun p => p.1 == frameAck f) then
    let r := (x.replay.dropWhile (fun p => p.1 != frameAck f)).drop 1
    { x with replay := r,
             tx := x.tx.filter (fun t => match t.num with | none => true | some k => r.any (fun p => p.1 == k)) }
  else x

/-- A RETRY is sent: the receiver discards until the expected frame comes (R287 item 4). -/
def FrameLink.retry (x : FrameLink) (now : Nat) : FrameLink :=
  { x.offer rankRetry now 0 with discarding := true, retries := x.retries + 1, retryAt := now }

/-- The receiver discards, and its RETRY waits because 128 frames are unacknowledged. -/
def FrameLink.holdRetry (x : FrameLink) : FrameLink := { x with discarding := true, retryAt := 0 }

/-- The frames that a RETRY makes the sender send again, in order from the named number (R287 item 5). -/
def FrameLink.again (x : FrameLink) (now from_ : Nat) : FrameLink :=
  { x with tx := x.tx.filter (fun t => t.num.isNone) ++
      (x.replay.dropWhile (fun p => p.1.toNat != from_)).map (fun p =>
        { rank := rankReplay, ready := now, body := p.2, num := some p.1 }) }

/-- The end of the slot in which an acknowledgement becomes due, 32 slots after the frame (R287 item 3). -/
def FrameLink.ackDue (x : FrameLink) (len : Nat) : Nat := (x.ackAt / len + 32) * len

/-- A timebase load moves every time of a link with it (R371). -/
def moveTime (old new t : Nat) : Nat := t + new - old
def FrameLink.move (old new : Nat) (x : FrameLink) : FrameLink :=
  { x with tx := x.tx.map (fun t => { t with ready := moveTime old new t.ready }), free := moveTime old new x.free,
           retryAt := moveTime old new x.retryAt, ackAt := moveTime old new x.ackAt }

/-! ### The receiver -/

/-- What the receiver makes of a numbered frame (R287 item 4): in order, already received, or out of sequence. -/
inductive SeqVerdict where
  | inOrder | old | gap
deriving DecidableEq, Repr

def FrameLink.judge (x : FrameLink) (f : Nat) : SeqVerdict :=
  if frameSeq f = x.expect then .inOrder
  else if (x.expect - frameSeq f).toNat ≤ 128 then .old
  else .gap

/-- A numbered frame taken in order at a time. -/
def FrameLink.accept (x : FrameLink) (now : Nat) : FrameLink :=
  { x with expect := x.expect + 1, any := true, discarding := false, retries := 0, owesAck := true,
           ackAt := if x.owesAck then x.ackAt else now }

/-! ### Training (R26, R277, R278) -/

/-- Training starts: every count is clear. -/
def FrameLink.begin (now : Nat) : FrameLink := { FrameLink.reset with trainStart := now }

/-- The XOR of the bytes 0-6 of a training block. -/
def blkXor (b : Nat) : Nat := (List.range 7).foldl (fun a i => Nat.xor a (bitsOf b (8 * i) 8)) 0
/-- The block's check byte is good. -/
def blkOk (b : Nat) : Bool := blkXor b == bitsOf b 56 8

/-- The bytes of a training block with its check byte: bytes 0 to 6 (R26, R277). -/
def trainBytes (bs : List Nat) : Nat :=
  bs.zipIdx.foldl (fun a p => a + p.1 % 256 * 2 ^ (8 * p.2)) 0 + bs.foldl (fun a b => Nat.xor a (b % 256)) 0 * 2 ^ 56

/-- A lane has block lock after 64 valid sync headers in a row (R278 item 1). (DEDUCED, log entry 67) -/
def FrameLink.locked (x : FrameLink) (lane : Nat) : Bool := decide (64 ≤ lget 0 x.sync lane)

/-- A sync header is valid: 01 or 10 (R276). In training every block is a control block, so 01 tells an inverted lane. -/
def syncOk (h : BitVec 2) : Bool := h == 1 || h == 2

/-- A count of a lane. -/
def bumpAt (l : List Nat) (n i : Nat) : List Nat :=
  let m := if l.length < n then l ++ List.replicate (n - l.length) 0 else l
  lset m i (lget 0 m i + 1)

/-- Every lane has reached a count. -/
def allAtLeast (l : List Nat) (n k : Nat) : Bool := decide (l.length = n) && l.all (fun c => decide (k ≤ c))

/-- The lane order seen so far is straight or fully reversed (R278 item 2): lane k of n carries m. -/
def laneOrderOk (lanes : List (Option Nat)) (n : Nat) : Bool :=
  (List.range n).all (fun k => match lget none lanes k with | some m => m == k | none => true) ||
  (List.range n).all (fun k => match lget none lanes k with | some m => m + k + 1 == n | none => true)

/-- The order is the reversed one (and not the straight one). -/
def laneReversed (lanes : List (Option Nat)) (n : Nat) : Bool :=
  !(List.range n).all (fun k => match lget none lanes k with | some m => m == k | none => true)

/-- Sets the lane number that a physical lane carries. -/
def setLaneNo (lanes : List (Option Nat)) (n k m : Nat) : List (Option Nat) :=
  lset (if lanes.length < n then lanes ++ List.replicate (n - lanes.length) none else lanes) k (some m)

end Sys2Proof.Machine
end

