-- ==== Sys2Proof/Machine/Route.lean ====
section
/-! DEFINITION. Where tokens and replies go: the reply path (R346-R352), the host sink (R46), die-link token queues
(R22, R191), and the Twikel transmitter (R22, R27, R29, R423). -/

namespace Sys2Proof.Machine

/-! ### Functions, queue pairs and rings -/


def State.qpOn (s : State) (q : Nat) : Bool := s.flag (qpOff q 0x14) 0
/-- Ring sizes (R346). -/
def State.sqSize (s : State) (q : Nat) : Nat := 2 ^ s.fld (qpOff q 0x10) 0 4
def State.cqSize (s : State) (q : Nat) : Nat := 2 ^ s.fld (qpOff q 0x10) 4 4
def State.sqBase (s : State) (q : Nat) : Nat := s.reg (qpOff q 0x00) + s.reg (qpOff q 0x04) * 2 ^ 32
def State.cqBase (s : State) (q : Nat) : Nat := s.reg (qpOff q 0x08) + s.reg (qpOff q 0x0C) * 2 ^ 32
/-- The completion ring is full (R348). -/
def State.cqFull (s : State) (q : Nat) : Bool :=
  ((s.qp q).cqTail + 1) % s.cqSize q == (s.qp q).cqHead

/-- The 32 bytes of a reply (R352), phase 0. -/
def replyBytes (status tag kind opcode : Nat) (w0 w1 w2 : PWord) : List Byte :=
  let word (w : PWord) : List Byte := leBytes 8 (w.v.toNat + b2n w.p * 2 ^ 63)
  leBytes 2 status ++ leBytes 2 tag ++ leBytes 1 kind ++ leBytes 1 0 ++ leBytes 2 opcode ++ word w0 ++ word w1 ++ word w2

/-- The eight queue words of a reply (R191 class 4). -/
def replyWords (bs : List Byte) : List PWord :=
  (List.range 8).map (fun j => PWord.clean (BitVec.ofNat 36 (leAt bs (4 * j) 4)))

/-- The bytes of eight queue words, with the phase bit (R348). -/
def ringBytes (ws : List PWord) (phase : Bool) : List Byte :=
  let bs := (ws.map (fun w => leBytes 4 w.v.toNat)).flatten
  lset bs 5 (BitVec.ofNat 8 (b2n phase))

/-- The completion slot of a reply is written and the tail moves; the phase inverts at the wrap (R348). -/
def State.ringPut (s : State) (q : Nat) (ws : List PWord) : State :=
  let x := s.qp q
  let t := (x.cqTail + 1) % s.cqSize q
  (s.emit (.hostWrite (s.cqBase q + 32 * x.cqTail) (ringBytes ws x.phase) (s.flag (qpOff q 0x14) 2) (qpFn q))).setQp q
    { x with cqTail := t, phase := if t = 0 then !x.phase else x.phase }

/-- The ring writer moves complete replies to the completion ring while it has room (R348). -/
def State.ringDrain : Nat → State → Nat → State × Bool
  | 0, s, _ => (s, false)
  | k + 1, s, q =>
    if s.cqFull q then (s, false)
    else match s.siltTake (272 + q) 4 with
      | none => (s, false)
      | some (w, s1) =>
        let x := s1.queue (272 + q)
        let asm := x.asm ++ [w]
        if w.mark = .abort then State.ringDrain k (s1.setQueue (272 + q) { x with asm := [] }) q
        else if w.eop then
          let s2 := ((s1.setQueue (272 + q) { x with asm := [] }).noteLost (272 + q) w).ringPut q (asm.map (fun v => v.w))
          ((State.ringDrain k s2 q).1, true)
        else
          let s2 := (s1.setQueue (272 + q) { x with asm := asm }).noteLost (272 + q) w
          match State.ringDrain k s2 q with
          | (s3, b) => (s3, b)

/-- Replies queued and visible (R348). -/
def State.repliesQueued (s : State) (q : Nat) : Nat :=
  ((s.queue (272 + q)).head.filter (fun w => w.eop)).length

/-- The ring writer writes what it holds and signals the pair's vector; replies that a full ring stops wait (R348). -/
def State.ringWrite (s : State) (q : Nat) : State :=
  if (s.queue (272 + q)).diag then s
  else
    let r := State.ringDrain 1024 s q
    let s1 := r.1.setQp q { r.1.qp q with writing := r.1.cqFull q && decide (0 < r.1.repliesQueued q) }
    if r.2 then s1.msi (qpFn q) (s.fld (qpOff q 0x14) 5 11) else s1

/-- A reply enters the pair's class 4 queue; 16 queued replies are written (R348). A disabled pair's replies are
discarded (R349), and in fatal hold no reply is sent (R390). -/
def State.pushReply (s : State) (q : Nat) (bs : List Byte) : State :=
  if s.qpOn q && s.start.state != 3 then
    let s1 := State.pushAll 64 (s.offer (272 + q) (replyWords bs)) (272 + q) 4
    if 16 ≤ s1.repliesQueued q then s1.ringWrite q else s1
  else s

/-- The pair is stalled: its class 4 queue refuses replies (R348). -/
def State.stalled (s : State) (q : Nat) : Bool := !(s.queue (272 + q)).inbox.isEmpty || (s.queue (272 + q)).full 4

/-- A sink token that is discarded (R46). -/
def State.straySink (s : State) (t : Token) : State :=
  (s.bump (fabOff 0x408) 0 32 1).event 0 6 (fabOff 0x408) 0 0 (tagDetail t.cid.toNat t.ip.toNat t.colour.toNat)

/-- A well-formed token for the host sink becomes a reply (R46). (DEDUCED, log entry 13) -/
def State.hostSink (s : State) (t : Token) : State :=
  if bitsOf t.ip.toNat 16 4 == 0 && bitsOf t.colour.toNat 6 6 == 0 && t.port == 0 then
    s.pushReply (bitsOf t.colour.toNat 0 6) (replyBytes 0 (bitsOf t.ip.toNat 0 16) 1 0 t.val PWord.zero PWord.zero)
  else s.straySink t

/-! ### Twikel transmitter -/

/-- Bytes 8 + 16k to 23 + 16k of a TOKENS frame (R27). -/
def tokenSlot (t : Token) (hops : Nat) : Nat :=
  t.cid.toNat + t.ip.toNat * 2 ^ 24 + t.colour.toNat * 2 ^ 44 + t.port.toNat * 2 ^ 56 + t.cls.toNat * 2 ^ 58 +
  (t.val.v.toNat + t.pkg.toNat * 2 ^ 36 + hops * 2 ^ 40 + b2n t.val.p * 2 ^ 63) * 2 ^ 64

/-- A TOKENS frame of one to three tokens (R27). -/
def tokensFrame (ts : List (Token × Nat)) : Nat :=
  1 + ts.length * 2 ^ 32 + (ts.zipIdx.foldl (fun a p => a + tokenSlot p.1.1 p.1.2 * 2 ^ (8 * (8 + 16 * p.2))) 0)

/-- The next token that may leave: the highest class with a token and a credit (R29). -/
def Twk.pick (x : Twk) : Option (Nat × Token × Nat × Twk) :=
  match [7, 6, 5, 4, 3, 2, 1, 0].find? (fun c => !(lget [] x.txBuf c).isEmpty && decide (0 < lget 0 x.credits c)) with
  | none => none
  | some c =>
    match lget [] x.txBuf c with
    | [] => none
    | t :: rest =>
      some (c, t.1, t.2, { x with txBuf := lset x.txBuf c rest, credits := lset x.credits c (lget 0 x.credits c - 1) })

/-- The tokens of one frame, at most n. -/
def Twk.gather : Nat → Twk → List (Token × Nat) × Twk
  | 0, x => ([], x)
  | n + 1, x =>
    match x.pick with
    | none => ([], x)
    | some (_, t, h, y) =>
      let r := Twk.gather n y
      ((t, h) :: r.1, r.2)

/-- The length of a Twikel frame slot in 1/64 ns (R25). -/
def twkSlot : Nat := 132

/-- The slot that a TOKENS frame could take, of those from a time on (R29). -/
def Twk.tokenSlot (x : Twk) (from_ : Nat) : Option Nat :=
  if x.up && decide (x.fl.replay.length < 128) && x.pick.isSome then some (slotAt twkSlot (max x.fl.free from_)) else none

/-- The frames of a Twikel link that leave in slots before a time: the waiting frames, and TOKENS frames, which are made for
their slot (R29). -/
def Twk.sendUntil : Nat → Nat → Nat → Twk → Twk × List (Nat × Nat)
  | 0, _, _, x => (x, [])
  | k + 1, from_, until_, x =>
    let other (a : Nat) (t : TxFrame) : Twk × List (Nat × Nat) :=
      if until_ ≤ a then (x, [])
      else
        let y := x.fl.leave twkSlot 64 a t
        let r := Twk.sendUntil k from_ until_ { x with fl := y.1 }
        (r.1, y.2.toList.map (fun f => (f, a)) ++ r.2)
    let tokens (b : Nat) : Twk × List (Nat × Nat) :=
      if until_ ≤ b then (x, [])
      else
        let g := x.gather 3
        let y := { g.2.fl with free := b + twkSlot }.number 64 (tokensFrame g.1)
        let r := Twk.sendUntil k from_ until_ { g.2 with fl := y.1 }
        (r.1, (y.2, b) :: r.2)
    match x.fl.nextSlot twkSlot, x.tokenSlot from_ with
    | none, none => (x, [])
    | some (a, t), none => other a t
    | none, some b => tokens b
    | some (a, t), some b => if a < b ∨ (a = b ∧ t.rank < rankTokens) then other a t else tokens b

/-- Tokens in the transmit buffers. -/
def Twk.held (x : Twk) : Nat := x.txBuf.foldl (fun k l => k + l.length) 0

/-- The slots of a Twikel link before a time. -/
def State.twkSend (s : State) (n from_ until_ : Nat) : State :=
  let x := s.twk n
  if x.fl.tx.isEmpty && x.held == 0 then s
  else
    let r := Twk.sendUntil (x.fl.tx.length + x.held) from_ until_ x
    r.2.foldl (fun t f => t.emit (.twkFrame n f.1 f.2)) (s.setTwk n r.1)

/-- A frame waits for a slot of a Twikel link. -/
def State.twkQueue (s : State) (n rank ready body : Nat) : State :=
  s.setTwk n { s.twk n with fl := (s.twk n).fl.offer rank ready body }

/-- The Twikel link that carries the tokens for a package (R30). -/
def State.linkOf (s : State) (t : Token) : Nat := s.fld (hostOff (0x40 + 4 * t.pkg.toNat)) 0 2

/-- A token that its package sends or forwards over Twikel: none when the transmit buffer of its class is full (R29);
discarded, counted and recorded when no link carries it (R30). -/
def State.twkOffer (s : State) (t : Token) (hops : Nat) : Option State :=
  let n := s.linkOf t
  let x := s.twk n
  if n ≥ 2 || !x.up || !x.compat || decide (hops > 15) then
    some ((s.bump (hostOff 0x80) 0 32 1).event 0 6 (hostOff 0x80) 0 0 (tagDetail t.cid.toNat t.ip.toNat t.colour.toNat))
  else if (lget [] x.txBuf t.cls.toNat).length < 256 then
    some (s.setTwk n { x with txBuf := lset x.txBuf t.cls.toNat (lget [] x.txBuf t.cls.toNat ++ [(t, hops)]) })
  else none

/-- A token that its sender has just sent waits behind every token of its class for the same link that a receive path still
holds (R31): hub links' receive paths and the Twikel receive buffers. -/
def State.linkWaits (s : State) (own : Nat) (t : Token) : Bool :=
  let same (u : Token) : Bool := u.pkg.toNat != own && u.cls == t.cls && s.linkOf u == s.linkOf t
  t.pkg.toNat != own &&
    ((List.range 6).any (fun i => (s.dir (hubUp i)).stuck.any same) || s.tws.any (fun x => x.rxBuf.any (fun l => l.any (fun r => same r.1))))

/-! ### The slots of the ports -/

def State.pfpBond (s : State) (p : Nat) : Nat := 2 ^ s.fld (pfpOff p 0x04) 1 2

/-- The length of a frame slot in units of 1/64 ns (R276, R279). -/
def State.slotLen (s : State) (p : Nat) : Nat := 132 / s.pfpBond p

/-- The slots of a port before a time. -/
def State.portSend (s : State) (p until_ : Nat) : State :=
  let x := s.port p
  if x.fl.tx.isEmpty then s
  else
    let r := FrameLink.sendUntil x.fl.tx.length (s.slotLen p) 32 until_ x.fl
    r.2.foldl (fun t f => t.emit (.pfpFrame p f.1 f.2)) (s.setPort p { x with fl := r.1 })

/-- The slots of every frame link that begin before a time; no slot before `from_` is left to TOKENS frames (R29, R298). -/
def State.transmit (s : State) (from_ until_ : Nat) : State :=
  [0, 1].foldl (fun t n => t.twkSend n from_ until_) ((List.range 16).foldl (fun t p => t.portSend p until_) s)

/-! ### Tokens inside the package -/

def State.ownPkg (s : State) : Nat := s.fld (hostOff 4) 0 4

/-- The three words of a token item (R193). -/
def tokenItem (t : Token) : List PWord :=
  [.clean (BitVec.ofNat 36 (t.cid.toNat + t.colour.toNat * 2 ^ 24)),
   .clean (BitVec.ofNat 36 (t.ip.toNat + t.port.toNat * 2 ^ 20 + t.cls.toNat * 2 ^ 22 + t.pkg.toNat * 2 ^ 25)),
   t.val]

/-- The token of a token item. -/
def itemToken (ws : List PWord) : Token :=
  let w (k : Nat) : Word := (lget PWord.zero ws k).v
  { cid := BitVec.ofNat 24 (fieldOf (w 0) 0 24), colour := BitVec.ofNat 12 (fieldOf (w 0) 24 12),
    ip := BitVec.ofNat 20 (fieldOf (w 1) 0 20), port := BitVec.ofNat 2 (fieldOf (w 1) 20 2),
    cls := BitVec.ofNat 3 (fieldOf (w 1) 22 3), pkg := BitVec.ofNat 4 (fieldOf (w 1) 25 4), val := lget PWord.zero ws 2 }

/-- The die (6: Bedrock) that a token goes to within this package (R22, R46, R47). -/
def State.tokenDest (s : State) (t : Token) : Nat :=
  if t.pkg.toNat ≠ s.ownPkg || t.cid == BitVec.allOnes 24 then 6 else s.homeOf t.cid.toNat

/-- A token waits at a link direction in its class's queue (R191 class 1). -/
def State.linkToken (s : State) (d : Nat) (t : Token) : State := s.offer (d * 8 + t.cls.toNat) (tokenItem t)

/-- A token for a die that is down is discarded (R48). -/
def State.strayToken (s : State) : State := s.bump (fabOff 0x408) 0 32 1

/-- A token for the host sink of this package names a queue pair of another function than the owner of its graph (R46).
A token flit carries no graph (R18), so this is decided where the token is sent (DEDUCED, log entry 13). -/
def State.sinkForeign (s : State) (g : Nat) (t : Token) : Bool :=
  t.pkg.toNat == s.ownPkg && t.cid == BitVec.allOnes 24 && qpFn (bitsOf t.colour.toNat 0 6) != (s.graph g).owner

/-- A token of a firing of graph g on die n leaves its PE (R22, R48, R58 step 5). -/
def State.sendToken (s : State) (n g : Nat) (t : Token) : State :=
  let h := s.tokenDest t
  if s.sinkForeign g t then s.straySink t
  else if h = n then s.updDie n (fun d => { d with arr := d.arr ++ [t] })
  else if h < 6 && !(s.die h).up then s.strayToken
  else s.linkToken (s.nextHop n h) t

/-- A token that Bedrock sends on: to the host sink, to a Twikel link, or to its home die. None when it cannot move on
(R29). -/
def State.bedrockToken (s : State) (t : Token) : Option State :=
  if t.pkg.toNat ≠ s.ownPkg then s.twkOffer t 0
  else if t.cid == BitVec.allOnes 24 then some (s.hostSink t)
  else
    let h := s.homeOf t.cid.toNat
    if (s.die h).up then some (s.linkToken (hubDown h) t) else some s.strayToken

/-- The present-die mask (R461). -/
def State.presentMask (s : State) : Nat :=
  maskOf 6 (fun n => (s.die n).up) + (if s.sealPort.up then 64 else 0)

/-- The function or die that reads a window (R35, R41), and the value of a word of a read-only window; words 0 and 2 of
the time window capture. -/
def State.windowRead (s : State) (req : Nat) : AddrKind → State × PWord
  | .time 0 =>
    let c := tget (0, 0) s.capture req
    ({ s with capture := tput (0, 0) s.capture req (s.now / 2 ^ 36, c.2) }, .clean (BitVec.ofNat 36 s.now))
  | .time 1 => (s, .clean (BitVec.ofNat 36 (tget (0, 0) s.capture req).1))
  | .time 2 =>
    let c := tget (0, 0) s.capture req
    ({ s with capture := tput (0, 0) s.capture req (c.1, s.clk.epoch.toNat / 2 ^ 36) },
      .clean (BitVec.ofNat 36 s.clk.epoch.toNat))
  | .time _ => (s, .clean (BitVec.ofNat 36 (tget (0, 0) s.capture req).2))
  | .ident 0 => (s, .clean (BitVec.ofNat 36 s.ownPkg))
  | .ident _ => (s, .clean (BitVec.ofNat 36 s.presentMask))
  | .home i => (s, .clean (BitVec.ofNat 36 (s.fld (fabOff (4 * i)) 0 3)))
  | _ => (s, PWord.zero)

end Sys2Proof.Machine
end

