-- ==== Sys2Proof/Machine/Match.lean ====
section
/-! DEFINITION. The Matching Store (R159-R176): set index, arrivals, folding, overflow chains, parity. -/

namespace Sys2Proof.Machine

/-! ### What an arrival sees of the instruction (R163) -/

/-- The opcode bits of a slot. -/
def State.opAt (s : State) (n ip : Nat) : Nat := bitsOf (s.slot n ip).bits 63 9

/-- The slot holds a REP prefix (R90): its opcode bits say so, whatever its format and parity. (DESIGN CHOICE, log entry
62) -/
def State.prefixAt (s : State) (n ip : Nat) : Bool := s.opAt n ip == 0x1F0 || s.opAt n ip == 0x1F1

/-- The slot is slot P + 1 of a repeated pair of the same graph (R90). -/
def State.afterPrefix (s : State) (n ip : Nat) : Bool :=
  let g := s.graph (s.graphOfIp ip)
  decide (0 < ip) && g.holds ip && g.holds (ip - 1) && s.prefixAt n (ip - 1)

def viewNow : View := { need := [], toka := none, now := true }

def viewOf (r : OpRow) (i : Insn) : View :=
  if tokaBad r i then viewNow
  else { need := needPorts r i, toka := (tokaPort r i).map (fun p => (p.1, p.2, tokaCount i p.2)), now := false }

/-- The row of an opcode that the map leaves undefined: every specifier of its format counts. (DEDUCED, log entry 60) -/
def unknownRow : OpRow := ⟨0, .mov, false, [], true, .input, 2⟩

/-- What the slice reads of the specifiers of one slot: an opcode or a format that the decode refuses still has the
specifiers of its format (R163, R164). (DEDUCED, log entry 60) -/
def slotView (x : Slot) : View :=
  if !x.parityOk then viewNow
  else match fmtOf (bitsOf x.bits 60 3) with
    | none => { need := [], toka := none, now := false }
    | some f =>
      let r := (opRowOf (bitsOf x.bits 63 9)).getD unknownRow
      viewOf r (insnOf r f x.bits)

/-- The slice's view of the instruction at an IP (R163, R85, R90). -/
def State.sliceView (s : State) (n ip : Nat) : View :=
  if s.afterPrefix n ip then viewNow
  else match readSlot (s.slot n ip) with
    | .ok r i => if i.fmt = .px then slotView (s.slot n ((ip + 1) % 2 ^ 20)) else viewOf r i
    | .bad _ => slotView (s.slot n ip)

/-- The view of an instruction through the decode cache (R163): a hit is used as it stands, a miss reads the Instruction
Store and fills the entry; a view that enables at once is not kept. (DEDUCED, log entry 60) -/
def State.sliceLook (s : State) (n ip : Nat) : State × View :=
  match (tfind (s.die n).dcache (ip % 4096)).filter (fun p => p.1 == ip) with
  | some p => (s, p.2)
  | none =>
    let s1 := (s.accessNow (isBank n ip)).1
    let v := s1.sliceView n ip
    (if v.now then s1 else s1.updDie n (fun d => { d with dcache := tins d.dcache (ip % 4096) (ip, v) }), v)

/-- The entries of IPs in a range are invalid (R163). -/
def Die.forget (base slots : Nat) (d : Die) : Die :=
  { d with dcache := d.dcache.filter (fun p => !(decide (base ≤ p.2.1) && decide (p.2.1 < base + slots))) }

/-! ### Set index (R161) -/

/-- The set of an instance under a seed (R161). -/
def setIndex (seed cid ip colour : Nat) : Nat :=
  let k := cid * 2 ^ 32 + ip * 2 ^ 12 + colour
  let x := (Nat.xor k seed * 0x9F1D6B57C3A82E4D) % 2 ^ 64
  let y := Nat.xor x (x / 2 ^ 32)
  Nat.xor (Nat.xor (bitsOf y 0 18) (bitsOf y 18 18)) (Nat.xor (bitsOf y 36 18) (bitsOf y 54 10))

def State.seed (s : State) (n : Nat) : Nat := s.reg (lmOff n 0x400) + s.reg (lmOff n 0x404) * 2 ^ 32

/-! ### Entries -/

/-- The five parity bits of an entry (R160). -/
def MsEntry.parity (e : MsEntry) : BitVec 5 :=
  let ctl := e.pmask.toNat + b2n e.acc * 2 ^ 3 + e.fop.toNat * 2 ^ 4 + b2n e.sgn * 2 ^ 7 + e.rem.toNat * 2 ^ 8 +
    b2n e.ovf * 2 ^ 39
  BitVec.ofNat 5 (16 * b2n (parityOf 24 e.cid.toNat) + 8 * b2n (parityOf 32 (e.ip.toNat + e.colour.toNat * 2 ^ 20)) +
    4 * b2n (parityOf 40 ctl) + 2 * b2n (parityOf 18 (fieldOf e.val.v 18 18)) + b2n (parityOf 18 (fieldOf e.val.v 0 18)))

/-- An entry with good parity. (DESIGN CHOICE, log entry 53) -/
def MsEntry.sealed (e : MsEntry) : MsEntry := { e with par := e.parity }

/-- Which parity groups of an entry are bad: CID, tag or control, value (R175). -/
def MsEntry.badCid (e : MsEntry) : Bool := bitOf e.par.toNat 4 != bitOf e.parity.toNat 4
def MsEntry.badTag (e : MsEntry) : Bool := bitsOf e.par.toNat 2 2 != bitsOf e.parity.toNat 2 2
def MsEntry.badVal (e : MsEntry) : Bool := bitsOf e.par.toNat 0 2 != bitsOf e.parity.toNat 0 2

/-- The entry as an operation uses it: a value with bad parity is poisoned (R175). -/
def MsEntry.seen (e : MsEntry) : MsEntry := if e.badVal then { e with val := { e.val with p := true } } else e

/-- The port of an entry: its mask has one bit (R160). -/
def MsEntry.port (e : MsEntry) : Nat := if bitOf e.pmask.toNat 0 then 0 else if bitOf e.pmask.toNat 1 then 1 else 2

/-- The entry belongs to the instance of a token. -/
def MsEntry.isOf (e : MsEntry) (t : Token) : Bool :=
  e.valid && e.cid == t.cid && e.ip == t.ip && e.colour == t.colour

/-- The chain record of an entry (R168): next link and set. -/
def recWords (e : MsEntry) (next set : Nat) : List PWord :=
  [.clean (BitVec.ofNat 36 (e.cid.toNat + e.colour.toNat * 2 ^ 24)),
   .clean (BitVec.ofNat 36 (e.ip.toNat + e.port * 2 ^ 20 + b2n e.acc * 2 ^ 22 + b2n e.ovf * 2 ^ 23 +
     e.fop.toNat * 2 ^ 24 + b2n e.sgn * 2 ^ 27 + 2 ^ 28)),
   e.val, .clean (BitVec.ofNat 36 e.rem.toNat), .clean (BitVec.ofNat 36 next), .clean (BitVec.ofNat 36 set),
   PWord.zero, PWord.zero]

/-- The entry of a chain record's words 0-3 (R168). -/
def recEntry (ws : List PWord) : MsEntry :=
  let w (k : Nat) : Word := (lget PWord.zero ws k).v
  MsEntry.sealed
  { valid := true, cid := BitVec.ofNat 24 (fieldOf (w 0) 0 24), ip := BitVec.ofNat 20 (fieldOf (w 1) 0 20),
    colour := BitVec.ofNat 12 (fieldOf (w 0) 24 12), pmask := BitVec.ofNat 3 (2 ^ fieldOf (w 1) 20 2),
    acc := bitOf (w 1).toNat 22, fop := BitVec.ofNat 3 (fieldOf (w 1) 24 3), sgn := bitOf (w 1).toNat 27,
    rem := BitVec.ofNat 31 (fieldOf (w 3) 0 31), ovf := bitOf (w 1).toNat 23, val := lget PWord.zero ws 2,
    par := 0 }

/-- The base word of a die's overflow region (R167). -/
def State.regionBase (s : State) (n : Nat) : Nat := s.fld (lmOff n 0x424) 0 6 * 2 ^ 29
def State.recAddr (s : State) (n r : Nat) : Nat := s.regionBase n + 8 * r

/-- The records of a chain from an index, newest first; `none` at a word read poisoned (R175). -/
def State.chainFrom (s : State) (n : Nat) : Nat → Nat → Option (List (Nat × MsEntry))
  | 0, _ => some []
  | k + 1, r =>
    if r = 0 then some []
    else
      let ws := s.rds (s.recAddr n r) 5
      if (lget PWord.zero ws 0).p || (lget PWord.zero ws 1).p || (lget PWord.zero ws 3).p || (lget PWord.zero ws 4).p
      then none
      else (s.chainFrom n k (fieldOf (lget PWord.zero ws 4).v 0 26)).map (fun l => (r, recEntry ws) :: l)

/-- The chain of a set; empty while its overflow bit is 0 (R167). -/
def State.chain (s : State) (n set : Nat) : Option (List (Nat × MsEntry)) :=
  if (s.mset n set).ovf then
    let h := s.rd (s.regionBase n + set)
    if h.p then none else s.chainFrom n ((s.die n).chainUsed + 1) (fieldOf h.v 0 26)
  else some []

/-- An entry of an instance with its place: a way of the set, or a chain record. -/
structure Ent where
  inSet : Bool
  idx : Nat
  e : MsEntry
deriving DecidableEq, Repr

/-- The entries of a token's instance in the ways of a set. -/
def MsSet.entsOf (x : MsSet) (t : Token) : List Ent :=
  (x.ways.zipIdx.filter (fun p => p.1.isOf t)).map (fun p => { inSet := true, idx := p.2, e := p.1.seen })

/-! ### Occupancy (R176) -/

def State.addOcc (s : State) (n : Nat) : State :=
  s.updDie n (fun d => { d with occ := d.occ + 1, hwm := max d.hwm (d.occ + 1) })

/-- A way is written or freed. -/
def State.putWay (s : State) (n set i : Nat) (e : MsEntry) : State :=
  let x := s.mset n set
  let s1 := s.setMset n set { x with ways := lset x.ways i e }
  let was := (lget MsEntry.empty x.ways i).valid
  if e.valid && !was then s1.addOcc n
  else if !e.valid && was then s1.updDie n (fun d => { d with occ := d.occ - 1 })
  else s1

/-- A chain whose words read poisoned is abandoned (R175). -/
def State.abandonChain (s : State) (n set tag : Nat) : State :=
  ((s.setMset n set { s.mset n set with ovf := false }).updDie n (fun d => { d with ovfSets := d.ovfSets - 1 })).event 3 n
    (lmOff n 0x430) 16 0 tag

/-- The record whose link is r, walking from a record. -/
def State.linkBefore (s : State) (n r : Nat) : Nat → Nat → Option Nat
  | 0, _ => none
  | k + 1, i =>
    let next := fieldOf (s.rd (s.recAddr n i + 4)).v 0 26
    if i = 0 then none else if next = r then some i else s.linkBefore n r k next

/-- A chain record is unlinked and pushed onto the free chain (R169); an empty chain clears the overflow bit (R166). The
period of a full region begins anew (R215). -/
def State.freeRec (s : State) (n set r : Nat) : State :=
  let head := fieldOf (s.rd (s.regionBase n + set)).v 0 26
  let next := fieldOf (s.rd (s.recAddr n r + 4)).v 0 26
  let s1 := if head = r then s.wr (s.regionBase n + set) (.clean (BitVec.ofNat 36 next))
    else match s.linkBefore n r (s.die n).chainUsed head with
      | some p => s.wr (s.recAddr n p + 4) (.clean (BitVec.ofNat 36 next))
      | none => s
  let s2 := (s1.wr (s.recAddr n r + 1) PWord.zero).wr (s.recAddr n r + 4) (.clean (BitVec.ofNat 36 (s.die n).freeHead))
  let s3 := s2.updDie n (fun d => { d with freeHead := r, chainUsed := d.chainUsed - 1,
                                           regionSince := d.regionSince.map (fun _ => s.period n) })
  if head = r ∧ next = 0 then
    (s3.setMset n set { s3.mset n set with ovf := false }).updDie n (fun d => { d with ovfSets := d.ovfSets - 1 })
  else s3

/-- Removes an entry from its place. -/
def State.dropEnt (s : State) (n set : Nat) (x : Ent) : State :=
  if x.inSet then s.putWay n set x.idx MsEntry.empty else s.freeRec n set x.idx

/-- Writes an updated entry to its place (R169: a fold in the chain writes words 1, 2 and 3). -/
def State.putEnt (s : State) (n set : Nat) (x : Ent) (e : MsEntry) : State :=
  if x.inSet then s.putWay n set x.idx e.sealed
  else
    let ws := recWords e 0 0
    s.wrs (s.recAddr n x.idx + 1) (ws.drop 1 |>.take 3)

/-- A record for an insert: the free chain, else the bump index (R169); none when the region is full (R170). -/
def State.allocRec (s : State) (n : Nat) : Option (Nat × State) :=
  let d := s.die n
  if d.freeHead ≠ 0 then
    some (d.freeHead, s.setDie n { d with freeHead := fieldOf (s.rd (s.recAddr n d.freeHead + 4)).v 0 26 })
  else if d.bump < 67108864 then some (d.bump, s.setDie n { d with bump := d.bump + 1 })
  else none

/-- The link of the record that an insert pops reads poisoned (R175). (DEDUCED, log entry 60) -/
def State.badPop (s : State) (n : Nat) : Bool :=
  (s.die n).freeHead != 0 && (s.rd (s.recAddr n (s.die n).freeHead + 4)).p

/-- An insert takes the lowest free way, else a chain record (R166, R169); none when the region is full. A poisoned link
of the popped record ends it as R175 ends a walk. (DEDUCED, log entry 60) -/
def State.insert (s : State) (n set : Nat) (e : MsEntry) : Option State :=
  let x := s.mset n set
  match x.ways.findIdx? (fun w => !w.valid) with
  | some i => some (s.putWay n set i e.sealed)
  | none =>
    if s.badPop n then some (s.abandonChain n set (tagDetail e.cid.toNat e.ip.toNat e.colour.toNat))
    else match s.allocRec n with
    | none => none
    | some (r, s1) =>
      let old := if x.ovf then fieldOf (s1.rd (s1.regionBase n + set)).v 0 26 else 0
      let s2 := (s1.wrs (s1.recAddr n r) (recWords e old set)).wr (s1.regionBase n + set) (.clean (BitVec.ofNat 36 r))
      let s3 := s2.setMset n set { s2.mset n set with ovf := true }
      some (s3.updDie n (fun d => { d with chainUsed := d.chainUsed + 1,
                                           ovfSets := if x.ovf then d.ovfSets else d.ovfSets + 1 }))

/-! ### Folding (R171-R173) -/

/-- A fold of x into a value: the new value and a new overflow (R171). -/
def foldVal (op : Nat) (sgn : Bool) (v x : Word) : Word × Bool :=
  let less (a b : Word) : Bool := if sgn then decide (a.toInt < b.toInt) else decide (a.toNat < b.toNat)
  if op = 0 then (v + x, !fitsSigned (v.toInt + x.toInt))
  else if op = 1 then (v ||| x, false)
  else if op = 2 then (v &&& x, false)
  else if op = 3 then (v ^^^ x, false)
  else if op = 4 then (if less x v then x else v, false)
  else if op = 5 then (if less v x then x else v, false)
  else (v + 1, !fitsSigned (v.toInt + 1))

/-- The first arrival at a TOKA port (R171). -/
def firstFold (t : Token) (sp : Spec) (count : Nat) : MsEntry :=
  let op := bitsOf sp.f 0 3
  MsEntry.sealed
  { valid := true, cid := t.cid, ip := t.ip, colour := t.colour, pmask := BitVec.ofNat 3 (2 ^ t.port.toNat), acc := true,
    fop := BitVec.ofNat 3 op, sgn := bitOf sp.f 3, rem := BitVec.ofNat 31 (count - 1), ovf := false,
    val := { v := if op = 6 then 1 else t.val.v, p := t.val.p }, par := 0 }

/-- A later arrival (R171-R173). -/
def MsEntry.fold (e : MsEntry) (x : PWord) : MsEntry :=
  let r := foldVal e.fop.toNat e.sgn e.val.v x.v
  MsEntry.sealed
  { e with val := { v := r.1, p := e.val.p || x.p }, ovf := e.ovf || r.2,
           rem := if e.rem = 0 then 0 else e.rem - 1 }

/-- A plain entry of a token (R160). -/
def plainEntry (t : Token) : MsEntry :=
  MsEntry.sealed
  { valid := true, cid := t.cid, ip := t.ip, colour := t.colour, pmask := BitVec.ofNat 3 (2 ^ t.port.toNat), acc := false,
    fop := 0, sgn := false, rem := 0, ovf := false, val := t.val, par := 0 }

/-! ### Outcomes (R164) -/

/-- The outcome of an arrival: enabled at once, duplicate, enabled with the values of ports a, b, c, insert, update. -/
inductive Outcome where
  | once
  | dup (waiting : PWord)
  | enable (vals : List PWord) (mask : Nat) (ovf : Bool)
  | insert (e : MsEntry)
  | update (x : Ent) (e : MsEntry)
deriving DecidableEq, Repr

/-- The value an instance holds for a port: the arrival's at its own port, else the entry's. -/
def portVal (t : Token) (arrived : PWord) (es : List Ent) (p : Nat) : PWord :=
  if t.port.toNat = p then arrived
  else match es.find? (fun x => x.e.port == p) with
    | some x => x.e.val
    | none => PWord.zero

/-- The values of an enabled instance. -/
def enableOut (v : View) (t : Token) (arrived : PWord) (es : List Ent) (ovf : Bool) : Outcome :=
  .enable ([0, 1, 2].map (portVal t arrived es))
    (maskOf 3 (fun p => v.need.contains p || v.toka.any (fun q => q.1 == p))) ovf

/-- The outcome table of R164 for a token and the entries found. -/
def outcome (v : View) (t : Token) (es : List Ent) : Outcome :=
  let p := t.port.toNat
  let plain := es.filter (fun x => !x.e.acc)
  let acc := es.find? (fun x => x.e.acc)
  let isT := v.toka.any (fun q => q.1 == p)
  let present (q : Nat) : Bool := plain.any (fun x => x.e.port == q) || (q == p && !isT)
  let all := v.need.all present
  if v.now || (!v.need.contains p && !isT) then .once
  else if !isT then
    match plain.find? (fun x => x.e.port == p) with
    | some x => .dup x.e.val
    | none =>
      let complete := v.toka.isNone || acc.any (fun x => x.e.rem == 0)
      if all && complete then enableOut v t t.val es (acc.any (fun x => x.e.ovf)) else .insert (plainEntry t)
  else
    match v.toka, acc with
    | some (_, sp, count), none =>
      let e := firstFold t sp count
      if all && e.rem == 0 then enableOut v t e.val es false else .insert e
    | _, some x =>
      let e := x.e.fold t.val
      if all && e.rem == 0 then enableOut v t e.val es e.ovf else .update x e
    | none, none => .once

/-- An accumulating entry that a resume brings back: merged with the accumulating entry of its instance, else inserted as
it was; an instance that is then complete is enabled (R221, R56). (DEDUCED, log entry 24) -/
def accOutcome (v : View) (t : Token) (e : MsEntry) (es : List Ent) : Outcome :=
  let count := match v.toka with | some (_, _, c) => c | none => 0
  let found := es.find? (fun x => x.e.acc)
  let merged := match found with
    | some x =>
      let f := if e.fop = 6 then x.e.val.v + e.val.v else (foldVal e.fop.toNat e.sgn x.e.val.v e.val.v).1
      ({ x.e with val := { v := f, p := x.e.val.p || e.val.p }, ovf := x.e.ovf || e.ovf,
                  rem := BitVec.ofNat 31 (x.e.rem.toNat + e.rem.toNat - count) } : MsEntry)
    | none => e
  let plain := es.filter (fun x => !x.e.acc)
  if v.need.all (fun p => plain.any (fun x => x.e.port == p)) && merged.rem == 0 && v.toka.isSome then
    enableOut v t merged.val plain merged.ovf
  else match found with
    | some x => .update x merged
    | none => .insert merged

/-- The outcome of an operation: an arrival, or a resumed accumulating entry. -/
def decideOp (v : View) (t : Token) (acc : Option MsEntry) (es : List Ent) : Outcome :=
  match acc with
  | none => outcome v t es
  | some e => accOutcome v t e es

def Outcome.isInsert : Outcome → Bool
  | .insert _ => true
  | _ => false

/-- The entries read so far decide the outcome: those of the set alone (R174), or with the first records of the chain
(R169). -/
def Outcome.setDecides : Outcome → Bool
  | .once => true
  | .dup _ => true
  | .enable _ _ _ => true
  | .insert _ => false
  | .update _ e => e.rem != 0

/-! ### Parity (R175) -/

/-- The ways of a set with bad tag parity are invalidated, with the actions of R175. -/
def State.scrubSet (s : State) (n set : Nat) : State :=
  (s.mset n set).ways.zipIdx.foldl (fun t p =>
    if !p.1.valid then t
    else if p.1.badCid then
      ((t.putWay n set p.2 MsEntry.empty).bump (lmOff n 0x430) 16 8 1).event 3 n (lmOff n 0x430) 16 0 0
    else if p.1.badTag then
      let h := t.hdr p.1.cid.toNat
      (((t.putWay n set p.2 MsEntry.empty).bump (lmOff n 0x430) 16 8 1).freeze h.graph).err 2 0 n (lmOff n 0x430) 16
        h.graph (t.graphFn h.graph) 0 (tagDetail p.1.cid.toNat p.1.ip.toNat p.1.colour.toNat)
    else t) s

/-- A read of entries with a bad value parity is counted and recorded (R175). -/
def State.scrubVals (s : State) (n set : Nat) (p : MsEntry → Bool) : State :=
  ((s.mset n set).ways.filter (fun e => e.valid && p e && e.badVal)).foldl (fun u e =>
    (u.bump (lmOff n 0x430) 0 16 1).event 0 n (lmOff n 0x430) 0 0
      (tagDetail e.cid.toNat e.ip.toNat e.colour.toNat)) s

/-! ### Arrivals -/

/-- A ready item of an arrival, before dispatch sets class, remote bit and graph (R181). -/
def arrivalItem (t : Token) (kind mask : Nat) (vals : List PWord) (ovf : Bool) : Item :=
  { cid := t.cid, colour := t.colour, ip := t.ip, cls := 0, pmask := BitVec.ofNat 3 mask, kind := BitVec.ofNat 2 kind,
    ovf := ovf, remote := false, v0 := lget PWord.zero vals 0, v1 := lget PWord.zero vals 1,
    v2 := lget PWord.zero vals 2, n := 0, nxt := 0, graph := 0, bad := 0 }

def State.toDispatch (s : State) (n : Nat) (i : Item) : State :=
  s.updDie n (fun d => { d with disp := d.disp ++ [{ item := i, released := false }] })

/-- An outcome takes effect; none when an insert finds the region full (R170). -/
def State.applyOutcome (s : State) (n set : Nat) (t : Token) (es : List Ent) : Outcome → Option State
  | .once =>
    some (s.toDispatch n (arrivalItem t 0 (2 ^ t.port.toNat)
      ([0, 1, 2].map (fun p => if p = t.port.toNat then t.val else PWord.zero)) false))
  | .dup w => some ((s.bump (lmOff n 0x42C) 0 32 1).toDispatch n (arrivalItem t 2 (2 ^ t.port.toNat) [w, t.val] false))
  | .enable vals mask ovf =>
    some ((es.foldl (fun u x => u.dropEnt n set x) s).toDispatch n (arrivalItem t 0 mask vals ovf))
  | .insert e => s.insert n set e
  | .update x e => some (s.putEnt n set x e)

/-- The lowest free walk slot (R174). -/
def Die.freeSlot (d : Die) : Option Nat := (List.range 64).find? (fun k => d.walks.all (fun w => w.slot != k))

/-- An insert is held in its walk slot: the region is full (R170). -/
def State.holdInsert (s : State) (n : Nat) (w : Walk) : State :=
  s.updDie n (fun d => { d with
    walks := d.walks.filter (fun x => x.slot != w.slot) ++ [{ w with held := true }],
    regionFull := true,
    regionSince := match d.regionSince with | some c => some c | none => some (s.period n) })

/-- An operation takes a walk slot: a walk of the chain, or an insert into the chain of a full set whose overflow bit is
0 (R174). -/
def State.takesWalk (s : State) (n set : Nat) (o : Outcome) : Bool :=
  let x := s.mset n set
  if x.ovf then !o.setDecides else o.isInsert && x.ways.all (fun w => w.valid)

/-- One operation of the slice on a set that is not busy (R164, R174): decided by the set, or in a walk slot. None when no
walk slot is free. -/
def State.matchToken (s0 : State) (n : Nat) (t : Token) (acc : Option MsEntry) : Option State :=
  let set := setIndex (s0.seed n) t.cid.toNat t.ip.toNat t.colour.toNat
  let look := (s0.accessNow (msBank n set)).1.sliceLook n t.ip.toNat
  let s := (look.1.scrubSet n set).scrubVals n set (fun e => e.isOf t)
  let es := (s.mset n set).entsOf t
  let o := decideOp look.2 t acc es
  if s.takesWalk n set o then
    (s.die n).freeSlot.map (fun k =>
      (if (s.mset n set).ovf then s.bump (lmOff n 0x428) 0 32 1 else s).updDie n (fun d =>
        { d with walks := d.walks ++ [{ slot := k, set := set, tok := t, acc := acc, held := false }] }))
  else s.applyOutcome n set t es o

/-- The set of a token on a die. -/
def State.setOf (s : State) (n : Nat) (t : Token) : Nat :=
  setIndex (s.seed n) t.cid.toNat t.ip.toNat t.colour.toNat

/-- A token reaches the slice: it waits behind earlier operations on its set, or for a walk slot (R165, R174). -/
def State.arrive (s : State) (n : Nat) (t : Token) : State :=
  let set := s.setOf n t
  let d := s.die n
  let wait := s.updDie n (fun d => { d with waitq := d.waitq ++ [t] })
  if d.walks.any (fun w => w.set == set) || d.waitq.any (fun u => s.setOf n u == set) then wait
  else (s.matchToken n t none).getD wait

/-- Waiting operations are tried again in order. -/
def State.retryWaiting (s : State) (n : Nat) : State :=
  let q := (s.die n).waitq
  q.foldl (fun u t => u.arrive n t) (s.updDie n (fun d => { d with waitq := [] }))

/-- The entries that a walk reads, from a record on: it stops at the record that decides the outcome (R169); none at a
word read poisoned (R175). -/
def State.walkFrom (s : State) (n : Nat) (w : Walk) (v : View) : Nat → Nat → List Ent → Option (List Ent)
  | 0, _, es => some es
  | k + 1, r, es =>
    if r = 0 || (decideOp v w.tok w.acc es).setDecides then some es
    else
      let ws := s.rds (s.recAddr n r) 5
      if (lget PWord.zero ws 0).p || (lget PWord.zero ws 1).p || (lget PWord.zero ws 3).p || (lget PWord.zero ws 4).p
      then none
      else s.walkFrom n w v k (fieldOf (lget PWord.zero ws 4).v 0 26)
        (if (recEntry ws).isOf w.tok then es ++ [{ inSet := false, idx := r, e := recEntry ws }] else es)

/-- The entries of an operation in its set and in the chain as far as its walk reads (R169). -/
def State.walkEnts (s : State) (n : Nat) (w : Walk) (v : View) : Option (List Ent) :=
  let es := (s.mset n w.set).entsOf w.tok
  if (s.mset n w.set).ovf then
    let h := s.rd (s.regionBase n + w.set)
    if h.p then none else s.walkFrom n w v ((s.die n).chainUsed + 1) (fieldOf h.v 0 26) es
  else some es

/-- A walk decides its operation's outcome over the set and its chain (R169); a poisoned chain word abandons the chain
(R175). -/
def State.endWalk (s0 : State) (n : Nat) (w : Walk) : State :=
  let look := s0.sliceLook n w.tok.ip.toNat
  let s := look.1
  let free (t : State) : State := t.updDie n (fun d => { d with walks := d.walks.filter (fun x => x.slot != w.slot) })
  match s.walkEnts n w look.2 with
  | none => ((free s).abandonChain n w.set (tagDetail w.tok.cid.toNat w.tok.ip.toNat w.tok.colour.toNat)).retryWaiting n
  | some es =>
    match s.applyOutcome n w.set w.tok es (decideOp look.2 w.tok w.acc es) with
    | none => s.holdInsert n w
    | some s1 => (free s1).retryWaiting n

/-- No chain record is free (R170). -/
def Die.noRecord (d : Die) : Bool := d.freeHead == 0 && decide (67108864 ≤ d.bump)

/-- An operation accepted earlier holds a set, or waits for it (R165). -/
def State.setBusy (s : State) (n set : Nat) : Bool :=
  (s.die n).walks.any (fun w => w.set == set) || (s.die n).waitq.any (fun t => s.setOf n t == set)

/-- The walks of a set end, and with them what waits behind them, before a scan takes the set in its turn (R165, R179); an
insert that the full region holds goes on holding it. (DEDUCED, log entry 60) -/
def State.settleSet (n set : Nat) : Nat → State → State
  | 0, s => s
  | k + 1, s =>
    let d := s.die n
    match d.walks.find? (fun w => w.set == set && !(w.held && d.noRecord)) with
    | some w => State.settleSet n set k (s.endWalk n { w with held := false })
    | none =>
      if d.waitq.any (fun t => s.setOf n t == set) && d.walks.all (fun w => w.set != set) then
        match d.walks.find? (fun w => !w.held) with
        | some w => State.settleSet n set k (s.endWalk n w)
        | none => s
      else s

/-- The steps that settling a set can take. -/
def Die.settleFuel (d : Die) : Nat := 2 * d.walks.length + 2 * d.waitq.length + 2

/-- A resumed accumulating entry reaches the slice (R221): behind the operations of its set, and held where these are. -/
def State.arriveAcc (s0 : State) (n : Nat) (e : MsEntry) : State :=
  let t : Token := { cid := e.cid, ip := e.ip, colour := e.colour, port := BitVec.ofNat 2 e.port, cls := 0, pkg := 0, val := e.val }
  let set := s0.setOf n t
  let s := State.settleSet n set (s0.die n).settleFuel s0
  let hold := s.holdInsert n { slot := (s.die n).freeSlot.getD (64 + (s.die n).walks.length), set := set, tok := t,
                               acc := some e, held := true }
  if s.setBusy n set then hold else (s.matchToken n t (some e)).getD hold

/-- A held insert completes once a record is free (R170). -/
def State.releaseHeld (s : State) (n : Nat) : State :=
  match (s.die n).walks.find? (fun w => w.held) with
  | none => s
  | some w =>
    if (s.die n).noRecord then s
    else
      let s1 := s.endWalk n { w with held := false }
      let still := (s1.die n).walks.any (fun x => x.held)
      s1.updDie n (fun d => { d with regionFull := still, regionSince := if still then some (s1.period n) else none })

end Sys2Proof.Machine
end

