-- ==== Sys2Proof/Machine/Operands.lean ====
section
/-! DEFINITION. Operand forms of the fabric: step 1 of a firing as a reader that can stop (R58, R80-R94, R104, R135),
address checks (R36, R38, R59, R82, R132), I-structure reads, deferral and release (R59-R61). -/

namespace Sys2Proof.Machine

/-- A firing: die, PE number, item, the slot that holds its instruction, colour, repetition, instruction. -/
structure Fire where
  n : Nat
  k : Nat
  it : Item
  ip : Nat
  colour : Nat
  rep : Option RepCtx
  r : OpRow
  i : Insn
  /-- class of the lane it was popped from (R460) -/
  lane : Nat
  /-- place in the order in which firings began (R64 item 4) -/
  seq : Nat
deriving DecidableEq, Repr

def Fire.cid (f : Fire) : Nat := f.it.cid.toNat
def Fire.tag (f : Fire) : Nat := tagDetail f.cid f.ip f.colour

/-- What ends step 1 before its last read: an exception (class, cause), a deferral on the element at a Frame Store
offset, or a wait. -/
inductive Stop where
  | exc (cls cause : Nat)
  | defer (off : Nat)
  | wait (w : Wait)
deriving DecidableEq, Repr

/-- Step 1 in progress: the state, answers of an earlier attempt not yet used, all answers so far, the operand values A,
B, D read so far (R65), and the pointer write-backs in order (R83). (DESIGN CHOICE, log entry 50) -/
structure Rs where
  s : State
  old : List Ans
  got : List Ans
  vals : List PWord
  pins : List (Nat × Word)

abbrev Rd := ExceptT Stop (StateM Rs)

/-- The answer that an earlier attempt of this step 1 got for the next read. (DESIGN CHOICE, log entry 50) -/
def Rd.replay : Rd (Option Ans) := do
  let r ← get
  match r.old with
  | [] => pure none
  | a :: t =>
    set { r with old := t, got := r.got ++ [a] }
    pure (some a)

/-- A read is answered. -/
def Rd.note (s : State) (a : Ans) : Rd Unit := modify (fun r => { r with s := s, got := r.got ++ [a] })
def Rd.state : Rd State := do pure (← get).s
def Rd.put (s : State) : Rd Unit := modify (fun r => { r with s := s })
def Rd.pin (k : Nat) (w : Word) : Rd Unit := modify (fun r => { r with pins := r.pins ++ [(k, w)] })

/-- Changes to the state that a new attempt does not repeat. -/
def Rd.poisonWord : PWord := { v := 0, p := true }

/-! ### Reads -/

/-- A read of a word of the die's own Frame Store (R229, R235). -/
def rdLocal (n off : Nat) : Rd PWord := do
  match ← Rd.replay with
  | some (.word w) => pure w
  | some _ => pure Rd.poisonWord
  | none =>
    let s ← Rd.state
    match s.access (n * 256 + off / 131072) with
    | (s1, .served) =>
      Rd.note s1 (.word (s1.frameRd n off))
      pure (s1.frameRd n off)
    | (s1, .poisoned) =>
      Rd.note s1 (.word Rd.poisonWord)
      pure Rd.poisonWord
    | (s1, .waits) =>
      Rd.put s1
      throw (.wait (.bank (n * 256 + off / 131072)))

/-- A transaction number that no waiting firing of the die uses (R18). -/
def Die.freeTxn (d : Die) : BitVec 10 :=
  match (List.range 1024).find? (fun t => d.firing.all (fun f => f.wait != .mem (BitVec.ofNat 10 t))) with
  | some t => BitVec.ofNat 10 t
  | none => 0

/-- A read outside the die, as a MEM_RD_REQ to a die or to Bedrock; a die that is down answers with an error (R36). -/
def rdRemote (n dest a : Nat) : Rd PWord := do
  match ← Rd.replay with
  | some (.word w) => pure w
  | some _ => throw (.exc 1 8)
  | none =>
    let s ← Rd.state
    if dest < 6 && !(s.die dest).up then throw (.exc 1 8)
    else
      let t := (s.die n).freeTxn
      Rd.put (s.sendFlit n (memFlit ftRdReq dest n a t.toNat PWord.zero false))
      throw (.wait (.mem t))

/-- The ADDRESS cause of an access by a firing, if it is refused (R36, R38, R49, R132). -/
def State.addrFault (s : State) (a : Nat) (write : Bool) : Option Nat :=
  match s.kindOf a with
  | .reserved => some 3
  | .ddr x =>
    if s.carve ≤ x then some 5
    else if s.cdtOn && decide (s.cdtBase ≤ x) && decide (x < s.cdtBase + 2 ^ 24) then some 5
    else none
  | .frame m _ => if s.fenced m then some 4 else none
  | .scratch _ => none
  | .pour _ => some 9
  | .latch _ => some 9
  | .time _ => if write then some 3 else none
  | .ident _ => if write then some 3 else none
  | .home _ => if write then some 3 else none

/-- The check of an address; a refused access queues its Advisory record (R36, R459 code 1). -/
def checkAddr (f : Fire) (a : Nat) (write : Bool) : Rd Unit := do
  let s ← Rd.state
  match s.addrFault a write with
  | none => pure ()
  | some c =>
    Rd.put (s.unreported 1 f.k f.n f.it.graph.toNat 0x1F a)
    throw (.exc 1 c)

/-- A checked read of a global word. -/
def rdWord (f : Fire) (a : Nat) : Rd PWord := do
  checkAddr f a false
  match (← Rd.state).kindOf a with
  | .frame m off => if m = f.n then rdLocal f.n off else rdRemote f.n m a
  | _ => rdRemote f.n 6 a

/-- A word used as an address or a selector (R58, R101). -/
def Rd.ptr (w : PWord) : Rd Nat := if w.p then throw (.exc 1 2) else pure w.v.toNat

/-- Frame word Gk of the firing's context, as a pointer, index or link word (R82). A slot past the Frame Store's end raises
ADDRESS cause 0, as an FRM operand there does. (DESIGN CHOICE, log entry 61) -/
def rdG (f : Fire) (k : Nat) : Rd PWord := do
  let off := (← Rd.state).cdt f.cid + k
  if off < 8388608 then rdLocal f.n off else throw (.exc 1 0)

/-! ### Constant pools (R87) -/

/-- A word of the Instruction Store with its parity. -/
def State.isWord (s : State) (n word : Nat) : Word × Bool :=
  let x := s.slot n (word / 2)
  (if word % 2 = 0 then x.w0 else x.w1, x.wordOk (word % 2 == 1))

/-- The code block that a context names (R50, R87). -/
def State.blockOfCtx (s : State) (cid : Nat) : Option (Graph × Block) :=
  let h := s.hdr cid
  let g := s.graph h.graph
  if g.state = .free then none else (g.blocks[h.block]?).map (fun b => (g, b))

def State.poolLen (s : State) (cid : Nat) : Nat :=
  match s.blockOfCtx cid with
  | some (_, b) => b.poolLen
  | none => 0

/-- A CPL operand: a word of the pool of the context's code block (R87). -/
def rdPool (f : Fire) (idx : Nat) : Rd PWord := do
  match ← Rd.replay with
  | some (.word w) => pure w
  | some _ => pure Rd.poisonWord
  | none =>
    let s ← Rd.state
    match s.blockOfCtx f.cid with
    | none => pure PWord.zero
    | some (g, b) =>
      let at_ := 2 * (g.base + b.pool) + idx
      let s1 := (s.accessNow (isBank f.n (at_ / 2))).1
      match s1.isWord f.n at_ with
      | (w, true) =>
        Rd.note s1 (.word (.clean w))
        pure (.clean w)
      | (w, false) =>
        Rd.note (s1.unreported 5 f.k f.n f.it.graph.toNat 0x1F f.tag) (.word { v := w, p := true })
        pure { v := w, p := true }

/-! ### I-structures (R59-R61) -/

/-- A bad state word (R60). -/
def badElem (w : PWord) : Bool :=
  w.p || fieldOf w.v 0 2 == 3 || fieldOf w.v 22 14 != 0 || (fieldOf w.v 0 2 != 2 && fieldOf w.v 2 20 != 0)

/-- The base of the deferral records of a die (R61). -/
def State.isdBase (s : State) (n : Nat) : Nat := s.fld (lmOff n 0x204) 0 23

/-- An IST operand: the value of a FULL element; another element defers (R60). (DEDUCED, log entry 49) -/
def rdElem (n off : Nat) : Rd PWord := do
  match ← Rd.replay with
  | some (.word w) => pure w
  | some _ => pure Rd.poisonWord
  | none =>
    let s ← Rd.state
    match s.access (n * 256 + off / 131072) with
    | (s1, .waits) =>
      Rd.put s1
      throw (.wait (.bank (n * 256 + off / 131072)))
    | (s1, .poisoned) =>
      Rd.put s1
      throw (.exc 3 2)
    | (s1, .served) =>
      Rd.put s1
      if badElem (s1.frameRd n off) then throw (.exc 3 2)
      else if fieldOf (s1.frameRd n off).v 0 2 = 1 then
        Rd.note s1 (.word (s1.frameRd n (off + 1)))
        pure (s1.frameRd n (off + 1))
      else throw (.defer off)

/-- The words of a deferral record (R61): those of a repetition hold its PIN bases (R93). -/
def deferWords (f : Fire) (older : Nat) : List PWord :=
  let val (k : Nat) (v : PWord) : PWord := match f.rep with | some r => lget v r.pins k | none => v
  [.clean (BitVec.ofNat 36 older), .clean (BitVec.ofNat 36 (f.cid + f.it.colour.toNat * 2 ^ 24)),
   .clean (BitVec.ofNat 36 f.it.ip.toNat), val 0 f.it.v0, val 1 f.it.v1, val 2 f.it.v2,
   .clean (BitVec.ofNat 36 (f.it.pmask.toNat + b2n f.rep.isSome * 8)),
   .clean (BitVec.ofNat 36 (match f.rep with | some r => r.i | none => 0))]

/-- The record a deferral takes: the newest returned, else the next never taken (R61). -/
def Die.takeRec (d : Die) : Option (Nat × Die) :=
  match d.isdRet with
  | r :: rest => some (r, { d with isdRet := rest })
  | [] => if d.isdFresh < d.isdTotal then some (d.isdFresh, { d with isdFresh := d.isdFresh + 1 }) else none

/-- Consecutive words of a die's Frame Store, written at the bank. -/
def State.putFrames (s : State) (n off : Nat) : List PWord → State
  | [] => s
  | w :: ws => (s.putFrame n off w).putFrames n (off + 1) ws

/-- A deferral (R60, R61); none when no record is free. -/
def State.deferOn (s : State) (f : Fire) (off : Nat) : Option State :=
  match (s.die f.n).takeRec with
  | none => none
  | some (r, d) =>
    let w := (s.frameRd f.n off).v
    let older := if fieldOf w 0 2 = 2 then fieldOf w 2 20 else 0xFFFFF
    let s1 := (s.setDie f.n d).putFrames f.n (s.isdBase f.n + 8 * r) (deferWords f older)
    some (s1.putFrame f.n off (.clean (BitVec.ofNat 36 (2 + r * 4))))

/-- The item that a deferral record releases (R60, R61). -/
def releasedItem (ws : List PWord) : Item :=
  let w (k : Nat) : Word := (lget PWord.zero ws k).v
  let rep := bitOf (w 6).toNat 3
  { cid := BitVec.ofNat 24 (fieldOf (w 1) 0 24), colour := BitVec.ofNat 12 (fieldOf (w 1) 24 12),
    ip := BitVec.ofNat 20 (fieldOf (w 2) 0 20), cls := 0, pmask := BitVec.ofNat 3 (fieldOf (w 6) 0 3),
    kind := if rep then 1 else 0, ovf := false, remote := false, v0 := lget PWord.zero ws 3, v1 := lget PWord.zero ws 4,
    v2 := lget PWord.zero ws 5, n := if rep then BitVec.ofNat 32 (fieldOf (w 7) 0 32 + 1) else 0,
    nxt := if rep then BitVec.ofNat 32 (fieldOf (w 7) 0 32) else 0, graph := 0, bad := 0 }

/-- Every deferred firing from a head record, newest first; each record returns to the pool (R60, R61). -/
def State.releaseFrom (s : State) (n : Nat) : Nat → Nat → State
  | 0, _ => s
  | k + 1, r =>
    if r = 0xFFFFF then s
    else
      let ws := (List.range 8).map (fun j => s.frameRd n (s.isdBase n + 8 * r + j))
      let s1 := s.updDie n (fun d => { d with isdRet := r :: d.isdRet,
                                              disp := d.disp ++ [{ item := releasedItem ws, released := true }] })
      s1.releaseFrom n k (fieldOf (lget PWord.zero ws 0).v 0 20)

/-- A firing that began later has already written a word of the Frame Store (R64 item 4). -/
def State.overtaken (s : State) (n seq a : Nat) : Bool := (s.die n).wrote.any (fun p => p.1 == a && decide (seq < p.2))

/-- The die notes the writer of a word. -/
def State.noteWriter (s : State) (n seq a : Nat) : State :=
  s.updDie n (fun d => { d with wrote := (a, seq) :: d.wrote.filter (fun p => p.1 != a) })

/-- The word as a firing's write leaves it: flags that later firings have ORed into it stand (R64 item 4). -/
def State.withOred (s : State) (n seq a : Nat) (w : PWord) : PWord :=
  let later := (s.die n).ored.filter (fun p => p.2.1 == a && decide (seq < p.1))
  { w with v := later.foldl (fun v p => v ||| BitVec.ofNat 36 p.2.2) w.v }

/-- An atomic write of a Frame Store word by a firing, unless a firing that began later has written it (R64 item 4). -/
def State.orderedWr (s : State) (n seq off : Nat) (w : PWord) : State :=
  let a := frameWord n off
  if s.overtaken n seq a then s else (s.frameWr n off (s.withOred n seq a w)).noteWriter n seq a

/-- An ISW write (R60): an ISTRUCT cause, or the state. A bank without service reads poisoned. -/
def State.isw (s0 : State) (n seq off : Nat) (w : PWord) : Except Nat State :=
  match s0.accessNow (n * 256 + off / 131072) with
  | (_, true) => .error 2
  | (s, false) =>
    let e := s.frameRd n off
    if badElem e then .error 2
    else if fieldOf e.v 0 2 = 1 then .error 0
    else
      let s1 := (s.orderedWr n seq (off + 1) w).orderedWr n seq off (.clean 1)
      .ok (if fieldOf e.v 0 2 = 2 then s1.releaseFrom n (s.die n).isdTotal (fieldOf e.v 2 20) else s1)

/-! ### Operand forms (R80, R81) -/

/-- Where a memory mode points: a word of the own Frame Store, a global word, or an element's state word. -/
inductive Place where
  | frame (off : Nat)
  | word (a : Nat)
  | elem (off : Nat)
deriving DecidableEq, Repr

/-- A PIN pointer: the word accessed; the write-back is noted (R83, R93). -/
def pinAddr (f : Fire) (pos : Nat) (sp : Spec) : Rd Nat := do
  let k := bitsOf sp.f 0 4
  let inc := sextWord 8 (bitsOf sp.f 4 8)
  match f.rep with
  | none =>
    let p ← Rd.ptr (← rdG f k)
    Rd.pin k (BitVec.ofNat 36 p + inc)
    pure p
  | some r =>
    let p := (lget PWord.zero r.pins pos).v
    Rd.pin k (p + inc * BitVec.ofNat 36 (r.i + 1))
    pure (p + inc * BitVec.ofNat 36 r.i).toNat

/-- The place a memory-mode specifier names, with the checks that need only the specifier and its slots (R81, R82,
R59). -/
def placeOf (f : Fire) (pos : Nat) (sp : Spec) : Rd Place := do
  match sp.m with
  | .frm =>
    let off := (← Rd.state).cdt f.cid + sp.f
    if off < 8388608 then pure (.frame off) else throw (.exc 1 0)
  | .idx =>
    let b ← Rd.ptr (← rdG f (bitsOf sp.f 6 6))
    let x ← Rd.ptr (← rdG f (bitsOf sp.f 0 6))
    pure (.word ((b + x) % 2 ^ 36))
  | .glb =>
    let p ← Rd.ptr (← rdG f (bitsOf sp.f 0 4))
    if p < 2 ^ 14 then pure (.word (0x810000000 + p * 256 + bitsOf sp.f 4 8)) else throw (.exc 1 1)
  | .pin => pure (.word (← pinAddr f pos sp))
  | .ist =>
    let p ← Rd.ptr (← rdG f (bitsOf sp.f 0 4))
    elemAt ((p + 2 * bitsOf sp.f 4 8) % 2 ^ 36)
  | .isw =>
    let p ← Rd.ptr (← rdG f (bitsOf sp.f 0 4))
    elemAt ((p + 2 * bitsOf sp.f 4 8) % 2 ^ 36)
  | _ =>
    let p ← Rd.ptr (← rdG f (bitsOf sp.f 0 4))
    pure (.word ((p + bitsOf sp.f 4 8) % 2 ^ 36))
where
  /-- An element: an even word of the own die's Frame Store (R59). -/
  elemAt (e : Nat) : Rd Place := do
    match (← Rd.state).kindOf e with
    | .frame m off => if m = f.n && e % 2 == 0 then pure (.elem off) else throw (.exc 1 6)
    | _ => throw (.exc 1 6)

/-- The value an item carries for a position (R181). -/
def Item.val (i : Item) (pos : Nat) : PWord := if pos = 0 then i.v0 else if pos = 1 then i.v1 else i.v2

/-- The value of an operand (R80, R81). -/
def rdSpec (f : Fire) (pos : Nat) (sp : Spec) : Rd PWord := do
  match sp.m with
  | .tok => pure (f.it.val pos)
  | .toka => pure (f.it.val pos)
  | .imm => pure (.clean (sextWord 12 sp.f))
  | .itx => pure (.clean (BitVec.ofNat 36 (match f.rep with | some r => r.i | none => 0)))
  | .cpl => rdPool f sp.f
  | _ =>
    match ← placeOf f pos sp with
    | .frame off => rdLocal f.n off
    | .word a => rdWord f a
    | .elem off => rdElem f.n off

/-- An operand read; its value is kept for R65. -/
def rdOperand (f : Fire) (pos : Nat) (sp : Spec) : Rd PWord := do
  let w ← rdSpec f pos sp
  modify (fun r => { r with vals := lset r.vals pos w })
  pure w

/-- The place of a D output, checked (R82, R99): `words` words are written. -/
def rdDest (f : Fire) (sp : Spec) (words : Nat) : Rd Place := do
  match ← placeOf f 2 sp with
  | .frame off => if off + words ≤ 8388608 then pure (.frame off) else throw (.exc 1 0)
  | .word a =>
    checkAddr f a true
    if words = 2 then checkAddr f ((a + 1) % 2 ^ 36) true
    pure (.word a)
  | .elem off => pure (.elem off)

/-- The link of the context: target CID, IP, colour and port (R53, R62, R89). -/
structure Link2 where
  cid : Nat
  ip : Nat
  colour : Nat
  port : Nat
  w14 : Word
  w15 : Word
deriving DecidableEq, Repr

/-- The G14:G15 link with its checks (R89, R118, R119). -/
def rdLink (f : Fire) : Rd Link2 := do
  let a ← rdG f 14
  let _ ← Rd.ptr a
  let b ← rdG f 15
  let _ ← Rd.ptr b
  if fieldOf b.v 22 14 ≠ 0 then throw (.exc 1 7)
  else if fieldOf b.v 20 2 = 3 then throw (.exc 0 8)
  else pure { cid := fieldOf a.v 0 24, ip := fieldOf b.v 0 20, colour := fieldOf a.v 24 12, port := fieldOf b.v 20 2,
              w14 := a.v, w15 := b.v }

/-- A request to a unit of Bedrock: its answer, or a wait (R104, R125, R205). -/
def rdUnit (mk : Nat → UnitReq) : Rd Ans := do
  match ← Rd.replay with
  | some a => pure a
  | none =>
    let s ← Rd.state
    Rd.put { s with units := s.units ++ [mk s.nextUnit], nextUnit := s.nextUnit + 1 }
    throw (.wait (.unit s.nextUnit))

end Sys2Proof.Machine
end

