-- ==== Sys2Proof/Machine/Decoder.lean ====
section
/-! DEFINITION. The decode of an instruction or a repeated pair when it fires: destination lists (R88, R89), and every
ILLEGAL cause (R95, R96). -/

namespace Sys2Proof.Machine

/-- A destination list read from the Instruction Store: its entries, the causes met, and the word after it (R88). -/
structure DList where
  entries : List DEntry
  causes : List Nat
  next : Nat
deriving DecidableEq, Repr

/-- Reads at most `k` entries from a word; a word outside the graph's slots and a missing last flag give cause 9, bad
parity gives cause 0 (R88). -/
def State.readList (s : State) (n : Nat) (g : Graph) : Nat → Nat → DList
  | 0, w => { entries := [], causes := [9], next := w }
  | k + 1, w =>
    if g.base ≤ w / 2 ∧ w / 2 < g.base + g.slots then
      let x := s.isWord n w
      let e := dentryOf x.1
      let bad := if x.2 then [] else [0]
      if e.last then { entries := [e], causes := bad, next := w + 1 }
      else
        let r := s.readList n g k (w + 1)
        { entries := e :: r.entries, causes := bad ++ r.causes, next := r.next }
    else { entries := [], causes := [9], next := w }

/-- The causes of one entry (R89, R100, R118): `cont` is entry 0 of a CALL, `arg` an argument entry of a CALL. -/
def entryCauses (g : Graph) (ip results : Nat) (cont arg : Bool) (e : DEntry) : List Nat :=
  (if e.rsv ≠ 0 then [4] else []) ++
  (if e.act = 3 then (if arg then [9] else [])
   else
    (if e.port = 3 then [8] else []) ++
    (let t := (ip + e.off) % 2 ^ 20
     if g.base ≤ t ∧ t < g.base + g.slots then [] else [9])) ++
  (if e.sel && decide (results < 2) && !cont then [9] else [])

/-- The lists of an instruction: one, two for STEER, none without a pointer (R88). List 1 of a STEER whose list 0 has no
last entry, or leaves the graph's slots, is read from the word where list 0 stopped. (DESIGN CHOICE, log entry 62) -/
def State.listsOf (s : State) (n : Nat) (g : Graph) (ip : Nat) (i : Insn) : List DList :=
  if i.ptr < 2 || i.op == .ret then []
  else
    let l0 := s.readList n g 16 (2 * ip + i.ptr)
    if i.op = .steer then [l0, s.readList n g 16 l0.next] else [l0]

/-- The causes of the destination-list pointer and the lists (R88, R89, R118, R119). -/
def State.listCauses (s : State) (n : Nat) (g : Graph) (ip : Nat) (r : OpRow) (i : Insn) : List Nat :=
  (if i.fmt == .px then []
   else if i.op = .ret then (if i.ptr = 0 then [] else [9])
   else if i.ptr = 1 then [9]
   else if i.ptr = 0 then (if i.op = .call then [9] else [])
   else ((s.listsOf n g ip i).map (fun l => l.causes ++
      (l.entries.zipIdx.map (fun p =>
        entryCauses g ip r.results (i.op == .call && p.2 == 0) (i.op == .call && p.2 != 0) p.1)).flatten)).flatten)

/-- A token arrived at a port whose operand is neither TOK nor TOKA (R45: cause 7). -/
def portCause (it : Item) (r : OpRow) (i : Insn) : List Nat :=
  if it.kind = 0 && [0, 1, 2].any (fun p => bitOf it.pmask.toNat p &&
      (match specAt r i p with | some s => s.m != .tok && s.m != .toka | none => true)) then [7] else []

/-- A CPL index at or above the pool length (R87: cause 12); ITX outside a repeated pair (R94: cause 11). -/
def State.modeCauses (s : State) (it : Item) (r : OpRow) (i : Insn) (rep : Bool) : List Nat :=
  let us := usedSpecs r i
  (if !rep && us.any (fun p => p.2.m == .itx) then [11] else []) ++
  (if us.any (fun p => p.2.m == .cpl && decide (s.poolLen it.cid.toNat ≤ p.2.f)) then [12] else [])

/-- A decoded instruction, or the cause of the fault with the opcode bits and the slot that E0 names. -/
inductive Decoded where
  | ok (r : OpRow) (i : Insn)
  | fault (cause : Nat) (ip : Nat)
deriving DecidableEq, Repr

/-- Every decode cause of the instruction in a slot, given its row and fields. -/
def State.slotCauses (s : State) (n : Nat) (it : Item) (ip : Nat) (r : OpRow) (i : Insn) (rep : Bool) : List Nat :=
  let g := s.graph it.graph.toNat
  specCauses r i ++ portCause it r i ++ s.listCauses n g ip r i ++ s.modeCauses it r i rep

/-- A slot that the decode refuses for its opcode or format names a list in its format, and an entry of it reads with bad
parity (R88, R96: cause 0 is the lowest). (DEDUCED, log entry 60) -/
def State.rawListBad (s : State) (n : Nat) (g : Graph) (ip : Nat) : Bool :=
  match fmtOf (bitsOf (s.slot n ip).bits 60 3) with
  | none => false
  | some f =>
    let i := insnOf unknownRow f (s.slot n ip).bits
    f != .px && decide (2 ≤ i.ptr) && (s.readList n g 16 (2 * ip + i.ptr)).causes.contains 0

/-- The decode of a single instruction (R96); a token addressed to slot P + 1 of a repeated pair gives cause 10 (R90). -/
def State.decodeOne (s : State) (n : Nat) (it : Item) : Decoded :=
  let ip := it.ip.toNat
  let extra := if s.afterPrefix n ip then [10] else []
  match readSlot (s.slot n ip) with
  | .bad c => .fault (if s.rawListBad n (s.graph it.graph.toNat) ip then 0 else c) ip
  | .ok r i =>
    match lowest (s.slotCauses n it ip r i false ++ extra) with
    | some c => .fault c ip
    | none => .ok r i

/-- The item names a repeated pair: its slot reads as a prefix in format PX (R90). -/
def State.isPair (s : State) (n ip : Nat) : Bool :=
  match readSlot (s.slot n ip) with
  | .ok _ i => i.fmt == .px
  | .bad _ => false

/-- The decode of a repeated pair (R90, R92): causes of the prefix slot first among equals. A prefix that follows a prefix is
named by its opcode bits, E0 names slot P, and the second slot's own causes but bad parity are not looked at.
(DESIGN CHOICE, log entry 62) -/
def State.decodePair (s : State) (n : Nat) (it : Item) : Decoded :=
  let p := it.ip.toNat
  let g := s.graph it.graph.toNat
  let past := s.afterPrefix n p
  let last := !(decide (g.base ≤ p + 1) && decide (p + 1 < g.base + g.slots))
  let twice := !last && s.prefixAt n (p + 1)
  let pre := match readSlot (s.slot n p) with
    | .bad c => [c]
    | .ok r i => specCauses r i ++ s.modeCauses it r i false ++ (if last || twice || past then [10] else [])
  let body := if last then [] else
    match readSlot (s.slot n (p + 1)) with
    | .bad c => if twice && c != 0 then [] else [if s.rawListBad n g (p + 1) then 0 else c]
    | .ok r i => if twice then [] else s.slotCauses n it (p + 1) r i true
  match lowest pre, lowest body with
  | some a, some b => if a ≤ b then .fault a p else .fault b (p + 1)
  | some a, none => .fault a p
  | none, some b => .fault b (p + 1)
  | none, none =>
    match readSlot (s.slot n (p + 1)) with
    | .ok r i => .ok r i
    | .bad c => .fault c (p + 1)

/-- The values of a decode fault: token operands, zero for the rest (R96). -/
def tokenVals (it : Item) : List PWord :=
  [0, 1, 2].map (fun p => if bitOf it.pmask.toNat p then it.val p else PWord.zero)

end Sys2Proof.Machine
end

