-- ==== Sys2Proof/Machine/Bodies.lean ====
section
/-! DEFINITION. What each opcode does in steps 1 and 2 of its firing beyond the operands (R108-R130): its selector
operands, its further reads, and its results with the effects of steps 3 to 5. -/

namespace Sys2Proof.Machine

/-- The values of step 1: operands A, B, D, the flags word G13, and the link where it was read. -/
structure Vals where
  a : PWord
  b : PWord
  d : PWord
  g13 : Word
  link : Option Link2
deriving DecidableEq, Repr

/-- A token that a firing sends beside or before its list: target and value (R118-R120). -/
structure Send where
  cid : Nat
  ip : Nat
  colour : Nat
  port : Nat
  pkg : Nat
  val : PWord
deriving DecidableEq, Repr

/-- The outcome of step 2: result words, flags, writes of step 3 beside D (global address and word), a class for the own
header, the change of the graph's active count, tokens sent first, the destination list sent (none: no list), and POUR
flits. -/
structure FOut where
  w0 : PWord
  w1 : PWord
  fl : Flags
  writes : List (Nat × PWord)
  prio : Option Nat
  freed : Bool
  sends : List Send
  list : Option Nat
  pours : List (BitVec 128)
deriving DecidableEq, Repr

/-- An outcome that sends its words on list 0. -/
def FOut.words (w0 w1 : PWord) : FOut :=
  { w0 := w0, w1 := w1, fl := {}, writes := [], prio := none, freed := false, sends := [], list := some 0, pours := [] }

/-- An opcode's part of a firing: positions whose operand selects something (R101), the further reads of step 1, and
step 2, which gives an exception (class, cause) or an outcome. -/
structure Body where
  selectors : List Nat
  extra : Fire → Vals → Rd (List PWord)
  out : State → Fire → Vals → List PWord → Except (Nat × Nat) FOut

def noExtra : Fire → Vals → Rd (List PWord) := fun _ _ => pure []

/-! ### Arithmetic, logic, compare, floating point (R108-R116, R136) -/

/-- An arithmetic opcode: results from the data bits; a poisoned operand poisons them and raises no flag (R136). -/
def aluBody (g : Word → Word → Word → Word → ArithRes) : Body :=
  { selectors := [], extra := noExtra,
    out := fun _ _ v _ =>
      let p := v.a.p || v.b.p || v.d.p
      let r := g v.a.v v.b.v v.d.v v.g13
      .ok { FOut.words { v := r.w0, p := p } { v := r.w1, p := p } with fl := if p then {} else r.fl } }

/-- ADC and SBC: the carry-in must be 0 or 1; a poisoned one is used by its bit 0 (R109, R136). -/
def carryBody (g : Word → Word → Bool → ArithRes) : Body :=
  { selectors := [], extra := noExtra,
    out := fun _ _ v _ =>
      if !v.d.p && decide (1 < v.d.v.toNat) then .error (6, 6)
      else
        let p := v.a.p || v.b.p || v.d.p
        let r := g v.a.v v.b.v (bitOf v.d.v.toNat 0)
        .ok { FOut.words { v := r.w0, p := p } { v := r.w1, p := p } with fl := if p then {} else r.fl } }

def fmtOf36 (x : Bool) : FFmt := if x then fmtX else fmtS

def bodyAdd : Body := aluBody (fun a b _ _ => intAdd a b false)
def bodySub : Body := aluBody (fun a b _ _ => intSub a b false)
def bodyAdc : Body := carryBody intAdd
def bodySbc : Body := carryBody intSub
def bodyNeg : Body := aluBody (fun a _ _ _ => intNeg a)
def bodyMul : Body := aluBody (fun a b _ _ => intMul a b)
def bodyMulw : Body := aluBody (fun a b _ _ => intMulW a b)
def bodyMulwu : Body := aluBody (fun a b _ _ => intMulWU a b)
def bodyDiv : Body := aluBody (fun a b _ _ => intDiv a b)
def bodyDivu : Body := aluBody (fun a b _ _ => intDivU a b)
def bodyMin : Body := aluBody (fun a b _ _ => intMin a b)
def bodyMax : Body := aluBody (fun a b _ _ => intMax a b)
def bodyMinu : Body := aluBody (fun a b _ _ => intMinU a b)
def bodyMaxu : Body := aluBody (fun a b _ _ => intMaxU a b)
def bodyAnd : Body := aluBody (fun a b _ _ => res1 (a &&& b))
def bodyOr : Body := aluBody (fun a b _ _ => res1 (a ||| b))
def bodyXor : Body := aluBody (fun a b _ _ => res1 (a ^^^ b))
def bodyAndn : Body := aluBody (fun a b _ _ => res1 (a &&& ~~~b))
def bodyNot : Body := aluBody (fun a _ _ _ => res1 (~~~a))
def bodyShl : Body := aluBody (fun a b _ _ => intShl a b)
def bodyShr : Body := aluBody (fun a b _ _ => intShr a b)
def bodySar : Body := aluBody (fun a b _ _ => intSar a b)
def bodyRol : Body := aluBody (fun a b _ _ => intRol a b)
def bodyRor : Body := aluBody (fun a b _ _ => intRor a b)
def bodyPopc : Body := aluBody (fun a _ _ _ => intPopc a)
def bodyClz : Body := aluBody (fun a _ _ _ => intClz a)
def bodyCeq : Body := aluBody (fun a b _ _ => res1 (boolWord (a == b)))
def bodyCne : Body := aluBody (fun a b _ _ => res1 (boolWord (a != b)))
def bodyClt : Body := aluBody (fun a b _ _ => res1 (boolWord (decide (a.toInt < b.toInt))))
def bodyCle : Body := aluBody (fun a b _ _ => res1 (boolWord (decide (a.toInt ≤ b.toInt))))
def bodyCltu : Body := aluBody (fun a b _ _ => res1 (boolWord (decide (a.toNat < b.toNat))))
def bodyCleu : Body := aluBody (fun a b _ _ => res1 (boolWord (decide (a.toNat ≤ b.toNat))))
def bodyMov : Body := aluBody (fun a _ _ _ => res1 a)

def bodyFadd (x : Bool) : Body := aluBody (fun a b _ g => (fmtOf36 x).add (rmodeOf g) a b)
def bodyFsub (x : Bool) : Body := aluBody (fun a b _ g => (fmtOf36 x).sub (rmodeOf g) a b)
def bodyFmul (x : Bool) : Body := aluBody (fun a b _ g => (fmtOf36 x).mul (rmodeOf g) a b)
def bodyFfma (x : Bool) : Body := aluBody (fun a b d g => (fmtOf36 x).fma (rmodeOf g) a b d)
def bodyFdiv (x : Bool) : Body := aluBody (fun a b _ g => (fmtOf36 x).div (rmodeOf g) a b)
def bodyFsqrt (x : Bool) : Body := aluBody (fun a _ _ g => (fmtOf36 x).sqrt (rmodeOf g) a)
def bodyFmin (x : Bool) : Body := aluBody (fun a b _ _ => (fmtOf36 x).minmax false a b)
def bodyFmax (x : Bool) : Body := aluBody (fun a b _ _ => (fmtOf36 x).minmax true a b)
def bodyFceq (x : Bool) : Body := aluBody (fun a b _ _ => (fmtOf36 x).ceq a b)
def bodyFclt (x : Bool) : Body := aluBody (fun a b _ _ => (fmtOf36 x).clt a b)
def bodyFcle (x : Bool) : Body := aluBody (fun a b _ _ => (fmtOf36 x).cle a b)
def bodyFcun (x : Bool) : Body := aluBody (fun a b _ _ => (fmtOf36 x).cun a b)
def bodyCvtfi (x : Bool) : Body := aluBody (fun a _ _ g => (fmtOf36 x).cvtfi (rmodeOf g) a)
def bodyCvtfu (x : Bool) : Body := aluBody (fun a _ _ g => (fmtOf36 x).cvtfu (rmodeOf g) a)
def bodyCvtif (x : Bool) : Body := aluBody (fun a _ _ g => (fmtOf36 x).cvtif (rmodeOf g) a)
def bodyCvtuf (x : Bool) : Body := aluBody (fun a _ _ g => (fmtOf36 x).cvtuf (rmodeOf g) a)
def bodyFneg (x : Bool) : Body := aluBody (fun a _ _ _ => (fmtOf36 x).fneg a)
def bodyFabs (x : Bool) : Body := aluBody (fun a _ _ _ => (fmtOf36 x).fabs a)
def bodyCvtXS : Body := aluBody (fun a _ _ _ => cvtXS a)
def bodyCvtSX : Body := aluBody (fun a _ _ g => cvtSX (rmodeOf g) a)

/-! ### Routing (R112-R114) -/

/-- STEER: A on list 0 or 1 (R113). -/
def bodySteer : Body :=
  { selectors := [1], extra := noExtra,
    out := fun _ _ v _ =>
      if 1 < v.b.v.toNat then .error (6, 6)
      else .ok { FOut.words v.a PWord.zero with list := some v.b.v.toNat } }

/-- SELECT: A for 1, B for 0; a poisoned control selects B, poisoned (R114). -/
def bodySelect : Body :=
  { selectors := [], extra := noExtra,
    out := fun _ _ v _ =>
      if v.d.p then .ok (FOut.words { v.b with p := true } PWord.zero)
      else if 1 < v.d.v.toNat then .error (6, 6)
      else .ok (FOut.words (if v.d.v = 1 then v.a else v.b) PWord.zero) }

/-- GATE: A; the poison of B reaches nothing (R101, R112). -/
def bodyGate : Body :=
  { selectors := [], extra := noExtra, out := fun _ _ v _ => .ok (FOut.words v.a PWord.zero) }

/-! ### Contexts and calls (R117-R123) -/

/-- The colour of a same, next or new-from-operand action (R62). -/
def actColour (act colour : Nat) (b : Word) : Nat :=
  if act = 0 then colour else if act = 1 then (colour + 1) % 4096 else fieldOf b 0 12

/-- The destination entries of list k of the firing's instruction. -/
def State.entries (s : State) (f : Fire) (k : Nat) : List DEntry :=
  match (s.listsOf f.n (s.graph f.it.graph.toNat) f.ip f.i)[k]? with
  | some l => l.entries
  | none => []

/-- The two link words a CALL writes (R118). -/
def callLink (f : Fire) (v : Vals) (e : DEntry) : Word × Word :=
  if e.act = 3 then
    (match v.link with | some l => (l.w14, l.w15) | none => (0, 0))
  else
    (BitVec.ofNat 36 (f.cid + actColour e.act f.colour v.b.v * 2 ^ 24),
     BitVec.ofNat 36 ((f.ip + e.off) % 2 ^ 20 + e.port * 2 ^ 20))

/-- CALL (R118). A link word of a callee frame past the Frame Store's end is not written. (DESIGN CHOICE, log entry 61) -/
def bodyCall : Body :=
  { selectors := [0], extra := noExtra,
    out := fun s f v _ =>
      let c := fieldOf v.a.v 0 24
      if c = 0xFFFFFF then .error (6, 5)
      else
        match s.entries f 0 with
        | [] => .error (0, 9)
        | e :: args =>
          let l := callLink f v e
          let home := s.homeOf c
          let off := s.cdt c
          let sends := args.map (fun a =>
            ({ cid := c, ip := (f.ip + a.off) % 2 ^ 20, colour := actColour a.act (fieldOf v.a.v 24 12) v.b.v,
               port := a.port, pkg := s.ownPkg, val := if a.sel then v.d else v.b } : Send))
          .ok { FOut.words v.b v.d with
                writes := (if off + 14 < 8388608 then [(frameWord home (off + 14), PWord.clean l.1)] else []) ++
                          (if off + 15 < 8388608 then [(frameWord home (off + 15), PWord.clean l.2)] else []),
                sends := sends, list := none } }

/-- RET (R119): A to the link. -/
def bodyRet : Body :=
  { selectors := [], extra := noExtra,
    out := fun s _ v _ =>
      match v.link with
      | some l => .ok { FOut.words v.a PWord.zero with
          sends := [{ cid := l.cid, ip := l.ip, colour := l.colour, port := l.port, pkg := s.ownPkg, val := v.a }],
          list := none }
      | none => .ok { FOut.words v.a PWord.zero with list := none } }

/-- SEND (R120). -/
def bodySend : Body :=
  { selectors := [1, 2], extra := noExtra,
    out := fun _ _ v _ =>
      if fieldOf v.d.v 20 2 = 3 || fieldOf v.d.v 26 10 != 0 then .error (6, 7)
      else .ok { FOut.words v.a PWord.zero with
          sends := [{ cid := fieldOf v.b.v 0 24, ip := fieldOf v.d.v 0 20, colour := fieldOf v.b.v 24 12,
                      port := fieldOf v.d.v 20 2, pkg := fieldOf v.d.v 22 4, val := v.a }] } }

/-- SELF (R121): no result is poisoned. -/
def bodySelf : Body :=
  { selectors := [], extra := noExtra,
    out := fun _ f _ _ =>
      .ok (FOut.words (.clean (BitVec.ofNat 36 (f.cid + f.colour * 2 ^ 24))) (.clean (BitVec.ofNat 36 f.it.ip.toNat))) }

/-- PRIO (R121). -/
def bodyPrio : Body :=
  { selectors := [0], extra := noExtra,
    out := fun s f v _ =>
      if v.a.v.toNat > 7 || decide ((s.graph f.it.graph.toNat).ceil < v.a.v.toNat) then .error (6, 1)
      else .ok { FOut.words (.clean (BitVec.ofNat 36 (s.hdr f.cid).cls)) PWord.zero with prio := some v.a.v.toNat } }

/-! ### Frame allocation (R51, R122, R123, R205) -/

def State.freelist (s : State) (n : Nat) : Nat := s.fld (lmOff n 0x200) 0 22

/-- A list word used as an address or compared as a count. -/
def rdListWord (f : Fire) (i : Nat) : Rd PWord := do
  let w ← rdWord f (scratchWord ((← Rd.state).freelist f.n + i))
  let _ ← Rd.ptr w
  pure w

/-- A context header read by the context unit; a CID without a header reads state 3 (R50). -/
def rdHeader (f : Fire) (c : Nat) : Rd PWord := do
  let s ← Rd.state
  if s.cdt c = 0 then pure (.clean (BitVec.ofNat 36 (3 * 2 ^ 9)))
  else rdWord f (frameWord (s.homeOf c) (s.cdt c - 1))

/-- The further reads of FALLOC (R122, R205): list words 0 and 1, the popped CID, its header, and the grant. -/
def fallocExtra (f : Fire) (_v : Vals) : Rd (List PWord) := do
  let w0 ← rdListWord f 0
  let w1 ← rdListWord f 1
  let k := fieldOf w0.v 0 24
  if k = 0 then pure [w0, w1]
  else
    let c ← rdListWord f (k + 1)
    let h ← rdHeader f (fieldOf c.v 0 24)
    match ← rdUnit (fun id => .reserve f.n id f.it.graph.toNat) with
    | .grant ok => pure [w0, w1, c, h, .clean (boolWord ok)]
    | _ => pure [w0, w1, c, h, PWord.zero]

/-- The list is corrupt: k above m, or the list reaches past Global Scratch (R122). -/
def listCorrupt (base k m : Nat) : Bool := decide (m < k) || decide (4194304 < base + m + 2)

/-- The result of an empty list or a refused reservation (R122, R205). -/
def fallocEmpty : FOut := FOut.words (.clean 0xFFFFFF) PWord.zero

/-- FALLOC (R122). (DEDUCED, log entry 49) -/
def bodyFalloc : Body :=
  { selectors := [0, 1], extra := fallocExtra,
    out := fun s f v x =>
      let w (i : Nat) : Word := (lget PWord.zero x i).v
      let g := f.it.graph.toNat
      let gr := s.graph g
      let a := v.a.v.toNat
      let b := v.b.v.toNat
      let k := fieldOf (w 0) 0 24
      let m := fieldOf (w 1) 0 24
      let base := s.freelist f.n
      let c := fieldOf (w 2) 0 24
      if 4096 ≤ a || 8 ≤ b || decide (gr.ceil < b) then .error (6, 1)
      else if gr.blocks.length ≤ a then .error (6, 3)
      else if listCorrupt base k m then .error (6, 4)
      else if k = 0 then .ok fallocEmpty
      else if w 4 = 0 then .ok fallocEmpty
      else if c = 0xFFFFFF || (hdrOf (w 3)).st != 0 then .error (6, 3)
      else
        let home := s.homeOf c
        let off := s.cdt c
        let h : Hdr := { aff := c % 64, cls := b, st := 1, graph := g, block := a }
        .ok { FOut.words (.clean (BitVec.ofNat 36 c)) (.clean 1) with
              writes := [(scratchWord base, .clean (BitVec.ofNat 36 (k - 1))),
                         (frameWord home (off - 1), .clean h.word)] ++
                (if off + 13 < 8388608 then
                  [(frameWord home (off + 12), PWord.zero), (frameWord home (off + 13), PWord.zero)] else []) } }

/-- The further reads of FFREE (R123). -/
def ffreeExtra (f : Fire) (v : Vals) : Rd (List PWord) := do
  let w0 ← rdListWord f 0
  let w1 ← rdListWord f 1
  let h ← rdHeader f (fieldOf v.a.v 0 24)
  pure [w0, w1, h]

/-- FFREE (R123). (DEDUCED, log entry 49) -/
def bodyFfree : Body :=
  { selectors := [0], extra := ffreeExtra,
    out := fun s f v x =>
      let w (i : Nat) : Word := (lget PWord.zero x i).v
      let c := fieldOf v.a.v 0 24
      let k := fieldOf (w 0) 0 24
      let m := fieldOf (w 1) 0 24
      let base := s.freelist f.n
      let h := hdrOf (w 2)
      if fieldOf v.a.v 24 12 ≠ 0 || c == 0xFFFFFF || h.st != 1 || h.graph != f.it.graph.toNat then .error (6, 2)
      else if listCorrupt base k m then .error (6, 4)
      else if k = m then .ok (FOut.words PWord.zero PWord.zero)
      else .ok { FOut.words (.clean 1) PWord.zero with
            writes := [(scratchWord (base + k + 2), .clean (BitVec.ofNat 36 c)),
                       (scratchWord base, .clean (BitVec.ofNat 36 (k + 1))),
                       (frameWord (s.homeOf c) (s.cdt c - 1), .clean (({ h with st := 0 } : Hdr).word))],
            freed := true } }

/-! ### EMIT (R124) -/

/-- The vector words of EMIT, each checked as a D address (R124). -/
def rdVector (f : Fire) (base : Nat) : Nat → Nat → Rd (List PWord)
  | 0, _ => pure []
  | m + 1, j => do
    checkAddr f ((base + j) % 2 ^ 36) true
    let w ← rdWord f ((base + j) % 2 ^ 36)
    let ws ← rdVector f base m (j + 1)
    pure (w :: ws)

def emitExtra (f : Fire) (v : Vals) : Rd (List PWord) := do
  let len := bitsOf f.i.lit 4 2 + 1
  if len = 1 then pure [v.b]
  else
    let b ← Rd.ptr v.b
    rdVector f b len 0

/-- EMIT (R124). -/
def bodyEmit : Body :=
  { selectors := [0], extra := emitExtra,
    out := fun _ f v x =>
      .ok { FOut.words v.a PWord.zero with
            pours := x.zipIdx.map (fun p =>
              pourFlit f.n (bitsOf f.i.lit 0 4) p.2 (bitsOf f.i.lit 4 2) v.a.v.toNat p.1) } }

/-! ### Latches (R125, R126) -/

/-- The class to which the Latch Bank has lifted a context on its die (R247). -/
def Die.liftOf (d : Die) (cid : Nat) : Nat :=
  d.lifts.foldl (fun m p => if p.2.cid.toNat = cid then max m (match p.2.cls with | some c => c.toNat | none => 0) else m) 0

/-- The current class of a context on a die: its header class or its lift (R128). -/
def State.currentClass (s : State) (n cid : Nat) : Nat := max (s.hdr cid).cls ((s.die n).liftOf cid)

/-- The latch request, last of step 1 (R125). -/
def latchExtra (mk : Nat → Nat → Nat → BitVec 24 → BitVec 8 → BitVec 3 → UnitReq) (f : Fire) (v : Vals) : Rd (List PWord) := do
  if 4096 ≤ v.a.v.toNat then throw (.exc 5 1)
  else
    let cls := (← Rd.state).currentClass f.n f.cid
    match ← rdUnit (fun id => mk f.n id v.a.v.toNat f.it.cid f.it.graph (BitVec.ofNat 3 cls)) with
    | .latch r => pure [.clean (BitVec.ofNat 36 r.toNat)]
    | _ => pure [PWord.zero]

/-- The reply of the Latch Bank (R125, R243). -/
def latchOut (x : List PWord) (mk : Word → FOut) : Except (Nat × Nat) FOut :=
  let r := (lget PWord.zero x 0).v
  if fieldOf r 0 2 = 0 then .error (5, 0) else if fieldOf r 0 2 = 3 then .error (5, 2) else .ok (mk r)

/-- LTB.ACQ (R126). -/
def bodyLtbAcq : Body :=
  { selectors := [0], extra := latchExtra (fun n id l c g k => .acquire n id l c g k),
    out := fun _ _ _ x =>
      latchOut x (fun r => FOut.words (.clean (boolWord (fieldOf r 0 2 == 1))) (.clean r)) }

/-- LTB.REL (R126). -/
def bodyLtbRel : Body :=
  { selectors := [0], extra := latchExtra (fun n id l _ _ _ => .release n id l),
    out := fun _ _ _ x => latchOut x (fun r => FOut.words (.clean (boolWord (fieldOf r 0 2 == 1))) PWord.zero) }

/-- BRK (R130). -/
def bodyBrk : Body :=
  { selectors := [], extra := noExtra,
    out := fun s f v _ =>
      if s.flag (lmOff f.n 0x300) 0 then .error (6, 0) else .ok (FOut.words v.a PWord.zero) }

/-- The body of an opcode; a prefix never reaches step 2. -/
def bodyOf (x : Bool) : FOp → Body
  | .add => bodyAdd | .sub => bodySub | .adc => bodyAdc | .sbc => bodySbc | .neg => bodyNeg | .mul => bodyMul
  | .mulw => bodyMulw | .mulwu => bodyMulwu | .div => bodyDiv | .divu => bodyDivu | .min => bodyMin | .max => bodyMax
  | .minu => bodyMinu | .maxu => bodyMaxu | .and => bodyAnd | .or => bodyOr | .xor => bodyXor | .andn => bodyAndn
  | .not => bodyNot | .shl => bodyShl | .shr => bodyShr | .sar => bodySar | .rol => bodyRol | .ror => bodyRor
  | .popc => bodyPopc | .clz => bodyClz | .ceq => bodyCeq | .cne => bodyCne | .clt => bodyClt | .cle => bodyCle
  | .cltu => bodyCltu | .cleu => bodyCleu | .steer => bodySteer | .select => bodySelect | .mov => bodyMov
  | .gate => bodyGate | .fadd => bodyFadd x | .fsub => bodyFsub x | .fmul => bodyFmul x | .ffma => bodyFfma x
  | .fdiv => bodyFdiv x | .fsqrt => bodyFsqrt x | .fmin => bodyFmin x | .fmax => bodyFmax x | .fceq => bodyFceq x
  | .fclt => bodyFclt x | .fcle => bodyFcle x | .fcun => bodyFcun x | .cvtfi => bodyCvtfi x | .cvtfu => bodyCvtfu x
  | .cvtif => bodyCvtif x | .cvtuf => bodyCvtuf x | .fneg => bodyFneg x | .fabs => bodyFabs x | .cvtXS => bodyCvtXS
  | .cvtSX => bodyCvtSX | .call => bodyCall | .ret => bodyRet | .send => bodySend | .falloc => bodyFalloc
  | .ffree => bodyFfree | .self => bodySelf | .prio => bodyPrio | .emit => bodyEmit | .ltbAcq => bodyLtbAcq
  | .ltbRel => bodyLtbRel | .brk => bodyBrk | .repI => bodyMov | .repU => bodyMov

end Sys2Proof.Machine
end

