-- ==== Sys2Proof/Machine/Tamp.lean ====
section
/-! DEFINITION. The Tamp controller's budgets and credits (R206-R211), generator items (R209), and the passing of time
(R370, R381, R188). -/

namespace Sys2Proof.Machine

/-- The budget table T(L, c) (R210). -/
def tampTable (level cls : Nat) : Nat :=
  if level = 0 then 1024
  else if level = 1 then (if cls < 2 then 128 else if cls < 4 then 512 else 1024)
  else if level = 2 then (if cls < 2 then 16 else if cls < 4 then 128 else if cls < 6 then 512 else 1024)
  else if level = 3 then (if cls < 2 then 0 else if cls < 4 then 16 else if cls < 6 then 128 else 512)
  else (if cls < 6 then 0 else 64)

def State.classFloor (s : State) (c : Nat) : Nat := s.fld (tmpOff (0x40 + 4 * c)) 0 11
def State.classCeil (s : State) (c : Nat) : Nat := s.fld (tmpOff (0x40 + 4 * c)) 11 11

/-- The applied budget B at a level (R210). -/
def State.budget (s : State) (level c : Nat) : Nat :=
  if level < 4 then min (s.classCeil c) (max (s.classFloor c) (tampTable level c))
  else min (s.classCeil c) (tampTable level c)

/-- The effective level of a die (R208). -/
def State.effLevel (s : State) (n : Nat) : Nat := max (s.die n).pkgLevel (s.die n).level

/-- A credit counter under a budget (R211): held at 1,024 while unlimited, at most B otherwise. -/
def creditUnder (b : Nat) (cr : Int) : Int := if b = 1024 then 1024 else min cr b

/-- A credit counter after a window refill (R211). -/
def creditRefill (b : Nat) (cr : Int) : Int := if b = 1024 then 1024 else min (cr + b) b

def creditMap (f : Nat → Int → Int) (cr : List Int) : List Int := cr.zipIdx.map (fun p => f p.2 p.1)

/-- The floor of a class holds on a die (R213). -/
def State.floorHolds (s : State) (n c : Nat) : Bool :=
  let l := s.effLevel n
  decide (1 ≤ l) && decide (l ≤ 3) && decide (tampTable l c < s.classFloor c)

/-- The CK_TB edges since which floors hold (R371); an episode ends when its floor stops holding (R213). -/
def State.trackFloors (s : State) (n : Nat) : State :=
  s.updDie n (fun d =>
    { d with
      floorSince := (List.range 8).map (fun c =>
        if s.floorHolds n c then some ((lget none d.floorSince c).getD s.clk.edges) else none),
      floorDone := (List.range 8).map (fun c => s.floorHolds n c && lget false d.floorDone c) })

/-- Every counter of a die follows its budgets after a change of level or of TMP_CLASS (R211). -/
def State.syncCredits (s0 : State) (n : Nat) : State :=
  let s := s0.trackFloors n
  let l := s.effLevel n
  (List.range 64).foldl (fun t k =>
    let x := t.pe (peKey n k)
    t.setPe (peKey n k) { x with cr := creditMap (fun c v => creditUnder (s.budget l c) v) x.cr }) s

/-- The Command Engine's injection counters follow the package level (R212). -/
def State.syncInject (s : State) : State :=
  { s with ce := { s.ce with injCr := creditMap (fun c v => creditUnder (s.budget s.pkgLevel c) v) s.ce.injCr } }

/-- After a write of TMP_CLASS. -/
def State.syncAll (s : State) : State := ((List.range 6).foldl State.syncCredits s).syncInject

/-- A charge of `amount` to a PE's class counter (R211: nothing is charged while B = 1,024). -/
def State.charge (s : State) (n k c amount : Nat) : State :=
  if s.budget (s.effLevel n) c = 1024 then s
  else
    let x := s.pe (peKey n k)
    s.setPe (peKey n k) { x with cr := lset x.cr c (lget 0 x.cr c - (amount : Int)) }

def State.credit (s : State) (n k c : Nat) : Int := lget 0 (s.pe (peKey n k)).cr c

/-- The instruction in a slot sends to a list of more than one entry (R209). -/
def State.fanOut (s : State) (n ip : Nat) (i : Insn) : Bool :=
  decide (2 ≤ i.ptr) && i.fmt != .px && i.op != .ret && !(dentryOf (s.isWord n (2 * ip + i.ptr)).1).last

/-- The slot begins a repeated pair: a prefix in PX, with a slot after it in the graph that is no prefix (R90). -/
def State.formsPair (s : State) (n ip : Nat) : Bool :=
  s.isPair n ip && !s.afterPrefix n ip && (s.graph (s.graphOfIp ip)).holds (ip + 1) && !s.prefixAt n (ip + 1)

/-- A generator item (R209): by its opcode, whatever its decode will find. -/
def State.generator (s : State) (n : Nat) (it : Item) : Bool :=
  let ip := it.ip.toNat
  if it.kind = 1 then true
  else if it.kind ≠ 0 then false
  else s.formsPair n ip ||
    (match opRowOf (s.opAt n ip) with
     | some r => r.op == .call || r.op == .falloc || r.op == .send
     | none => false) ||
    (match readSlot (s.slot n ip) with
     | .bad _ => false
     | .ok _ i => s.fanOut n ip i)

/-- The controller suspends a lane's class on its PE: its head is a generator item and the counter is below 1 (R209). -/
def State.suspended (s : State) (n k c : Nat) : Bool :=
  match (s.lane (laneKey n k c)).head with
  | [] => false
  | it :: _ => s.generator n it && decide (s.credit n k c < 1)

/-! ### Time -/

/-- The CK_FAB of a die advances by k nanoseconds. -/
def Die.pass (k : Nat) (d : Die) : Die :=
  if d.up && !d.stopped then { d with fab := d.fab + k * d.freq } else d

/-- A lane's age over the passing of k nanoseconds (R188): it counts the cycles with a visible head that waits, unless
its class is suspended. -/
def State.ageLane (s : State) (k key : Nat) (l : Lane) : Lane :=
  if l.head.isEmpty || s.suspended (key / 512) (key / 8 % 64) (key % 8) then l
  else
    let d := s.die (key / 512)
    { l with age := l.age + (((d.pass k).fab) / 10 - d.fab / 10) }

/-- k CK_TB edges pass (R370): the timebase, every running CK_FAB and the lanes' ages advance. (DESIGN CHOICE, log
entry 4) -/
def State.edgesPass (s : State) (k : Nat) : State :=
  { s with clk := { s.clk with tb := s.clk.tb + BitVec.ofNat 64 k, edges := s.clk.edges + k },
           dies := s.dies.map (Die.pass k),
           lanes := s.lanes.map (fun p => (p.1, s.ageLane k p.1 p.2)) }

/-- k CK_TB edges pass, and the frames whose slots begin meanwhile leave (R29, R298). (DESIGN CHOICE, log entry
66) (DESIGN CHOICE, log entry 4) -/
def State.advance (s : State) (k : Nat) : State :=
  if s.clk.run then (s.edgesPass k).transmit (64 * s.now) (64 * (s.now + k)) else s

/-- Time passes up to a timebase value that is still ahead (DESIGN CHOICE, log entry 5). -/
def State.passUntil (s : State) (t : Nat) : State :=
  if s.clk.tb.toNat < t then s.advance (t - s.clk.tb.toNat) else s

/-- Time passes up to a count of CK_TB edges that is still ahead (R371: timers ignore a load). (DESIGN CHOICE, log
entry 5) -/
def State.passEdges (s : State) (e : Nat) : State :=
  if s.clk.edges < e then s.advance (e - s.clk.edges) else s

/-- Time passes up to a cycle count of a die that is still ahead, while its clock runs. (DESIGN CHOICE, log entry
5) -/
def State.passCycles (s : State) (n c : Nat) : State :=
  let d := s.die n
  if d.up && !d.stopped && decide (0 < d.freq) && decide (d.cycles < c) then
    s.advance ((10 * c - d.fab + d.freq - 1) / d.freq)
  else s

/-- Time passes up to the next timebase value that is `r` mod `m`, where it is not one. (DESIGN CHOICE, log entry
5) -/
def State.passMod (s : State) (m r : Nat) : State := s.passUntil (s.now + (r + m - s.now % m) % m)

end Sys2Proof.Machine
end

