-- ==== Sys2Proof/Machine/Fire.lean ====
section
/-! DEFINITION. Firings (R58, R63, R92, R93, R127-R129, R185, R187): steps 1 to 5, exceptions (R65-R67), deferrals,
repeated pairs, and the selection of an item by a PE. -/

namespace Sys2Proof.Machine

/-! ### Exceptions -/

/-- Exception word E0 (R66). -/
def excWord (ip opcode cls cause : Nat) : Word :=
  BitVec.ofNat 36 (ip % 2 ^ 20 + opcode % 512 * 2 ^ 20 + cls % 8 * 2 ^ 29 + cause % 16 * 2 ^ 32)

/-- A token of the own package. -/
def State.mkToken (s : State) (cid ip colour port cls : Nat) (v : PWord) : Token :=
  { cid := BitVec.ofNat 24 cid, ip := BitVec.ofNat 20 ip, colour := BitVec.ofNat 12 colour, port := BitVec.ofNat 2 port,
    cls := BitVec.ofNat 3 cls, pkg := BitVec.ofNat 4 s.ownPkg, val := v }

/-- An exception of a firing on die n (R65-R67): four tokens to the handler, or the graph freezes. A duplicate at the
handler's own IPs stands for an exception token that meets a duplicate, and the poison of G12 is ignored. (DESIGN
CHOICE, log entry 62) -/
def State.raiseExc (s : State) (n : Nat) (it : Item) (lane ip opcode colour : Nat) (vals : List PWord)
    (cls cause : Nat) : State :=
  let h := fieldOf (s.gWord it.cid.toNat 12).v 0 20
  let cid := it.cid.toNat
  if h = 0 || h == 0xFFFFF || ip == h || ip == h + 1 then
    (s.freeze it.graph.toNat).graphRec 2 it.graph.toNat (tagDetail cid ip colour)
  else
    let tok (t : State) (ip' port : Nat) (v : PWord) : State := t.sendToken n it.graph.toNat (t.mkToken cid ip' colour port lane v)
    let s1 := tok s h 0 (.clean (excWord ip opcode cls cause))
    let s2 := tok s1 h 1 (lget PWord.zero vals 0)
    let s3 := tok s2 (h + 1) 0 (lget PWord.zero vals 1)
    tok s3 (h + 1) 1 (lget PWord.zero vals 2)

/-! ### Steps 1 and 2 -/

/-- Some entry of some list uses the link (R62): the link is read for the entries of an unselected list too. (DESIGN
CHOICE, log entry 62) -/
def State.needsLink (s : State) (f : Fire) : Bool :=
  f.i.op == .ret || (s.listsOf f.n (s.graph f.it.graph.toNat) f.ip f.i).any (fun l => l.entries.any (fun e => e.act == 3))

/-- Some entry takes its colour from operand B (R62). -/
def State.needsColour (s : State) (f : Fire) : Bool :=
  (s.listsOf f.n (s.graph f.it.graph.toNat) f.ip f.i).any (fun l => l.entries.any (fun e => e.act == 2))

/-- An operand that selects something must not be poisoned (R101). -/
def Rd.selector (b : Body) (pos : Nat) (w : PWord) : Rd Unit :=
  if b.selectors.contains pos && w.p then throw (.exc 1 2) else pure ()

/-- Step 1 of a firing (R58, R104): G13, operands A, B, D, the link, and the opcode's further reads. A G13 past the Frame
Store's end reads 0. (DESIGN CHOICE, log entry 61) -/
def stepOne (f : Fire) (b : Body) : Rd (Vals × Option Place × List PWord) := do
  let s ← Rd.state
  let g13 ← if s.cdt f.cid + 13 < 8388608 then rdLocal f.n (s.cdt f.cid + 13) else pure PWord.zero
  let a ← rdOperand f 0 f.i.a
  Rd.selector b 0 a
  let w ← if f.i.fmt = .tw then (do
      let w : PWord := .clean (sextWord 32 f.i.lit)
      modify (fun r => { r with vals := lset r.vals 1 w })
      pure w)
    else if f.r.useB then rdOperand f 1 f.i.b else pure PWord.zero
  Rd.selector b 1 w
  if (← Rd.state).needsColour f && w.p then throw (.exc 1 2)
  let dIn ← if f.i.fmt = .t3 && f.r.d = .input then rdOperand f 2 f.i.d else pure PWord.zero
  Rd.selector b 2 dIn
  let out := f.i.fmt == .t3 && (f.r.d == .out1 || f.r.d == .out2) && f.i.d != Spec.unused
  let place ← if out then (do
      let p ← rdDest f f.i.d (if f.r.d = .out2 then 2 else 1)
      pure (some p)) else pure none
  let link ← if (← Rd.state).needsLink f then (do
      let l ← rdLink f
      pure (some l)) else pure none
  let v : Vals := { a := a, b := w, d := dIn, g13 := g13.v, link := link }
  let x ← b.extra f v
  pure (v, place, x)

/-! ### Step 3 -/

/-- Buffered writes of a die land up to and including the oldest one of a PE (R235). (DESIGN CHOICE, log entry 51) -/
def State.drainOldest (s : State) (n k : Nat) : State :=
  let buf := (s.die n).wbuf
  let pre := buf.takeWhile (fun b => b.pe != k)
  let rest := buf.drop pre.length
  let s1 := (pre ++ rest.take 1).foldl (fun t b => t.drainWr n b) s
  s1.updDie n (fun d => { d with wbuf := rest.drop 1 })

/-- A D word or pointer write-back enters the PE's write buffer (R235). (DESIGN CHOICE, log entry 51) -/
def State.bufWrite (s : State) (n k seq off : Nat) (w : PWord) : State :=
  if s.overtaken n seq (frameWord n off) then s
  else
    let s1 := if 4 ≤ ((s.die n).wbuf.filter (fun b => b.pe == k)).length then s.drainOldest n k else s
    (s1.updDie n (fun d => { d with wbuf := d.wbuf ++
      [{ pe := k, addr := frameWord n off, w := s1.withOred n seq (frameWord n off) w }] })).noteWriter n seq (frameWord n off)

/-- A write outside the die leaves as a MEM_WR flit; toward a die that is down it is discarded (R36, R106). -/
def State.remoteWrite (s : State) (n dest a : Nat) (w : PWord) : State :=
  if dest < 6 && !(s.die dest).up then s else s.sendFlit n (memFlit ftWr dest n a 0 w false)

/-- A D word to a global address. (DESIGN CHOICE, log entry 51) -/
def State.writeD (s : State) (n k seq a : Nat) (w : PWord) : State :=
  match s.kindOf a with
  | .frame m off => if m = n then s.bufWrite n k seq off w else s.remoteWrite n m a w
  | _ => s.remoteWrite n 6 a w

/-- A device write of step 3 (links, headers, list words): at the bank when local (R51, R232). -/
def State.writeDev (s : State) (n seq a : Nat) (w : PWord) : State :=
  match s.kindOf a with
  | .frame m off =>
    if m ≠ n then s.remoteWrite n m a w
    else if s.overtaken n seq (frameWord n off) then s
    else (s.putFrame n off (s.withOred n seq (frameWord n off) w)).noteWriter n seq (frameWord n off)
  | _ => s.remoteWrite n 6 a w

/-- The D words of a firing; an ISTRUCT cause stops it (R58 step 3). -/
def State.writePlace (s : State) (f : Fire) (o : FOut) : Option Place → Except Nat State
  | none => .ok s
  | some (.elem off) => s.isw f.n f.seq off o.w0
  | some (.frame off) =>
    let s1 := s.bufWrite f.n f.k f.seq off o.w0
    .ok (if f.r.d = .out2 then s1.bufWrite f.n f.k f.seq (off + 1) o.w1 else s1)
  | some (.word a) =>
    let s1 := s.writeD f.n f.k f.seq a o.w0
    .ok (if f.r.d = .out2 then s1.writeD f.n f.k f.seq ((a + 1) % 2 ^ 36) o.w1 else s1)

/-- Pointer write-backs in order (R83). -/
def State.writePins (s : State) (f : Fire) : List (Nat × Word) → State
  | [] => s
  | p :: ps => (s.bufWrite f.n f.k f.seq (s.cdt f.cid + p.1) (.clean p.2)).writePins f ps

/-! ### Step 5 -/

/-- The token of a destination-list entry (R62, R89). -/
def State.entryToken (s : State) (f : Fire) (v : Vals) (o : FOut) (e : DEntry) : Token :=
  let val := if e.sel then o.w1 else o.w0
  match e.act == 3, v.link with
  | true, some l => s.mkToken l.cid l.ip l.colour l.port f.lane val
  | _, _ => s.mkToken f.cid ((f.ip + e.off) % 2 ^ 20) (actColour e.act f.colour v.b.v) e.port f.lane val

/-- The vector of an EMIT leaves as POUR_WORD flits; that of a graph not bound to the port is counted and not sent (R291). -/
def State.sendVector (s : State) (f : Fire) (ws : List (BitVec 128)) : State :=
  match ws with
  | [] => s
  | w :: _ =>
    let g := s.fld (pfpOff (fieldOf w 16 4) 0x14) 0 8
    if g ≠ 0 ∧ g = f.it.graph.toNat then ws.foldl (fun t x => t.queueFlit (hubUp f.n) x) s
    else s.bump (lmOff f.n 0x900) 0 32 1

/-- The tokens and flits of step 5, in order. (DESIGN CHOICE, log entry 14) -/
def State.sendAll (s : State) (f : Fire) (v : Vals) (o : FOut) : State :=
  let s1 := o.sends.foldl (fun t x =>
    t.sendToken f.n f.it.graph.toNat { t.mkToken x.cid x.ip x.colour x.port f.lane x.val with pkg := BitVec.ofNat 4 x.pkg }) s
  let s2 := s1.sendVector f o.pours
  match o.list with
  | none => s2
  | some k => (s.entries f k).foldl (fun t e => t.sendToken f.n f.it.graph.toNat (t.entryToken f v o e)) s2

/-! ### A firing as a whole -/

/-- The exception of a firing past its decode; a granted reservation of a FALLOC is released (R122, R205). -/
def State.failFire (s : State) (f : Fire) (got : List Ans) (vals : List PWord) (cls cause : Nat) : State :=
  let s1 := if f.i.op = .falloc && got.contains (.grant true) then
      { s with units := s.units ++ [.unreserve f.it.graph.toNat] } else s
  s1.raiseExc f.n f.it f.lane f.ip f.r.code f.colour vals cls cause

/-- Flags of a firing, with the V of an overflowed fold; a poisoned operand loses it (R173). -/
def fireFlags (f : Fire) (v : Vals) (fl : Flags) : Flags :=
  if f.it.ovf && !(v.a.p || v.b.p || v.d.p) then { fl with v := true } else fl

/-- The divider of the PE after a division (R138). (DESIGN CHOICE, log entry 50) -/
def State.divide (s : State) (f : Fire) (v : Vals) : State :=
  let put (signed : Bool) : State :=
    s.setPe (peKey f.n f.k) { s.pe (peKey f.n f.k) with divider := Divider.run signed v.a.v v.b.v }
  match f.i.op with
  | .div => put true
  | .divu => put false
  | _ => s

/-- The raised flags are ORed into G13, unless a later firing has written it (R58 step 4, R64 item 4). -/
def State.orG13 (s : State) (f : Fire) (fl : Flags) : State :=
  let a := frameWord f.n (s.cdt f.cid + 13)
  if fl.toNat = 0 || s.overtaken f.n f.seq a then s
  else (s.setG f.cid 13 { v := orFlags (s.gWord f.cid 13).v fl, p := (s.gWord f.cid 13).p }).updDie f.n (fun d =>
    { d with ored := (f.seq, a, fl.toNat) :: d.ored })

/-- The device writes of step 3 that come before D (R118, R121, R122, R123). -/
def State.writeOwn (s : State) (f : Fire) (o : FOut) : State :=
  let s1 := o.writes.foldl (fun t p => t.writeDev f.n f.seq p.1 p.2) s
  match o.prio with
  | some c => s1.setHdr f.cid { s1.hdr f.cid with cls := c }
  | none => s1

/-- Steps 2 to 5 (R58). -/
def State.finishFire (s0 : State) (f : Fire) (b : Body) (r : Rs) (v : Vals) (place : Option Place) (x : List PWord) :
    State :=
  let s := s0.divide f v
  match b.out s f v x with
  | .error (c, k) => s.failFire f r.got r.vals c k
  | .ok o =>
    let fl := fireFlags f v o.fl
    match trapCause v.g13 fl with
    | some k => s.failFire f r.got r.vals 2 k
    | none =>
      match (s.writeOwn f o).writePlace f o place with
      | .error k => s.failFire f r.got r.vals 3 k
      | .ok s1 =>
        let s5 := (s1.writePins f r.pins).orG13 f fl
        let s6 := if o.freed then s5.decActive f.it.graph.toNat else s5
        let s7 := if f.i.op = .falloc && r.got.contains (.grant false) then s6.bump (tmpOff 0x2C) 0 32 1 else s6
        s7.sendAll f v o

/-- The reader's start. -/
def Rs.start (s : State) (old : List Ans) (vals : List PWord) : Rs :=
  { s := s, old := old, got := [], vals := vals, pins := [] }

/-- The fire of a firing in progress, from the slot as it stands. -/
def State.fireOf (s : State) (n : Nat) (g : Firing) (ip : Nat) (rep : Option RepCtx) : Option Fire :=
  match readSlot (s.slot n ip) with
  | .bad _ => none
  | .ok r i =>
    some { n := n, k := g.pe, it := g.item, ip := ip,
           colour := (g.item.colour.toNat + (match rep with | some x => x.i | none => 0)) % 4096,
           rep := rep, r := r, i := i, lane := g.lane.toNat, seq := g.seq }

/-- A waiting firing joins the die's list. -/
def State.hold (s : State) (n : Nat) (g : Firing) : State := s.updDie n (fun d => { d with firing := d.firing ++ [g] })

/-- An attempt at a firing with the answers it has (R58). (DESIGN CHOICE, log entry 50) -/
def State.attempt (s : State) (g : Firing) (f : Fire) : State :=
  let b := bodyOf f.i.x f.i.op
  match (stepOne f b).run.run (Rs.start s g.got (tokenVals g.item)) with
  | (.error (.wait w), r) => r.s.hold f.n { g with got := r.got, wait := w }
  | (.error (.exc c k), r) => r.s.failFire f r.got r.vals c k
  | (.error (.defer off), r) =>
    match r.s.deferOn f off with
    | some s1 => s1
    | none => r.s.failFire f r.got r.vals 3 1
  | (.ok (v, place, x), r) => r.s.finishFire f b r v place x

/-! ### Repeated pairs -/

/-- The PIN base of a position, read once before repetition 0 (R93). -/
def rdPinBase (f : Fire) (pos : Nat) (sp : Spec) (used : Bool) : Rd PWord := do
  if used && sp.m == .pin then
    let w ← rdG f (bitsOf sp.f 0 4)
    let _ ← Rd.ptr w
    pure w
  else pure (f.it.val pos)

/-- The count and the PIN bases of a pair (R91-R93). The flag tells whether a fault names the prefix slot.
(DEDUCED, log entry 49) -/
def rdPair (pre f : Fire) (unbroken : Bool) : Rd (Nat × List PWord) := do
  let c ← rdSpec pre 0 pre.i.a
  let n := c.v.toNat
  let a ← rdPinBase f 0 f.i.a true
  let b ← rdPinBase f 1 f.i.b (f.r.useB && f.i.fmt != .tw)
  let d ← rdPinBase f 2 f.i.d (f.i.fmt == .t3 && f.r.d != .none)
  if c.p || decide (2 ^ 32 ≤ n) || (unbroken && decide (4096 < n)) then throw (.exc 0 10)
  else pure (n, [a, b, d])

/-- The item's graph discards its items (R218). -/
def State.discards (s : State) (it : Item) : Bool :=
  let g := (s.graph it.graph.toNat).state
  g == .frozen || g == .aborting

/-- The resume item of a pair before repetition `next` (R129). -/
def resumeItem (r : RepRun) : Item :=
  { r.item with kind := 1, v0 := lget PWord.zero r.pins 0, v1 := lget PWord.zero r.pins 1, v2 := lget PWord.zero r.pins 2,
                n := BitVec.ofNat 32 r.n, nxt := BitVec.ofNat 32 r.next }

/-- A resume item goes onto the PE's own lane, or is held by the PE behind those it holds (R129, R183). -/
def State.pushOwn (s : State) (n k : Nat) (it : Item) : State :=
  let c := (s.hdr it.cid.toNat).cls
  let i := { it with cls := BitVec.ofNat 3 c }
  let x := s.pe (peKey n k)
  let hold := s.setPe (peKey n k) { x with heldItems := x.heldItems ++ [i] }
  if x.heldItems.isEmpty then (s.lanePush (peKey n k) c i).getD hold else hold

/-- The held resume items try their lanes again, in order (R183). -/
def State.retryHeld (s : State) (n k : Nat) : State :=
  (s.pe (peKey n k)).heldItems.foldl (fun t it => t.pushOwn n k it)
    (s.setPe (peKey n k) { s.pe (peKey n k) with heldItems := [] })

/-- A pair whose decode has passed joins its PE; that of a graph PARKED or ABORTING meanwhile is suspended, or leaves, as a
running one does (R219, R362). -/
def State.takeUp (s : State) (n k : Nat) (p : RepRun) : State :=
  if !p.unbroken && (s.graph p.item.graph.toNat).state == .parked then s.pushOwn n k (resumeItem p)
  else if !p.unbroken && s.discards p.item then s
  else s.setPe (peKey n k) { s.pe (peKey n k) with runs := (s.pe (peKey n k)).runs ++ [p] }

/-- The decode of a pair goes on with its count; a pair of count above 0 becomes ready to repeat (R91-R93). -/
def State.attemptPair (s : State) (n : Nat) (g : Firing) (unbroken : Bool) : State :=
  let p := g.item.ip.toNat
  match s.fireOf n g p none, s.fireOf n g (p + 1) none with
  | some pre, some f =>
    match (rdPair pre f unbroken).run.run (Rs.start s g.got (tokenVals g.item)) with
    | (.error (.wait w), r) => r.s.hold n { g with got := r.got, wait := w }
    | (.error (.defer _), r) => r.s
    | (.error (.exc c k), r) =>
      let inCount := c = 0 || (match (rdSpec pre 0 pre.i.a).run.run (Rs.start s g.got []) with
        | (.error (.exc _ _), _) => true
        | _ => false)
      if inCount then r.s.raiseExc n g.item g.lane.toNat p pre.r.code g.item.colour.toNat (tokenVals g.item) c k
      else r.s.raiseExc n g.item g.lane.toNat (p + 1) f.r.code g.item.colour.toNat (tokenVals g.item) c k
    | (.ok (0, _), r) => r.s
    | (.ok (m, pins), r) =>
      r.s.takeUp n g.pe { item := g.item, unbroken := unbroken, n := m, next := 0, pins := pins, lane := g.lane, fresh := true }
  | _, _ => s

/-- A firing goes on, or begins, with the answers it has. -/
def State.runFiring (s : State) (n : Nat) (g : Firing) : State :=
  match g.phase with
  | .repDecode u => s.attemptPair n g u
  | .single =>
    match s.fireOf n g g.item.ip.toNat none with
    | some f => s.attempt g f
    | none => s
  | .repetition _ r =>
    match s.fireOf n g (g.item.ip.toNat + 1) (some r) with
    | some f => s.attempt g f
    | none => s

/-- The firings of a die whose wait satisfies a test go on with an answer (none: a bank has woken). (DESIGN
CHOICE, log entry 50) -/
def State.wake (s : State) (n : Nat) (p : Wait → Bool) (a : Option Ans) : State :=
  let hits := (s.die n).firing.filter (fun g => p g.wait)
  let s1 := s.updDie n (fun d => { d with firing := d.firing.filter (fun g => !p g.wait) })
  hits.foldl (fun t g => t.runFiring n { g with got := match a with | some x => g.got ++ [x] | none => g.got }) s1

/-! ### Beginning a firing -/

/-- Firings of a PE that wait and count against R105. -/
def State.remoteCount (s : State) (n k : Nat) : Nat :=
  ((s.die n).firing.filter (fun g => g.pe == k && g.item.remote)).length

/-- A context unit operation of the die is in progress (R103, R122). -/
def State.ctxBusy (s : State) (n : Nat) : Bool :=
  (s.die n).firing.any (fun g =>
    let ip := match g.phase with | .repetition _ _ => g.item.ip.toNat + 1 | _ => g.item.ip.toNat
    match opRowOf (s.opAt n ip) with
    | some r => r.op == .falloc || r.op == .ffree
    | none => false)

/-- A slot holds an opcode of the context unit (R103). -/
def State.ctxAt (s : State) (n ip : Nat) : Bool :=
  match opRowOf (s.opAt n ip) with
  | some r => r.op == .falloc || r.op == .ffree
  | none => false

/-- The unit of an item's firing is the context unit (R103): of a pair or a resume item, that of the slot after the
prefix. -/
def State.needsCtx (s : State) (n : Nat) (it : Item) : Bool :=
  if it.kind = 1 || (it.kind = 0 && s.isPair n it.ip.toNat) then s.ctxAt n (it.ip.toNat + 1)
  else it.kind == 0 && s.ctxAt n it.ip.toNat

/-- A head item of class c on a PE is eligible (R187, R218): an item that is discarded needs only that no pair runs. -/
def State.eligible (s : State) (n k c : Nat) (it : Item) : Bool :=
  let x := s.pe (peKey n k)
  x.runs.isEmpty &&
  (it.broken || s.discards it ||
    (x.heldItems.isEmpty && (s.graph it.graph.toNat).state != .parked && !s.suspended n k c &&
     (!it.remote || decide (s.remoteCount n k < 16)) && !(s.needsCtx n it && s.ctxBusy n)))

/-- The rank of a lane's head: aged first, then effective class, then the higher lane (R187, R188). -/
def State.rank (s : State) (n k c : Nat) (it : Item) : Nat :=
  let thr := s.fld (lmOff n 0x504) 0 24
  let aged := thr != 0 && decide (thr ≤ (s.lane (laneKey n k c)).age)
  b2n aged * 64 + (max c ((s.die n).liftOf it.cid.toNat)) * 8 + c

/-- The item as the PE takes it: a lost word 7 alone is replaced by the graph of the context header (R195). -/
def State.delivered (s : State) (it : Item) : Item :=
  if it.bad.getLsbD 7 && !it.broken then { it with graph := BitVec.ofNat 8 (s.hdr it.cid.toNat).graph } else it

/-- The item a PE selects, with its lane (R187): none while CK_FAB gives no edge (R381). -/
def State.select (s : State) (n k : Nat) : Option (Nat × Item) :=
  if !(s.die n).up || (s.die n).stopped then none
  else
    ([0, 1, 2, 3, 4, 5, 6, 7].filterMap (fun c =>
      match (s.lane (laneKey n k c)).head with
      | [] => none
      | it0 :: _ =>
        let it := s.delivered it0
        if (s.lane (laneKey n k c)).diag then none
        else if s.eligible n k c it then some (c, it) else none)).foldl
      (fun best x => match best with
        | none => some x
        | some b => if s.rank n k b.1 b.2 < s.rank n k x.1 x.2 then some x else some b) none

/-- The die notes that a firing of a graph begins: its cycle (R214) and its place (R64 item 4). -/
def State.noteBegin (s : State) (n g : Nat) : State :=
  s.updDie n (fun d => { d with lastFire := tins d.lastFire g (s.period n), began := d.began + 1,
                                wrote := if d.firing.isEmpty then [] else d.wrote,
                                ored := if d.firing.isEmpty then [] else d.ored })

/-- A firing of a context begins on a PE: the affinity follows (R185). -/
def State.beginOn (s : State) (n k : Nat) (it : Item) : State :=
  let h := s.hdr it.cid.toNat
  let s1 := if h.st != 3 && h.aff != k then s.setHdr it.cid.toNat { h with aff := k } else s
  s1.noteBegin n it.graph.toNat

/-- A popped item with its lane. -/
def State.popHead (s : State) (n k c : Nat) : State := s.lanePop (peKey n k) c

/-- The number of a lane's queue (R204). -/
def laneQueue (n k c : Nat) : Nat := 0x1000 + n * 0x200 + k * 8 + c

/-- The Advisory records of an item's lost words (R195). (UNVERIFIED, log entry 9) -/
def State.noteBad (s : State) (n k c : Nat) (it : Item) : State :=
  (bitsSet 8 it.bad.toNat).foldl (fun t _ => t.lostWord (laneQueue n k c) n 0x1F) s

/-- An item whose words 0, 1, 5 or 6 are lost is discarded, and its graph enters FROZEN, or, with word 7 lost too, the die
fails (R195). -/
def State.loseItem (s : State) (n k c : Nat) (it : Item) : State :=
  let s1 := (s.popHead n k c).bump (lmOff n 0x50C) 0 32 1
  let g := it.graph.toNat
  if it.bad.getLsbD 7 then s1.event 3 n (lmOff n 0x50C) 0 0 0
  else (s1.freeze g).err 2 0 n (lmOff n 0x50C) 0 g (s1.graphFn g) 0 0

/-- The selected item satisfies a row's test: it is popped, and its firing begins. An item that cannot fire is
discarded. -/
def State.fireWhen (s : State) (n k : Nat) (want : State → Item → Bool) (go : State → Nat → Item → State) : State :=
  match s.select n k with
  | none => s
  | some (c, it) =>
    if it.broken then s.loseItem n k c it
    else if !s.discards it && want s it then go (((s.popHead n k c).noteBad n k c it).beginOn n k it) c it else s

/-- A kind 0 item whose slot holds this operation. -/
def wantOp (n : Nat) (op : FOp) (s : State) (it : Item) : Bool :=
  it.kind == 0 && (match opRowOf (s.opAt n it.ip.toNat) with | some r => r.op == op | none => false)

/-- The Instruction Store banks that a decode reads, those of the slot and of its lists, are reached (R229). -/
def State.reachCode (s : State) (n : Nat) (g : Graph) (ip : Nat) : State :=
  let s1 := (s.accessNow (isBank n ip)).1
  match readSlot (s1.slot n ip) with
  | .bad _ => s1
  | .ok _ i =>
    if i.ptr < 2 then s1
    else (s1.listsOf n g ip i).foldl (fun t l => (t.accessNow (isBank n ((l.next - 1) / 2 % 2 ^ 20))).1)
      (s1.accessNow (isBank n ((2 * ip + i.ptr) / 2 % 2 ^ 20))).1

/-- Begins the firing of a single instruction: charge (R211), decode (R96), then steps 1 to 5. -/
def State.beginSingle (n k : Nat) (s : State) (c : Nat) (it : Item) : State :=
  let s1 := (if s.generator n it then s.charge n k c 1 else s).reachCode n (s.graph it.graph.toNat) it.ip.toNat
  match s1.decodeOne n it with
  | .fault cause ip => s1.raiseExc n it c ip (s1.opAt n ip) it.colour.toNat (tokenVals it) 0 cause
  | .ok _ _ =>
    s1.runFiring n { pe := k, item := it, phase := .single, got := [], wait := .bank 0, lane := BitVec.ofNat 3 c,
                       seq := (s1.die n).began }

/-- A row of a single instruction. -/
def State.fireOp (s : State) (n k : Nat) (op : FOp) : State :=
  s.fireWhen n k (wantOp n op) (State.beginSingle n k)

/-! ### Repetitions -/

/-- An activity of a higher class than the context's current class is on the PE's ready list (R128). -/
def State.higherReady (s : State) (n k cid : Nat) : Bool :=
  (List.range 8).any (fun c => decide (s.currentClass n cid < c) && decide (0 < (s.lane (laneKey n k c)).size))

/-- The running pair leaves its PE. -/
def State.dropRun (s : State) (n k : Nat) : State :=
  s.setPe (peKey n k) { s.pe (peKey n k) with runs := (s.pe (peKey n k)).runs.drop 1 }

/-- The charge due at repetition i (R211). (DEDUCED, log entry 49) -/
def repCharge (r : RepRun) : Nat :=
  if r.unbroken then (if r.next = 0 then (r.n + 63) / 64 else 0)
  else if r.next % 64 = 0 then 1 else 0

/-- Why the running pair does not begin its next repetition now: nothing, it leaves the PE, it is suspended, or it
waits (R103, R105, R128, R183, R211, R218, R219). -/
inductive RepGate where
  | go | leave | suspend | wait
deriving DecidableEq, Repr

def State.repGate (s : State) (n k : Nat) (r : RepRun) : RepGate :=
  let g := (s.graph r.item.graph.toNat).state
  if r.n ≤ r.next || s.discards r.item then .leave
  else if !(s.pe (peKey n k)).heldItems.isEmpty then .wait
  else if g = .parked && !r.unbroken then .suspend
  else if !r.unbroken && !r.fresh && (r.next % 64 == 0) && decide (s.credit n k r.lane.toNat < 1) then .suspend
  else if !r.unbroken && !r.fresh && s.higherReady n k r.item.cid.toNat then .suspend
  else if r.item.remote && decide (16 ≤ s.remoteCount n k) then .wait
  else if s.ctxAt n (r.item.ip.toNat + 1) && s.ctxBusy n then .wait
  else .go

/-- The running pair of a PE begins up to `fuel` repetitions (R63, R127, R128). -/
def State.repeatRun (n k : Nat) : Nat → State → State
  | 0, s => s
  | fuel + 1, s =>
    match (s.pe (peKey n k)).runs with
    | [] => s
    | r :: _ =>
      match s.repGate n k r with
      | .leave => s.dropRun n k
      | .suspend => (s.dropRun n k).pushOwn n k (resumeItem r)
      | .wait => s
      | .go =>
        let s1 := if repCharge r = 0 then s else s.charge n k r.lane.toNat (repCharge r)
        let x := s1.pe (peKey n k)
        let s2 := s1.setPe (peKey n k) { x with runs := { r with next := r.next + 1, fresh := false } :: x.runs.drop 1 }
        let s3 := s2.beginOn n k r.item
        let s4 := s3.runFiring n { pe := k, item := r.item, got := [], wait := .bank 0, lane := r.lane, seq := (s3.die n).began,
                                   phase := .repetition r.unbroken { i := r.next, n := r.n, pins := r.pins } }
        let s5 := if r.n ≤ r.next + 1 then s4.dropRun n k else s4
        State.repeatRun n k fuel s5

/-- A REP row (R127, R128): the running pair goes on; with none running, the selected pair is decoded and begins. -/
def State.fireRep (s : State) (n k : Nat) (unbroken : Bool) (reps : Nat) : State :=
  match (s.pe (peKey n k)).runs with
  | r :: _ => if r.unbroken = unbroken && !(s.die n).stopped then State.repeatRun n k reps s else s
  | [] =>
    s.fireWhen n k (wantOp n (if unbroken then .repU else .repI)) (fun s1 c it =>
      if s1.isPair n it.ip.toNat then
        let g := s1.graph it.graph.toNat
        let s2 := (s1.reachCode n g it.ip.toNat).reachCode n g ((it.ip.toNat + 1) % 2 ^ 20)
        match s2.decodePair n it with
        | .fault cause ip => s2.raiseExc n it c ip (s2.opAt n ip) it.colour.toNat (tokenVals it) 0 cause
        | .ok _ _ =>
          State.repeatRun n k reps (s2.runFiring n { pe := k, item := it, phase := .repDecode unbroken, got := [],
                                                          wait := .bank 0, lane := BitVec.ofNat 3 c,
                                                     seq := (s2.die n).began })
      else State.beginSingle n k s1 c it)

/-- A RESUME_ITEM row (R129): the selected resume item's pair goes on from its next index. -/
def State.fireResume (s : State) (n k reps : Nat) : State :=
  s.fireWhen n k (fun _ it => it.kind == 1) (fun s1 c it =>
    let s2 := s1.charge n k c 1
    let unbroken := s2.opAt n it.ip.toNat == 0x1F1
    let x := s2.pe (peKey n k)
    let r : RepRun := { item := it, unbroken := unbroken, n := it.n.toNat, next := it.nxt.toNat,
                        pins := [it.v0, it.v1, it.v2], lane := BitVec.ofNat 3 c, fresh := true }
    State.repeatRun n k reps (s2.setPe (peKey n k) { x with runs := [r] }))

/-- A DUPLICATE row (R57): the exception of class 4. -/
def State.fireDuplicate (s : State) (n k : Nat) : State :=
  s.fireWhen n k (fun _ it => it.kind == 2) (fun s1 c it =>
    let port := if bitOf it.pmask.toNat 0 then 0 else if bitOf it.pmask.toNat 1 then 1 else 2
    s1.raiseExc n it c it.ip.toNat (s1.opAt n it.ip.toNat) it.colour.toNat [it.v0, it.v1, PWord.zero] 4 port)

/-- An undefined opcode (R107). -/
def State.fireUndefined (s : State) (n k : Nat) : State :=
  s.fireWhen n k (fun t it => it.kind == 0 && (opRowOf (t.opAt n it.ip.toNat)).isNone) (State.beginSingle n k)

/-- An item of a FROZEN or ABORTING graph is discarded (R218). -/
def State.fireDiscard (s : State) (n k : Nat) : State :=
  match s.select n k with
  | none => s
  | some (c, it) =>
    if it.broken then s.loseItem n k c it
    else if s.discards it then ((s.popHead n k c).noteBad n k c it).bump (tmpOff 0x30) 0 32 1 else s

end Sys2Proof.Machine
end

