-- ==== Sys2Proof/Machine/Procs.lean ====
section
/-! DEFINITION. The dispatch unit (R183-R185, R190), replies (R352), latches freed by a reset of their holder (R248), and
the graph procedures: PARK (R219, R220), resume (R221), abort (R362), and Deadlock Reports (R223). -/

namespace Sys2Proof.Machine

/-! ### Replies -/

/-- The final reply of a command (R348, R352); it is no longer open. -/
def State.reply (s : State) (c : Cmd) (status : Nat) (w0 w1 w2 : Nat) : State :=
  let s1 := { s with ce := { s.ce with open_ := s.ce.open_.filter (fun x => x.id != c.id) } }
  if s.ce.open_.any (fun x => x.id == c.id && !x.mute) then
    s1.pushReply c.qp (replyBytes status (fieldOf c.pkt 32 16) 0 (fieldOf c.pkt 0 16) (.clean (BitVec.ofNat 36 w0))
      (.clean (BitVec.ofNat 36 w1)) (.clean (BitVec.ofNat 36 w2)))
  else s1

/-- The open command of an opcode whose parameter byte 0 is a handle (R357). -/
def State.openOn (s : State) (opcode g : Nat) : Option Cmd :=
  s.ce.open_.find? (fun c => fieldOf c.pkt 0 16 == opcode && fieldOf c.pkt 128 8 == g)

/-! ### Latch lifts and freed latches (R247, R248) -/

/-- The die of a requester ID of a firing. (DEDUCED, log entry 57) -/
def reqDie (req : Nat) : Nat := req - 0x11

/-- A latch drops the lift it caused (R245, R247). -/
def State.unlift (s : State) (k : Nat) (x : Latch) : State :=
  if x.lifted.isSome && decide (0x11 ≤ x.req) then
    s.updDie (reqDie x.req) (fun d => { d with liftMsgs := d.liftMsgs ++ [{ latch := k, cid := x.cid, cls := none }] })
  else s

/-- A held latch is freed by a reset of its holder (R248). -/
def State.abandon (s : State) (k : Nat) : State :=
  let x := s.latch k
  ((((s.unlift k x).setLatch k { Latch.free with abandoned := true }).bump (ltbOff 0x10C) 0 12 1).event 0 6
    (ltbOff 0x10C) 0 k 0)

/-- Every held latch that satisfies a test is freed, in latch order. -/
def State.abandonWhere (s : State) (p : Latch → Bool) : State :=
  (s.latches.filter (fun e => e.2.held && p e.2)).foldl (fun t e => t.abandon e.1) s

/-! ### Dispatch -/

/-- A specifier mode that makes an item remote (R190). -/
def remoteMode (m : OMode) : Bool :=
  match m with
  | .tok => false | .toka => false | .imm => false | .frm => false | .cpl => false | .itx => false
  | _ => true

/-- The remote bit of an item (R190): over the A, B and D specifiers and the count of a pair. -/
def State.remoteItem (s : State) (n : Nat) (it : Item) : Bool :=
  let ip := it.ip.toNat
  let of (ip : Nat) : Bool := match readSlot (s.slot n ip) with
    | .bad _ => false
    | .ok r i => (usedSpecs r i).any (fun p => remoteMode p.2.m) ||
        i.op == .call || i.op == .falloc || i.op == .ffree || i.op == .emit || i.op == .ltbAcq || i.op == .ltbRel
  it.kind != 2 && (of ip || (s.isPair n ip && of (ip + 1)))

/-- The PE that stands for an affinity PE whose cluster is off (R383). -/
def State.affinityPe (s : State) (n k : Nat) : Nat :=
  if (s.dom (10 * n + k / 16)).state = 1 then k
  else match [0, 1, 2, 3].find? (fun i => (s.dom (10 * n + i)).state == 1) with
    | some i => k % 16 + 16 * i
    | none => k

/-- The PE of a cluster with the lowest on-chip depth, the lowest number among equals (R184). -/
def State.shallowest (s : State) (n k : Nat) : Nat :=
  let ps := (List.range 16).map (fun j => k / 16 * 16 + j)
  ps.foldl (fun m j => if s.onchip (peKey n j) < s.onchip (peKey n m) then j else m) (k / 16 * 16)

/-- The target PE of an item (R184). -/
def State.target (s : State) (n a : Nat) : Nat :=
  let m := s.shallowest n a
  if s.onchip (peKey n m) + s.fld (lmOff n 0x500) 0 13 < s.onchip (peKey n a) then m else a

/-! ### The park area (R220) -/

def State.parkBase (s : State) (g : Nat) : Nat := s.fld (tmpOff (0x800 + 8 * g)) 0 27 * 256
def State.parkSize (s : State) (g : Nat) : Nat := s.fld (tmpOff (0x804 + 8 * g)) 0 27 * 256

/-- The end record and the area header, where they fit (R219 step 6). -/
def State.parkClose (s : State) (g : Nat) : State :=
  let x := s.graph g
  let b := s.parkBase g
  let num (k : Nat) : PWord := .clean (BitVec.ofNat 36 k)
  if x.parkUsed + 1 ≤ s.parkSize g then
    (s.wr (b + x.parkUsed) (num 15)).wrs b
      [num 0x27A6B0D11, num g, num (lget 0 x.parkCnt 0), num (lget 0 x.parkCnt 1), num (lget 0 x.parkCnt 2),
       num (x.parkUsed + 1), num x.parkTb, num 0]
  else s

/-- One record appended to the area; none when it and an end record do not both fit (R220). -/
def State.parkPut (s : State) (g ty size : Nat) (ws : List PWord) : Option State :=
  let x := s.graph g
  if x.parkUsed + 1 + ws.length + 1 ≤ s.parkSize g then
    let s1 := s.wrs (s.parkBase g + x.parkUsed) (.clean (BitVec.ofNat 36 (ty + size * 16)) :: ws)
    some (s1.setGraph g { x with parkUsed := x.parkUsed + 1 + ws.length,
                                 parkCnt := lset x.parkCnt (ty - 1) (lget 0 x.parkCnt (ty - 1) + 1) })
  else none

/-- An item for a context of a PARKED graph (R219, R220): recorded, or discarded with the graph FROZEN. -/
def State.parkItem (s : State) (g : Nat) (it : Item) : State :=
  match s.parkPut g 3 8 it.words with
  | some s1 => s1.parkClose g
  | none => ((s.setGraph g { s.graph g with parkFull := true }).freeze g).bump (tmpOff 0x30) 0 32 1

/-- The dispatch unit decides an input (R183-R185); none when the lane of the target refuses it (R184). -/
def State.place (s0 : State) (n : Nat) (x : DispIn) : Option State :=
  let (s, h) := s0.readHdr x.item.cid.toNat
  let it := { x.item with cls := BitVec.ofNat 3 h.cls, graph := BitVec.ofNat 8 h.graph, remote := s.remoteItem n x.item }
  if h.st = 2 then some (s.parkItem h.graph it)
  else if h.st ≠ 1 then
    some (s.strayToken.event 0 n (fabOff 0x408) 0 0 (tagDetail it.cid.toNat it.ip.toNat it.colour.toNat))
  else
    let a := s.affinityPe n h.aff
    let m := if x.released then a else s.target n a
    (s.lanePush (peKey n m) h.cls it).map (fun s2 =>
      let s3 := if m != a then s2.bump (lmOff n 0x508) 0 32 1 else s2
      if m != h.aff then s3.setHdr it.cid.toNat { s3.hdr it.cid.toNat with aff := m } else s3)

/-- The first input that can be placed: an input whose push is refused stays, and those behind it are decided (R184). -/
def State.placeFirst (s : State) (n : Nat) : List DispIn → List DispIn → State
  | _, [] => s
  | kept, x :: rest =>
    match (s.updDie n (fun d => { d with disp := kept ++ rest })).place n x with
    | some t => t
    | none => s.placeFirst n (kept ++ [x]) rest

/-- The dispatch unit decides its next input (R183-R185). -/
def State.dispatchOne (s : State) (n : Nat) : State := s.placeFirst n [] (s.die n).disp

/-! ### Scans over a graph's state -/

/-- Contexts that the CDT lists with a header, in ascending CID order. -/
def State.contexts (s : State) : List Nat :=
  ((s.mem.filter (fun p => decide (s.cdtBase ≤ p.1) && decide (p.1 < s.cdtBase + 2 ^ 24))).map
    (fun p => p.1 - s.cdtBase)).filter (fun c => s.cdt c != 0)

def State.upDies (s : State) : List Nat := (List.range 6).filter (fun n => (s.die n).up)

/-- The sets of a die that hold something, ascending. -/
def State.usedSets (s : State) (n : Nat) : List Nat :=
  (s.sets.filter (fun p => p.1 / 262144 == n)).map (fun p => p.1 % 262144)

/-- The entries of a set in scan order: ways, then the chain from newest to oldest (R179). -/
def State.setEnts (s : State) (n set : Nat) : List Ent :=
  ((s.mset n set).ways.zipIdx.filterMap (fun p =>
    if p.1.valid then some { inSet := true, idx := p.2, e := p.1.seen } else none)) ++
  ((s.chain n set).getD []).map (fun p => { inSet := false, idx := p.1, e := p.2 })

/-- A scan reads a set, with the parity checks of R175. -/
def State.readSet (s : State) (n set : Nat) : State × List Ent :=
  let s1 := (s.scrubSet n set).scrubVals n set (fun _ => true)
  (if (s1.chain n set).isNone then s1.abandonChain n set 0 else s1, s1.setEnts n set)

/-- Every entry whose IP lies in a graph's slots, with die and set, in the order of R179. -/
def State.graphEnts (s : State) (g : Nat) : List (Nat × Nat × Ent) :=
  (s.upDies.map (fun n => ((s.usedSets n).map (fun set =>
    ((s.setEnts n set).filter (fun x => (s.graph g).holds x.e.ip.toNat)).map (fun x => (n, set, x)))).flatten)).flatten

/-- The items of a graph in one lane, in order. -/
def Lane.itemsOf (l : Lane) (g : Nat) : List Item :=
  (l.head ++ l.mid ++ l.tail).filter (fun i => i.graph.toNat == g)

/-- Lanes of dies that are up. -/
def State.scanLanes (s : State) : List (Nat × Lane) := s.lanes.filter (fun p => (s.die (p.1 / 512)).up)

/-- Every ready item of a graph in scan order (R219), those held by PEs last. -/
def State.graphItems (s : State) (g : Nat) : List Item :=
  (s.scanLanes.map (fun p => p.2.itemsOf g)).flatten ++
  (s.pes.map (fun p => p.2.heldItems.filter (fun i => i.graph.toNat == g))).flatten

/-- Removes the first k items of a graph in a list. -/
def dropItems (g : Nat) : Nat → List Item → List Item × Nat
  | k, [] => ([], k)
  | k, i :: is =>
    if k ≠ 0 ∧ i.graph.toNat = g then dropItems g (k - 1) is
    else
      let r := dropItems g k is
      (i :: r.1, r.2)

/-- Removes the first k items of a graph from the lanes, in scan order. -/
def State.removeLaneItems (s : State) (g k : Nat) : State × Nat :=
  s.scanLanes.foldl (fun (a : State × Nat) p =>
    let h := dropItems g a.2 p.2.head
    let m := dropItems g h.2 p.2.mid
    let t := dropItems g m.2 p.2.tail
    if a.2 = 0 then a
    else
      let l := { p.2 with head := h.1, mid := m.1, tail := t.1, age := if h.1.isEmpty then 0 else p.2.age }
      (a.1.putLane (p.1 / 8) (p.1 % 8) l, t.2))
    (s, k)

/-- Removes the first k items of a graph that PEs hold. -/
def dropHeld (g : Nat) : Nat → Tab Pe → Tab Pe
  | _, [] => []
  | k, p :: ps =>
    let r := dropItems g k p.2.heldItems
    (p.1, { p.2 with heldItems := r.1 }) :: dropHeld g r.2 ps

/-- Removes the first k items of a graph in scan order: those of the lanes, then those held by PEs. -/
def State.removeItems (s : State) (g k : Nat) : State :=
  let r := s.removeLaneItems g k
  if r.2 = 0 then r.1 else { r.1 with pes := dropHeld g r.2 r.1.pes }

/-- The deferral records of a die in use, ascending. -/
def Die.usedRecs (d : Die) : List Nat := (List.range d.isdFresh).filter (fun r => !d.isdRet.contains r)

/-- The graph that the context of a deferral record names. -/
def State.recGraph (s : State) (n r : Nat) : Nat :=
  (s.hdr (fieldOf (s.frameRd n (s.isdBase n + 8 * r + 1)).v 0 24)).graph

/-- Deferral records of a graph: die and index. -/
def State.graphRecs (s : State) (g : Nat) : List (Nat × Nat) :=
  (s.upDies.map (fun n => ((s.die n).usedRecs.filter (fun r => s.recGraph n r == g)).map (fun r => (n, r)))).flatten

/-- A firing of a graph is in progress, or a pair of it is running, on some die (R219 step 2). -/
def State.busyGraph (s : State) (g : Nat) : Bool :=
  s.dies.any (fun d => d.up && d.firing.any (fun f => f.item.graph.toNat == g)) ||
  s.pes.any (fun p => (s.die (p.1 / 64)).up && p.2.runs.any (fun r => r.item.graph.toNat == g && r.unbroken))

/-- A running REP.I pair of a graph leaves its PE, as a resume item when the graph is parked (R219, R362). -/
def State.stopPairs (s : State) (g : Nat) (keep : Bool) : State :=
  s.pes.foldl (fun t p =>
    let mine := p.2.runs.filter (fun r => r.item.graph.toNat == g && !r.unbroken)
    let t1 := t.setPe p.1 { t.pe p.1 with runs := (t.pe p.1).runs.filter (fun r => !(r.item.graph.toNat == g && !r.unbroken)) }
    if mine.isEmpty then t
    else if keep then mine.foldl (fun u r => u.pushOwn (p.1 / 64) (p.1 % 64) (resumeItem r)) t1
    else t1) s

/-! ### Deadlock Reports (R223) -/

/-- The dies on which a graph has been quiet for their period (R214). -/
def State.quietOn (s : State) (g n : Nat) : Bool :=
  let d := s.die n
  let since := lget (0, 0) (s.graph g).since n
  let last := match tfind d.lastFire g with | some c => if c.1 < since.1 then since else c | none => since
  decide (last.1 + last.2 ≤ d.cycles) && d.firing.all (fun f => f.item.graph.toNat != g)

/-- A report as declared: kind, graph, response, region, region die and lane (R223). Outcome and park words follow. -/
def State.declare (s : State) (kind g response region rdie rlane : Nat) : State × List Byte :=
  let ents := s.graphEnts g
  let first := match ents with
    | (_, _, x) :: _ => tagDetail x.e.cid.toNat x.e.ip.toNat x.e.colour.toNat
    | [] => 0
  let cap (k : Nat) : Nat := min k 0xFFFFFFFF
  let bs := leBytes 1 kind ++ leBytes 1 g ++ leBytes 1 response ++ leBytes 1 0 ++ leBytes 4 s.rptSeq.toNat ++
    leBytes 8 s.now ++ leBytes 6 s.clk.epoch.toNat ++ leBytes 2 0 ++ leBytes 1 region ++ leBytes 1 rdie ++
    leBytes 2 rlane ++ leBytes 4 (cap ents.length) ++ leBytes 4 (cap (s.graphItems g).length) ++
    leBytes 4 (cap (s.graphRecs g).length) ++ leBytes 4 0 ++ leBytes 1 s.pkgLevel ++
    leBytes 1 (maskOf 6 (fun n => s.quietOn g n)) ++ leBytes 2 0 ++ leBytes 8 first
  ({ s with rptSeq := s.rptSeq + 1 }, bs)

/-- The report is written when its response has completed, or counted as lost (R223). -/
def State.writeReport (s : State) (bs : List Byte) (outcome used : Nat) : State :=
  if bs.isEmpty then s
  else
    let b1 := lset bs 3 (BitVec.ofNat 8 outcome)
    let b2 := b1.take 40 ++ leBytes 4 used ++ b1.drop 44
    let full := b2 ++ leBytes 4 (crc32 b2) ++ leBytes 4 0
    let wr := s.fld (tmpOff 0x6C) 0 6
    let rd := s.fld (tmpOff 0x6C) 8 6
    if s.flag (tmpOff 0x68) 0 && (wr + 1) % 64 != rd then
      let base := s.fld (tmpOff 0x60) 12 20 * 4096 + s.reg (tmpOff 0x64) * 2 ^ 32
      ((s.emit (.hostWrite (base + 64 * wr) full false 0)).setFld (tmpOff 0x6C) 0 6 ((wr + 1) % 64)).msi 0
        (s.fld (tmpOff 0x68) 1 11)
    else s.bump (tmpOff 0x68) 16 8 1

/-! ### PARK (R219) -/

/-- Step 3: one context is parked; none when its record does not fit. -/
def State.parkFrame (s : State) (g c : Nat) : Option State :=
  let h := s.hdr c
  let z := match (s.graph g).blocks[h.block]? with | some b => b.frame | none => 0
  let ws := PWord.clean (BitVec.ofNat 36 c) :: (List.range z).map (fun k => s.gWord c k)
  (s.parkPut g 1 z ws).map (fun t => t.setHdr c { h with st := 2 })

/-- Step 5: one entry is moved. -/
def State.parkEnt (s : State) (g n set : Nat) (x : Ent) : Option State :=
  (s.parkPut g 2 4 ((recWords x.e 0 0).take 4)).map (fun t => t.dropEnt n set x)

/-- Applies a step to a list while it succeeds; the flag tells whether all succeeded. -/
def whileOk {α : Type} (f : State → α → Option State) : State → List α → State × Bool
  | s, [] => (s, true)
  | s, x :: xs => match f s x with
    | some t => whileOk f t xs
    | none => (s, false)

/-- Item records for the first items of a list that fit: the state and their number. -/
def State.parkItems (g : Nat) : State → List Item → Nat → State × Nat
  | s, [], k => (s, k)
  | s, i :: is, k => match s.parkPut g 3 8 i.words with
    | some t => State.parkItems g t is (k + 1)
    | none => (s, k)

/-- The sets that hold entries of a graph, from a place on, in the order of R179. -/
def State.graphSets (s : State) (g pos : Nat) : List Nat :=
  (s.upDies.map (fun n => ((s.usedSets n).filter (fun set => decide (pos ≤ n * 262144 + set) &&
    (s.setEnts n set).any (fun x => (s.graph g).holds x.e.ip.toNat))).map (fun set => n * 262144 + set))).flatten

/-- How a scan of the sets stands: ended, stopped by an entry that could not be moved, or waiting at a set. -/
inductive ScanEnd where
  | done | full | blocked
deriving DecidableEq, Repr

/-- A scan takes every entry of a graph, set by set, each set in its turn behind the operations it has accepted (R165,
R179); it waits at a set that a held insert blocks. (DEDUCED, log entry 60) -/
def State.scanSets (g : Nat) (f : State → Nat → Nat → Ent → Option State) : Nat → Nat → State → State × Nat × ScanEnd
  | 0, pos, s => (s, pos, .done)
  | k + 1, pos, s =>
    match s.graphSets g pos with
    | [] => (s, pos, .done)
    | key :: _ =>
      let n := key / 262144
      let set := key % 262144
      let s1 := State.settleSet n set (s.die n).settleFuel s
      if s1.setBusy n set then (s1, key, .blocked)
      else
        let r := s1.readSet n set
        match whileOk (fun t x => f t n set x) r.1 (r.2.filter (fun x => (s1.graph g).holds x.e.ip.toNat)) with
        | (s2, true) => State.scanSets g f k (key + 1) s2
        | (s2, false) => (s2, key, .full)

/-- The sets that a scan can meet. -/
def State.scanFuel (s : State) (g pos : Nat) : Nat :=
  (s.graphSets g pos).length + s.dies.foldl (fun k d => k + d.waitq.length + d.walks.length) 0 + 1

/-- PARK stops with the area full (R220): outcome 1. -/
def State.parkFull (s : State) (g : Nat) : State × Option Nat :=
  let u := s.parkClose g
  (u.setGraph g { u.graph g with state := .frozen, parkFull := true, proc := .none, moved := none }, some 1)

/-- Step 5 of PARK from a place on, then step 6; none while it waits at a set (R219, R223). (DEDUCED, log entry
60) -/
def State.parkEnts (s : State) (g pos : Nat) : State × Option Nat :=
  match State.scanSets g (fun t n set x => t.parkEnt g n set x) (s.scanFuel g pos) pos s with
  | (s1, _, .done) =>
    let s2 := s1.parkClose g
    (s2.setGraph g { s2.graph g with proc := .none, moved := none }, some 0)
  | (s1, _, .full) => s1.parkFull g
  | (s1, at_, .blocked) => (s1.updGraph g (fun x => { x with moved := some [at_] }), none)

/-- Steps 3 to 6 of PARK: the state and the outcome, 0 or 1 (R219, R220, R223); none while step 5 waits. -/
def State.parkMoves (s : State) (g : Nat) : State × Option Nat :=
  match (s.graph g).moved with
  | some m => s.parkEnts g (lget 0 m 0)
  | none =>
    let cs := s.contexts.filter (fun c => (s.hdr c).graph == g && (s.hdr c).st == 1)
    match whileOk (fun t c => t.parkFrame g c) s cs with
    | (s1, false) => s1.parkFull g
    | (s1, true) =>
      let items := s1.graphItems g
      let r := State.parkItems g s1 items 0
      let s2 := r.1.removeItems g r.2
      if r.2 < items.length then s2.parkFull g else s2.parkEnts g 0

/-- PARK begins (R219 step 1). -/
def State.beginPark (s : State) (g : Nat) (report : List Byte) : State :=
  (s.updGraph g (fun x => { x with state := .parked, proc := .park report, parkUsed := 8, parkCnt := [0, 0, 0],
                                   parkTb := s.now % 2 ^ 36, parkFull := false, moved := none })).stopPairs g true

/-- PARK ends: reply or report (R219 step 6, R357). -/
def State.endPark (s : State) (g : Nat) (report : List Byte) : State :=
  match s.parkMoves g with
  | (t, none) => t
  | (t, some o) =>
    let x := t.graph g
    let used := if x.parkUsed + 1 ≤ t.parkSize g then x.parkUsed + 1 else 0
    let s1 := t.writeReport report o used
    match s1.openOn 0x0103 g with
    | some c => s1.reply c 0 (lget 0 x.parkCnt 0) (lget 0 x.parkCnt 1) (lget 0 x.parkCnt 2 % 2 ^ 32 + o * 2 ^ 32)
    | none => s1

/-! ### Abort (R362) -/

/-- The graph's slots and handle are freed (R362 step 7, R69). -/
def State.unload (s : State) (g : Nat) : State :=
  let s1 := (List.range 16).foldl (fun t p =>
    if t.fld (pfpOff p 0x14) 0 8 = g then t.setFld (pfpOff p 0x14) 0 8 0 else t) s
  let s2 := (List.range 6).foldl (fun t n => t.updDie n (Die.forget (s.graph g).base (s.graph g).slots)) s1
  (s2.setReg (tmpOff (0x400 + 4 * g)) 0).setGraph g Graph.reset

/-- Steps 4 to 7 of an abort, and the number of contexts freed (R362). -/
def State.abortRest (s : State) (g : Nat) (unload : Bool) : State × Nat :=
  let s3 := (s.graphRecs g).foldl (fun t p => t.updDie p.1 (fun d => { d with isdRet := p.2 :: d.isdRet })) s
  let s4 := s3.abandonWhere (fun l => decide (0x11 ≤ l.req) && l.graph.toNat == g)
  let cs := s4.contexts.filter (fun c =>
    (s4.hdr c).graph == g && ((s4.hdr c).st == 1 || (s4.hdr c).st == 2))
  let s5 := cs.foldl (fun t c => t.setHdr c { t.hdr c with st := 0 }) s4
  let s6 := s5.updGraph g (fun x => { x with active := 0, state := .loaded, proc := .none, parkUsed := 0, moved := none })
  (if unload then s6.unload g else s6, cs.length)

/-- One entry of an aborted graph is removed, and counted. -/
def State.abortEnt (s : State) (g n set : Nat) (x : Ent) : Option State :=
  some ((s.dropEnt n set x).updGraph g (fun y => { y with moved := y.moved.map (fun m => lset m 2 (lget 0 m 2 + 1)) }))

/-- Steps 3 to 7 of an abort, with the counts of entries removed, items discarded and contexts freed; none while the scan
of the entries waits at a set (R179, R362). -/
def State.abortMoves (s : State) (g : Nat) (unload : Bool) : State × Option (Nat × Nat × Nat) :=
  let s1 := match (s.graph g).moved with
    | some _ => s
    | none =>
      let items := (s.graphItems g).length
      (s.removeItems g items).updGraph g (fun x => { x with moved := some [0, items, 0] })
  let pos := lget 0 ((s1.graph g).moved.getD []) 0
  match State.scanSets g (fun t n set x => t.abortEnt g n set x) (s1.scanFuel g pos) pos s1 with
  | (s2, at_, .blocked) => (s2.updGraph g (fun x => { x with moved := x.moved.map (fun m => lset m 0 at_) }), none)
  | (s2, _, _) =>
    let m := (s2.graph g).moved.getD []
    let r := s2.abortRest g unload
    (r.1, some (lget 0 m 2, lget 0 m 1, r.2))

/-- Abort begins (R362 step 1). -/
def State.beginAbort (s : State) (g : Nat) (unload : Bool) (report : List Byte) : State :=
  (s.updGraph g (fun x => { x with state := .aborting, proc := .abort unload report, moved := none })).stopPairs g false

/-- Abort ends: reply or report. -/
def State.endAbort (s : State) (g : Nat) (unload : Bool) (report : List Byte) : State :=
  let c := s.openOn 0x0102 g
  match s.abortMoves g unload with
  | (t, none) => t
  | (t, some (ents, items, cs)) =>
    let s1 := t.writeReport report 0 0
    match c with
    | some c => s1.reply c 0 ents items cs
    | none => s1

/-- Graph procedures whose firings have ended run to their end (R219, R362). -/
def State.runProcs (s : State) : State :=
  (s.graphs.filter (fun p => p.2.proc != .none)).foldl (fun t p =>
    if t.busyGraph p.1 then t
    else match (t.graph p.1).proc with
      | .none => t
      | .park r => t.endPark p.1 r
      | .abort u r => t.endAbort p.1 u r) s

/-! ### ORPHAN_SWEEP (R177-R179) -/

/-- The record of a listed entry (R178). -/
def orphanBytes (n : Nat) (x : Ent) : List Byte :=
  let e := x.e
  leBytes 4 (e.cid.toNat + n * 2 ^ 24) ++
    leBytes 4 (pack [(e.ip.toNat, 0), (e.port, 20), (b2n e.acc, 22), (b2n (!x.inSet), 23), (b2n e.val.p, 24),
      (b2n e.ovf, 25)]) ++
    leBytes 8 (e.val.v.toNat + e.colour.toNat * 2 ^ 36)

/-- The sweep takes one entry (R177, R178): it qualifies by the header that a read gives; it is counted, listed while the
capacity lasts, and removed in the modes that delete. -/
def State.sweepEnt (s : State) (w : Sweep) (n set : Nat) (x : Ent) : State :=
  let g := fieldOf w.cmd.pkt 128 8
  let mode := fieldOf w.cmd.pkt 136 8
  let (s1, h) := s.readHdr x.e.cid.toNat
  if mode = 3 || h.st = 0 || h.graph ≠ g then
    let list := (mode == 0 || mode == 2) && decide (w.listed.length < 16 * fieldOf w.cmd.pkt 256 32)
    let w1 := { w with found := w.found + 1, listed := if list then w.listed ++ orphanBytes n x else w.listed }
    if mode = 0 then { s1 with sweep := some w1 } else { s1.dropEnt n set x with sweep := some w1 }
  else s1

/-- The sweep scans on from its place; the dies before it are no longer swept (R179, R180). -/
def State.sweepOn (s : State) (w : Sweep) : State × Bool :=
  let g := fieldOf w.cmd.pkt 128 8
  let r := State.scanSets g (fun t n set x => some (match t.sweep with | some v => t.sweepEnt v n set x | none => t))
    (s.scanFuel g w.pos) w.pos s
  let ended := r.2.2 != .blocked
  let s1 := { r.1 with
    sweep := r.1.sweep.map (fun v => { v with pos := r.2.1 }),
    dies := r.1.dies.zipIdx.map (fun p =>
      { p.1 with sweeping := p.1.sweeping && !ended && decide (r.2.1 / 262144 ≤ p.2) }) }
  (s1, ended)

/-! ### Resume (R221) -/

/-- The entry of a park record. -/
def parkEntry (ws : List PWord) : MsEntry := recEntry ws

/-- One record of the area; its length in words is the last component, and its type. (DEDUCED, log entry 24) -/
def State.resumeRec (s : State) (a : Nat) : State × Nat × Nat :=
  let w0 := (s.rd a).v
  let ty := fieldOf w0 0 4
  if ty = 1 then
    let z := fieldOf w0 4 32
    let c := fieldOf (s.rd (a + 1)).v 0 24
    let s1 := (List.range z).foldl (fun t k => t.setG c k (s.rd (a + 2 + k))) s
    (s1.setHdr c { s1.hdr c with st := 1 }, 2 + z, 1)
  else if ty = 2 then
    let e := parkEntry (s.rds (a + 1) 4)
    let n := s.homeOf e.cid.toNat
    let t : Token := { cid := e.cid, ip := e.ip, colour := e.colour, port := BitVec.ofNat 2 e.port, cls := 0,
                       pkg := BitVec.ofNat 4 s.ownPkg, val := e.val }
    (if e.acc then s.arriveAcc n e else s.arrive n t, 5, 2)
  else if ty = 3 then
    let it := itemOf (s.rds (a + 1) 8)
    (s.updDie (s.homeOf it.cid.toNat) (fun d => { d with disp := d.disp ++ [{ item := it, released := false }] }), 9, 3)
  else (s, 0, 0)

/-- The records of the area in order: state and counts (R221). -/
def State.resumeAll : Nat → State → Nat → List Nat → State × List Nat
  | 0, s, _, cnt => (s, cnt)
  | k + 1, s, a, cnt =>
    match s.resumeRec a with
    | (s1, len, ty) =>
      if len = 0 then (s1, cnt)
      else State.resumeAll k s1 (a + len) (lset cnt (ty - 1) (lget 0 cnt (ty - 1) + 1))

/-- A graph enters RUNNING: each die's period counts from here (R214). -/
def State.enterRunning (s : State) (g : Nat) : State :=
  s.updGraph g (fun x => { x with state := .running, since := (List.range 6).map s.period })

/-- GRAPH_RESUME as a whole (R221): the state and the numbers of records processed. -/
def State.resumeGraph (s : State) (g : Nat) : State × List Nat :=
  let x := s.graph g
  let r := State.resumeAll (lget 0 x.parkCnt 0 + lget 0 x.parkCnt 1 + lget 0 x.parkCnt 2 + 1) s (s.parkBase g + 8) [0, 0, 0]
  ((r.1.updGraph g (fun y => { y with parkUsed := 0, parkCnt := [0, 0, 0] })).enterRunning g, r.2)

end Sys2Proof.Machine
end

