-- ==== Sys2Proof/Machine/PortOps.lean ====
section
/-! DEFINITION. The Pattern/Fail Ports (R274-R310): bonding, frames, run start and end, the link going down, training,
the Pour window, tick examination and fail ingest. -/

namespace Sys2Proof.Machine

/-! ### Registers of a port -/

def State.pfpOn (s : State) (p : Nat) : Bool := s.flag (pfpOff p 0x04) 0
def State.pfpLen (s : State) (p : Nat) : Nat := s.fld (pfpOff p 0x04) 3 2
def State.pfpOwner (s : State) (p : Nat) : Nat := s.fld (pfpOff p 0x00) 0 5
def State.pfpGraph (s : State) (p : Nat) : Nat := s.fld (pfpOff p 0x14) 0 8
def State.pfpPeriod (s : State) (p : Nat) : Nat := s.fld (pfpOff p 0x08) 0 16

/-- The lowest member of the logical port that contains a port (R275). -/
def State.pfpLead (s : State) (p : Nat) : Nat :=
  if s.fld (pfpOff (p / 4 * 4) 0x04) 1 2 = 2 then p / 4 * 4
  else if s.fld (pfpOff (p / 2 * 2) 0x04) 1 2 = 1 then p / 2 * 2
  else p

/-- The port group of a port is fenced or failed (R396). -/
def State.pfpFenced (s : State) (p : Nat) : Bool := bitOf s.start.groups (p / 4)

/-- A record that names a port (R301). -/
def State.pfpErr (s : State) (sev p off lsb graph d1 : Nat) : State :=
  s.err sev 0 6 (pfpOff p off) lsb graph (s.pfpOwner p) p d1

/-! ### Boundary shadows (R12, R376) -/

/-- Offsets at which the shadows of a running port wait for its boundary tick (R303). -/
def dueKey (off : Nat) : Nat := 0x4000000 + off

/-- A pending shadow takes effect. -/
def State.applyShadow (s : State) (off key : Nat) : State :=
  match tfind s.shadows key with
  | none => s
  | some x =>
    let v := (BitVec.ofNat 32 (s.reg off) &&& ~~~x.mask) ||| (x.val &&& x.mask)
    { s.setReg off v.toNat with shadows := tdel s.shadows key }

/-- One shadow over another: the newer fields win. -/
def Shadow.over (new old : Shadow) : Shadow :=
  { val := (new.val &&& new.mask) ||| (old.val &&& ~~~new.mask), mask := new.mask ||| old.mask }

/-- A shadow that its port did not reach stays pending for the next boundary (R376). -/
def State.returnShadow (s : State) (p : Nat) : State :=
  match tfind s.shadows (dueKey (pfpOff p 0x0C)) with
  | none => s
  | some x =>
    let y := match tfind s.shadows (pfpOff p 0x0C) with | some n => n.over x | none => x
    { s with shadows := tins (tdel s.shadows (dueKey (pfpOff p 0x0C))) (pfpOff p 0x0C) y }

/-! ### Frames -/

/-- The port's link is active (R294). -/
def Port.active (x : Port) : Bool := x.state == .idle || x.state == .armed || x.state == .running

/-- A frame waits for a slot of a port (R298). -/
def State.pfpQueue (s : State) (p rank ready body : Nat) : State :=
  s.setPort p { s.port p with fl := (s.port p).fl.offer rank ready body }

/-- A CONTROL frame (R284): subtype, reason, index, ticks, and the word of bytes 19-22. -/
def controlBody (sub reason index ticks extra : Nat) : Nat :=
  4 + sub * 2 ^ 32 + reason * 2 ^ 40 + (index % 2 ^ 36) * 2 ^ 64 + (ticks % 2 ^ 48) * 2 ^ 104 + (extra % 2 ^ 32) * 2 ^ 152

/-- A tick frame (R282): kind, index, vector length - 1, words, epoch bit. -/
def tickBody (kind index len1 : Nat) (ws : List Word) (epoch : Bool) : Nat :=
  let w (k : Nat) : Nat := (lget 0 ws k).toNat
  1 + b2n epoch * 2 ^ 21 + (index % 2 ^ 36 + kind * 2 ^ 36 + len1 * 2 ^ 38) * 2 ^ 32 +
    (w 0 + w 1 * 2 ^ 36) * 2 ^ 72 + (w 2 + w 3 * 2 ^ 36) * 2 ^ 144

/-- A CREDIT frame (R284). -/
def creditBody (pool delta : Nat) : Nat := 3 + pool * 2 ^ 32 + (delta % 2 ^ 16) * 2 ^ 48

/-- The CONTROL START frame of a port's run (R284, R297). -/
def State.startBody (s : State) (p : Nat) : Nat :=
  controlBody 1 0 (s.port p).run.base 0 (s.pfpPeriod p + s.fld (pfpOff p 0x08) 16 16 * 2 ^ 16)

/-- S0 is fixed: CONTROL START waits for slot S0 - 1 (R297). -/
def State.fixStart (s : State) (p t : Nat) : State :=
  (s.updPort p (fun x => { x with run := { x.run with s0 := some t } })).pfpQueue p rankTick (t - s.slotLen p) (s.startBody p)

/-- CONTROL START no longer waits: the run ends without it (R297, R301). -/
def State.dropStart (s : State) (p : Nat) : State :=
  match (s.port p).run.s0 with
  | none => s
  | some t => s.updPort p (fun x =>
      { x with fl := { x.fl with tx := x.fl.tx.filter (fun u => u.ready != t - s.slotLen p || u.body != s.startBody p) } })

/-- The port enters RUNNING at S0 (R297). -/
def State.runStart (s : State) (p : Nat) : State :=
  match (s.port p).run.s0 with
  | none => s
  | some t => s.updPort p (fun x => { x with state := .running, s0Time := t })

/-- A frame of a tick takes its release slot. -/
def State.tickFrame (s : State) (p body time : Nat) : State := s.pfpQueue p rankTick time body

/-! ### The end of a run (R301) -/

/-- The POUR_ARM command of a port whose mode satisfies a test. -/
def State.pourCmd (s : State) (p : Nat) (want : Nat → Bool) : Option Cmd :=
  s.ce.open_.find? (fun c => fieldOf c.pkt 0 16 == 0x0301 && fieldOf c.pkt 128 8 == p && want (fieldOf c.pkt 136 8))

/-- The severity of the record of a run ending; none for END_COUNT and STOP. -/
def endSev (reason : Nat) : Option Nat :=
  if reason = 1 ∨ reason = 2 then none
  else if reason = 3 ∨ reason = 8 then some 0
  else some 2

/-- A run ends without a frame: presence cleared, credits returned, reason kept, vector signalled, record queued, and the
stop command answered (R289, R301). -/
def State.endRun (s : State) (p reason : Nat) : State :=
  let x := s.port p
  let r := x.run
  let s1 := s.returnShadow p
  let s2 := s1.setPort p { x with state := .idle, present := [], avail := x.avail + r.burstLeft, endReason := reason,
                                  ticksShown := r.ticks,
                                  run := { Run.reset with next := r.next, base := r.base, holding := r.holding } }
  let s3 := s2.msi (s.pfpOwner p) (s.fld (pfpOff p 0x14) 8 11)
  let s4 := match endSev reason with
    | some sev => s3.pfpErr sev p 0x20 3 (s.pfpGraph p) 0
    | none => s3
  (s4.ce.open_.filter (fun c => fieldOf c.pkt 0 16 == 0x0301 && fieldOf c.pkt 128 8 == p && fieldOf c.pkt 136 8 != 0)).foldl
    (fun t c => t.reply c 0 reason (r.ticks % 2 ^ 36) 0) s4

/-- A run ends with END or ABORT in a slot (R301). -/
def State.endRunIn (s : State) (p reason time : Nat) : State :=
  let r := (s.port p).run
  let sub := if reason = 1 ∨ reason = 2 then 2 else 3
  (s.pfpQueue p rankTick time (controlBody sub (if sub = 3 then reason else 0) r.next r.ticks 0)).endRun p reason

/-! ### Link down and training (R278, R288) -/

/-- The pour clear of a POUR_ARM in progress has lost its port (R296). -/
def Run.lose (r : Run) : Run := if r.clearing then { r with clearLost := true } else r

/-- The domain of a port's lanes is on (R382). -/
def State.pfpPowered (s : State) (p : Nat) : Bool := (s.dom (if p < 8 then 65 else 66)).state == 1 && !s.pfpFenced p

/-- The training blocks that Zoten sends on the lanes of a port (R277). -/
def State.trainBlocks (s : State) (p : Nat) (ts2 : Bool) : List Nat :=
  let g := if ts2 then (s.port p).fl.grant else 0
  (List.range (4 * s.pfpBond p)).map (fun l =>
    lineBlock true (trainBytes [if ts2 then 0xB6 else 0xB5, l + 16 * p, s.pfpBond p, 1, g % 256, g / 256, 0]))

/-- The lanes of a port send training blocks from now on, while they have power. -/
def State.sendTrain (s : State) (p : Nat) (ts2 : Bool) : State :=
  if s.pfpPowered p then s.emit (.pfpTrain p (s.trainBlocks p ts2)) else s

/-- Training begins: every lane sends TS1 (R278 item 1). -/
def State.beginTrain (s : State) (p : Nat) : State :=
  (s.updPort p (fun x => { x with state := .training, fl := FrameLink.begin s.clk.edges })).sendTrain p false

/-- The link goes down (R288). -/
def State.pfpDown (s : State) (p : Nat) : State :=
  let x0 := s.port p
  let s1 := if x0.state = .armed || x0.state = .running then s.endRun p 7 else s
  let s2 := s1.updPort p (fun x => { x with avail := 0, farCredits := 0, owed := 0, run := x.run.lose, state := .disabled,
                                            fl := FrameLink.reset })
  if s.pfpOn p then s2.beginTrain p else s2

/-- enable is written 1 (R278, R294). (DEDUCED, log entry 47) -/
def State.portEnable (s : State) (p : Nat) : State :=
  if (s.port p).state = .disabled then s.beginTrain p else s

/-- The fail-ingest consumer has no record. -/
def Port.noRecord (x : Port) : Port := { x with recWords := [], decided := none, sentWords := 0 }

/-- The class 3 queue of a port is flushed (R200); a record already begun is dropped with its words. -/
def State.flushFail (s : State) (p : Nat) : State := (s.siltFlush (256 + p) 3).updPort p Port.noRecord

/-- enable is written 0: the run ends with DISABLE, the link stops, the queue is flushed (R301, R309). -/
def State.portDisable (s : State) (p : Nat) : State :=
  let s1 := if (s.port p).state = .armed || (s.port p).state = .running then s.endRun p 8 else s
  (s1.updPort p (fun x => { x with state := .disabled, fl := FrameLink.reset, avail := 0, farCredits := 0, owed := 0,
                                   run := x.run.lose })).flushFail p

/-- enable is cleared by the device (R343, R389, R390). -/
def State.portOff (s : State) (p : Nat) : State :=
  if s.pfpOn p then (s.setFld (pfpOff p 0x04) 0 1 0).portDisable p else s

/-- Fail records that the receive buffer still holds (R288, R290). -/
def State.heldRecords (s : State) (p : Nat) : Nat := ((s.queue (256 + p)).inbox.filter (fun w => w.eop)).length

/-- Training fails (R278): counted, recorded, and started again after 1 ms. -/
def State.trainFail (s : State) (p : Nat) : State :=
  ((s.bump (pfpOff p 0x44) 24 8 1).pfpErr 0 p 0x44 24 0 0).updPort p (fun x =>
    { x with fl := { FrameLink.begin s.clk.edges with failedAt := some s.clk.edges } })

/-- Zoten sends TS2, which grants fail_credits less the records still held (R278 item 3, R288, R290). -/
def State.grantFail (s : State) (p : Nat) : State :=
  let g := s.fld (pfpOff p 0x10) 13 10 - s.heldRecords p
  (s.updPort p (fun x => { x with farCredits := g, owed := 0,
                                  fl := { x.fl with grant := g, ts2Start := some s.clk.edges } })).sendTrain p true

/-- The lanes of a training port, of which one more carries a block (R278 items 1 and 2). -/
def FrameLink.placeLane (x : FrameLink) (n k m : Nat) (inv : Bool) : FrameLink :=
  { x with lanes := setLaneNo x.lanes n k m,
           inverted := if inv then setField x.inverted m 1 1 else x.inverted }

/-- A sync header arrives on a lane whose block it precedes (R278 item 1): the lane with its count, and whether the block is
read. Once locked, a lane reads every block whose header is valid and which comes at most 16 block times after the first
lane's. (DEDUCED, log entry 67) -/
def FrameLink.header (x : FrameLink) (n lane : Nat) (sync : BitVec 2) (skew : Nat) : FrameLink × Bool :=
  if x.locked lane then (x, syncOk sync && decide (skew ≤ 16))
  else if syncOk sync then ({ x with sync := bumpAt x.sync n lane }, false)
  else ({ x with sync := lset (bumpAt x.sync n lane) lane 0 }, false)

/-- A TS1 that is not good ends the lane's row of good ones (R278 item 3). -/
def FrameLink.badTs1 (x : FrameLink) (n lane : Nat) : FrameLink := { x with ts1 := lset (bumpAt x.ts1 n lane) lane 0 }

/-- The zero fields of the far end's training block (R277). -/
def pfpTsZero (blk : Nat) (ts2 : Bool) : Bool :=
  bitsOf blk 12 4 == 0 && bitsOf blk 48 8 == 0 && (ts2 || bitsOf blk 32 16 == 0)

/-- Sixteen TS2 of 2.0625 ns have left since an edge. -/
def State.passTs2 (s : State) (t : Nat) : State := s.passEdges (t + 33)

/-- A good TS2 on a lane (R278 items 3 and 4). -/
def State.takeTs2 (s : State) (p lane : Nat) (fl : FrameLink) (blk : Nat) : State :=
  let n := 4 * s.pfpBond p
  let fl1 := { fl with ts2 := bumpAt fl.ts2 n lane }
  let s1 := s.setPort p { s.port p with fl := fl1 }
  match fl1.ts2Start with
  | none => s1
  | some t =>
    if allAtLeast fl1.ts2 n 8 then
      (s1.passTs2 t).updPort p (fun y =>
        { y with state := .idle, avail := bitsOf blk 32 16,
                 fl := { FrameLink.reset with lanes := fl1.lanes, inverted := fl1.inverted, grant := fl1.grant,
                                              reversed := laneReversed fl1.lanes n } })
    else s1

/-- A good TS1 on a lane: after sixteen in a row on every lane the port sends TS2 (R278 item 3). -/
def State.takeTs1 (s : State) (p lane : Nat) (fl : FrameLink) : State :=
  let n := 4 * s.pfpBond p
  let fl1 := { fl with ts1 := bumpAt fl.ts1 n lane }
  let s1 := s.setPort p { s.port p with fl := fl1 }
  if allAtLeast fl1.ts1 n 16 && fl1.ts2Start.isNone then s1.grantFail p else s1

/-- The payload of a training block that a locked lane reads (R277, R278). A TS2 whose zero fields are not zero is not
counted. (DEDUCED, log entry 67) -/
def State.readTrain (s : State) (p lane : Nat) (inv : Bool) (blk : Nat) (ts2 : Bool) : State :=
  let x := s.port p
  let n := 4 * s.pfpBond p
  let m := 4 * bitsOf blk 10 2 + bitsOf blk 8 2
  let good := blkOk blk && bitsOf blk 0 8 == (if ts2 then 0xB6 else 0xB5)
  if !good || !pfpTsZero blk ts2 then
    if !ts2 then s.setPort p { x with fl := x.fl.badTs1 n lane } else if !good then s.trainFail p else s
  else
    let fl := x.fl.placeLane n lane m inv
    if decide (n ≤ m) || !laneOrderOk fl.lanes n then s.trainFail p
    else if !ts2 then s.takeTs1 p lane fl
    else if bitsOf blk 24 8 ≠ 1 || bitsOf blk 16 8 ≠ s.pfpBond p then s.trainFail p
    else s.takeTs2 p lane fl blk

/-- A block arrives on a lane of a port that trains (R276-R278). (DEDUCED, log entry 67) -/
def State.trainBlock (s : State) (p lane : Nat) (sync : BitVec 2) (skew blk : Nat) (ts2 : Bool) : State :=
  let x := s.port p
  let n := 4 * s.pfpBond p
  if x.state ≠ .training || x.fl.failedAt.isSome || !s.pfpPowered p || decide (n ≤ lane) then s
  else
    let h := x.fl.header n lane sync skew
    if h.2 then s.readTrain p lane (sync == 1) blk ts2
    else if x.fl.locked lane && !ts2 then s.setPort p { x with fl := x.fl.badTs1 n lane }
    else s.setPort p { x with fl := h.1 }

/-! ### Received frames (R285, R287) -/

/-- A RETRY is sent, unless 128 frames are unacknowledged; the sixteenth in a row leaves and takes the link down (R287,
R288). (DEDUCED, log entry 66) -/
def State.pfpRetryOut (s : State) (p : Nat) : State :=
  let x := s.port p
  if 128 ≤ x.fl.replay.length then s.setPort p { x with fl := x.fl.holdRetry }
  else
    let s1 := (s.setPort p { x with fl := x.fl.retry s.now64 }).bump (pfpOff p 0x44) 16 8 1
    if 16 ≤ x.fl.retries + 1 then (s1.portSend p (s.now64 + s.slotLen p)).pfpDown p else s1

/-- A frame that cannot be taken starts the discarding (R287 item 4). -/
def State.pfpReject (s : State) (p : Nat) : State := if (s.port p).fl.discarding then s else s.pfpRetryOut p

/-- The payload of a frame from the far end breaks R281-R284. -/
def pfpBad (f : Nat) : Bool :=
  let nz (byte lo w : Nat) : Bool := frameBits f byte lo w != 0
  let ty := frameType f
  nz 0 21 11 ||
  (if ty = 0 then nz 0 4 8 || nz 4 0 192
   else if ty = 2 then nz 22 0 48
   else if ty = 3 then decide (1 < frameBits f 4 0 8) || nz 5 0 8 || nz 8 0 160
   else if ty = 5 then nz 0 4 8 || nz 5 0 184
   else true)

/-- The four words of a FAIL frame (R283). -/
def failWords (f : Nat) : List PWord :=
  (List.range 4).map (fun k => PWord.clean (BitVec.ofNat 36 (frameBits f 4 (36 * k) 36)))

/-- Words in the receive buffer enter the class 3 queue while it takes them; each record that has left the buffer makes a
credit pending (R290). -/
def State.pushFail (s : State) (p : Nat) (push : State → State) : State :=
  let t := push s
  let n := s.heldRecords p - t.heldRecords p
  t.updPort p (fun x => if decide (0 < n) && (x.active || x.fl.ts2Start.isSome)
    then { x with owed := x.owed + n, owedAt := if x.owed = 0 then s.now64 else x.owedAt } else x)

/-- When the CREDIT frame for the pending fail credits is due (R290): with sixteen pending, or at the end of the 64th
slot after the slot in which the oldest arose; in 1/64 ns. -/
def State.failCreditAt (s : State) (p : Nat) : Option Nat :=
  let x := s.port p
  if !x.active || x.owed = 0 then none
  else if 16 ≤ x.owed then some s.now64
  else some ((x.owedAt / s.slotLen p + 65) * s.slotLen p)

/-- A fail record received in order enters the receive buffer (R290, R305); SILT_PUSH moves its words into the queue. -/
def State.takeFail (s : State) (p f : Nat) : State :=
  if (s.port p).farCredits = 0 then (s.bump (pfpOff p 0x4C) 24 8 1).pfpErr 0 p 0x4C 24 0 0
  else
    let s1 := s.updPort p (fun x => { x with farCredits := x.farCredits - 1 })
    s1.offer (256 + p) (failWords f)

/-- A CREDIT frame received in order (R284, R289): pool 0 changes the vector credits. -/
def State.takeCredit (s : State) (p f : Nat) : State :=
  if frameBits f 4 0 8 = 0 then s.updPort p (fun x => { x with avail := x.avail + sextNat 16 (frameBits f 6 0 16) })
  else s

/-- A frame from the far end of an active port: it acts by its own type field (R281, R285, R287). (DEDUCED, log
entry 30) -/
def State.pfpReceive (s : State) (p f : Nat) : State :=
  let x := s.port p
  if !x.active then s
  else if !frameOk 32 f then (s.bump (pfpOff p 0x44) 0 16 1).pfpReject p
  else
    let s1 := s.setPort p { x with fl := x.fl.takeAck f }
    let ty := frameType f
    let numbered := decide (1 ≤ ty) && decide (ty ≤ 4)
    let bad := pfpBad f
    let s2 := if bad then (s1.bump (pfpOff p 0x44) 24 8 1).pfpErr 0 p 0x44 24 0 0 else s1
    if numbered then
      match (s2.port p).fl.judge f with
      | .old => s2
      | .gap => s2.pfpReject p
      | .inOrder =>
        let s3 := s2.updPort p (fun y => { y with fl := y.fl.accept s.now64 })
        if bad then s3 else if ty = 2 then s3.takeFail p f else s3.takeCredit p f
    else if bad then s2
    else if ty = 5 then s2.updPort p (fun y => { y with fl := y.fl.again s.now64 (frameBits f 4 0 8) })
    else s2

/-! ### The Pour window (R292) -/

/-- A window word was written before a time (R299). -/
def Port.wrote (x : Port) (k before : Nat) : Bool := decide (0 < tget 0 x.present k) && decide (tget 0 x.present k ≤ before)

/-- Every word of the slot of an index was written before a time. -/
def State.slotPresent (s : State) (p x before : Nat) : Bool :=
  (List.range (s.pfpLen p + 1)).all (fun w => (s.port p).wrote (x % 65536 * 4 + w) before)

/-- The prefill of trigger 0 is complete: S0 is the first slot 16 ns later (R297). -/
def State.tryPrefill (s : State) (p : Nat) : State :=
  let x := s.port p
  if x.state == .armed && x.run.trigger == 0 && x.run.s0.isNone && x.run.stop.isNone &&
      (List.range x.run.prefill).all (fun k => s.slotPresent p (x.run.base + k) (s.now + 1)) then
    s.fixStart p (slotAt (s.slotLen p) (s.now64 + 1024))
  else s

/-- A POUR_WORD flit at the Pour stage (R292). -/
def State.pourIn (s : State) (f : BitVec 128) : State :=
  let p := fieldOf f 16 4
  let w := fieldOf f 20 2
  let x := fieldOf f 24 36
  let r := (s.port p).run
  let drop (lsb : Nat) : State := s.bump (pfpOff p 0x40) lsb 8 1
  if !((s.port p).state == .armed || (s.port p).state == .running) || s.pfpLead p != p then drop 8
  else if decide (x < r.next) || decide (r.next + 65536 ≤ x) then drop 0
  else if fieldOf f 22 2 ≠ s.pfpLen p then drop 24
  else if (s.port p).wrote (x % 65536 * 4 + w) (s.now + 1) then drop 16
  else
    let s1 := (s.accessNow (0x620 + p)).1
    ((s1.wr (pourWordAddr p (x % 65536) w) (flitData f)).updPort p (fun y =>
      { y with present := tput 0 y.present (x % 65536 * 4 + w) (s.now + 1) })).tryPrefill p

/-! ### Tick examination (R299-R304) -/

/-- The release time of the next tick, and the start of its examination cycle in ns (R297, R299). -/
def State.release (s : State) (p s0 : Nat) : Nat :=
  let r := (s.port p).run
  s0 + r.ticks * s.pfpPeriod p * s.slotLen p + r.waitSlots * s.slotLen p
def examNs (release : Nat) : Nat := (release + 63) / 64 - 8

/-- The examination cycle of a port's next tick; none when no tick is to come. -/
def State.nextExam (s : State) (p : Nat) : Option Nat :=
  let x := s.port p
  match x.run.s0 with
  | none => none
  | some t => if x.state == .running || (x.state == .armed && x.run.stop.isNone) then some (examNs (s.release p t)) else none

/-- The run ends at this tick before any reservation: the end count, or a stop (R301). (DEDUCED, log entry 29) -/
def Run.ending (r : Run) : Option Nat :=
  if r.endCount ≠ 0 ∧ r.released = r.endCount then some 1
  else match r.stop with | some (reason, _) => some reason | none => none

/-- The burst of this tick is reserved or can be (R289). -/
def State.burstOk (s : State) (p : Nat) : Bool :=
  let x := s.port p
  decide (0 < x.run.burstLeft) || decide ((s.fld (pfpOff p 0x10) 0 13 : Int) ≤ x.avail)

/-- The window words of an index. -/
def State.slotWords (s : State) (p x : Nat) : List PWord :=
  (List.range (s.pfpLen p + 1)).map (fun w => s.rd (pourWordAddr p (x % 65536) w))

/-- This examination of a port releases a vector whose index its trigger names (R304). -/
def State.trips (s : State) (p e : Nat) : Bool :=
  let r := (s.port p).run
  s.nextExam p == some e && r.ending.isNone && s.burstOk p && s.slotPresent p r.next e &&
    (s.slotWords p r.next).all (fun w => !w.p) && s.flag (pfpOff p 0x54) 31 &&
    s.reg (pfpOff p 0x50) + s.fld (pfpOff p 0x54) 0 4 * 2 ^ 32 == r.next

/-- The burst of a tick is reserved, or the port waits one slot for credits (R289). -/
def State.reserve (s : State) (p : Nat) : State × Bool :=
  let x := s.port p
  if 0 < x.run.burstLeft then (s, true)
  else
    let b := s.fld (pfpOff p 0x10) 0 13
    if (b : Int) ≤ x.avail then
      (s.setPort p { x with avail := x.avail - b, run := { x.run with burstLeft := b, creditWait := false } }, true)
    else
      ((s.setPort p { x with run := { x.run with creditWait := true, waitSlots := x.run.waitSlots + 1 } }).bump
        (pfpOff p 0x5C) 0 32 1, false)

/-- A tick is released: the tick count and the burst advance. -/
def Run.tick (r : Run) : Run := { r with ticks := r.ticks + 1, burstLeft := r.burstLeft - 1 }

/-- A run ends at the examination of a tick (R301): its START has left or waits for slot S0 - 1, and S0 counts as its start.
(DEDUCED, log entry 29) -/
def State.endTick (s : State) (p reason rel : Nat) : State :=
  (if (s.port p).state = .armed then s.runStart p else s).endRunIn p reason rel

/-- An underrun meets the policy (R300). -/
def State.underrun (s : State) (p rel : Nat) (epoch : Bool) : State :=
  let s1 := s.bump (pfpOff p 0x3C) 0 32 1
  let s2 := if (s.port p).run.underRecorded then s1 else s1.pfpErr 0 p 0x3C 0 (s.pfpGraph p) 0
  let s3 := s2.updPort p (fun x => { x with run := { x.run with
    under := x.run.under + 1, consec := x.run.consec + 1, holding := true, underRecorded := true } })
  let r := (s3.port p).run
  let policy := s.fld (pfpOff p 0x0C) 0 2
  let limit := s.fld (pfpOff p 0x0C) 2 16
  if limit ≠ 0 ∧ limit ≤ r.consec then s3.endTick p 6 rel
  else if policy = 2 then s3.endTick p 4 rel
  else
    let body := match policy, r.last with
      | 1, some (i, ws) => tickBody 1 i (s.pfpLen p) ws epoch
      | _, _ => tickBody 2 r.next (s.pfpLen p) [] epoch
    (s3.tickFrame p body rel).updPort p (fun x => { x with run := x.run.tick })

/-- The slot of index next is examined (R299). (DEDUCED, log entry 29) -/
def State.examineSlot (s : State) (p e rel : Nat) (epoch : Bool) : State :=
  let r := (s.port p).run
  if s.slotPresent p r.next e then
    let ws := s.slotWords p r.next
    if ws.any (fun w => w.p) then s.endTick p 5 rel
    else
      let vs := ws.map (fun w => w.v)
      (s.tickFrame p (tickBody 0 r.next (s.pfpLen p) vs epoch) rel).updPort p (fun x =>
        { x with present := tclear x.present (r.next % 65536 * 4) (r.next % 65536 * 4 + 4),
                 run := { x.run.tick with next := (r.next + 1) % 2 ^ 36, released := r.released + 1,
                                          last := some (r.next, vs), consec := 0, holding := false } })
  else s.underrun p rel epoch

/-- A port applies its waiting shadows at its boundary tick (R303). (DEDUCED, log entry 29) -/
def State.boundaryTick (s : State) (p e : Nat) : State × Bool :=
  match (s.port p).run.boundary with
  | none => (s, false)
  | some i =>
    if i ≤ e then
      ((s.applyShadow (pfpOff p 0x0C) (dueKey (pfpOff p 0x0C))).updPort p (fun x =>
        { x with run := { x.run with boundary := none } }), true)
    else (s, false)

/-- The examination of a port's next tick, after the boundary triggers of its cycle (R289, R299-R303). `own` tells that
this tick's index has just made a boundary. -/
def State.examine (s : State) (p e : Nat) (own : Bool) : State :=
  match (s.port p).run.s0 with
  | none => s
  | some t =>
    let s0 := if (s.port p).state = .armed && decide (t ≤ 64 * e) then s.runStart p else s
    let rel := s0.release p t
    match (s0.port p).run.ending with
    | some reason => s0.endTick p reason rel
    | none =>
      match s0.reserve p with
      | (s1, false) => s1
      | (s1, true) =>
        let b := s1.boundaryTick p e
        b.1.examineSlot p e rel (b.2 || own)

/-- Ports at a boundary instant (R303, R304): handler shadows switch; a running port marks its boundary tick; a port armed
for the epoch takes its S0. (DEDUCED, log entry 29) -/
def State.portBoundary (s : State) (p i : Nat) : State :=
  let lo := pfpOff p 0x18
  let s1 := if (tfind s.shadows lo).isSome then (s.applyShadow lo lo).updPort p (fun x => { x with recSeq := 0 }) else s
  let s2 := s1.applyShadow (pfpOff p 0x1C) (pfpOff p 0x1C)
  let x := s2.port p
  if x.state = .running then
    let s3 := match tfind s2.shadows (pfpOff p 0x0C) with
      | none => s2
      | some n =>
        let y := match tfind s2.shadows (dueKey (pfpOff p 0x0C)) with | some o => n.over o | none => n
        { s2 with shadows := tins (tdel s2.shadows (pfpOff p 0x0C)) (dueKey (pfpOff p 0x0C)) y }
    s3.updPort p (fun y => { y with run := { y.run with boundary := some (y.run.boundary.getD i) } })
  else
    let s3 := s2.applyShadow (pfpOff p 0x0C) (pfpOff p 0x0C)
    if x.state == .armed && x.run.trigger == 2 && x.run.s0.isNone && x.run.stop.isNone then
      s3.fixStart p (slotAt (s3.slotLen p) (64 * (i + 16)))
    else s3

/-! ### Fail ingest (R305-R308) -/

/-- The next record number (R305). -/
def Port.nextRec (x : Port) : Nat := (x.recSeq + 1) % 4096

/-- A record is decided (R306, R307): enable, then the kind, then the handler in effect. `w1` is none when an abort word
came before W1. (DEDUCED, log entry 30) -/
def State.decideRec (s : State) (p : Nat) (w1 : Option Word) : State :=
  let x := s.port p
  let lo := s.reg (pfpOff p 0x18)
  let discard (lsb w : Nat) : State :=
    (s.bump (pfpOff p 0x4C) lsb w 1).updPort p (fun y => { y with decided := some none, recSeq := y.nextRec })
  let badKind := match w1 with
    | some w => decide (1 < fieldOf w 8 4)
    | none => bitOf lo 27
  if !bitOf lo 28 then discard 0 12
  else if badKind then discard 12 12
  else
    let q := s.fld (pfpOff p 0x1C) 20 12
    let site := match w1 with | some w => fieldOf w 0 8 | none => 0
    let colour := if bitOf lo 27 then (q + site) % 4096 else (q + x.recSeq) % 4096
    (s.bump (pfpOff p 0x48) 0 32 1).updPort p (fun y =>
      { y with decided := some (some (lo, s.fld (pfpOff p 0x1C) 0 20, colour)), recSeq := y.nextRec })

/-- The token of word j of a delivered record; none for W0 and W1 in SITE mode (R305). -/
def State.failToken (s : State) (lo ip colour j : Nat) (v : PWord) : Option Token :=
  let site := bitOf lo 27
  if site && decide (j < 2) then none
  else
    some { cid := BitVec.ofNat 24 (bitsOf lo 0 24), ip := BitVec.ofNat 20 (ip + (if site then j - 2 else j / 2)),
           colour := BitVec.ofNat 12 colour, port := BitVec.ofNat 2 (if site then 0 else j % 2),
           cls := BitVec.ofNat 3 (bitsOf lo 24 3), pkg := BitVec.ofNat 4 s.ownPkg, val := v }

/-- The tokens of words already popped leave in table order (R306); after an abort word the rest leave poisoned (R307). -/
def State.sendFail (s : State) (p upto : Nat) (aborted : Bool) : State :=
  let x := s.port p
  match x.decided with
  | some (some (lo, ip, colour)) =>
    let s1 := ((List.range upto).drop x.sentWords).foldl (fun t j =>
      let v := if j < x.recWords.length && !(aborted && decide (x.recWords.length ≤ j + 1)) then
        lget PWord.zero x.recWords j else { v := 0, p := true }
      match t.failToken lo ip colour j v with
      | some k => (t.bedrockToken k).getD t
      | none => t) s
    s1.updPort p (fun y => { y with sentWords := upto })
  | _ => s

/-- One word of the class 3 queue of a port, after which the record has ended or not. -/
def State.failWord (s : State) (p : Nat) (w : SWord) : State × Bool :=
  let s1 := s.updPort p (fun x => { x with recWords := x.recWords ++ [w.w] })
  let x := s1.port p
  let k := x.recWords.length
  let aborted := w.eop && decide (k < 4)
  let s2 := if x.decided.isNone && aborted then
      s1.decideRec p (if k < 3 then none else some (lget PWord.zero x.recWords 1).v)
    else if x.decided.isNone && k == 2 then s1.decideRec p (some w.w.v) else s1
  let s3 := s2.sendFail p (if aborted then 4 else k) aborted
  if w.eop then (s3.updPort p Port.noRecord, true) else (s3, false)

/-- The consumer of a port's fail records does not pop while the graph of its handler context is PARKED (R222). -/
def State.handlerParked (s : State) (p : Nat) : Bool :=
  let lo := s.reg (pfpOff p 0x18)
  bitOf lo 28 && (s.graph (s.hdr (bitsOf lo 0 24)).graph).state == .parked

/-- The consumer takes the visible words of one record (R306, R307). (DEDUCED, log entry 25) -/
def State.failConsume : Nat → State → Nat → State
  | 0, s, _ => s
  | k + 1, s, p =>
    match s.siltTake (256 + p) 3 with
    | none => s
    | some (w, s1) =>
      match (s1.noteLost (256 + p) w).failWord p w with
      | (s2, true) => s2
      | (s2, false) => State.failConsume k s2 p

/-- Drip action 3 (R308). -/
def State.failDrip (s : State) (p : Nat) : State :=
  let lo := s.reg (pfpOff p 0x18)
  let q := s.queue (256 + p)
  let n := ((q.head ++ q.mid ++ q.tail).filter (fun w => w.eop)).length
  if bitOf lo 28 then
    (s.bedrockToken { cid := BitVec.ofNat 24 (bitsOf lo 0 24), ip := BitVec.ofNat 20 (s.fld (pfpOff p 0x1C) 0 20 + 2),
                      colour := BitVec.ofNat 12 (s.fld (pfpOff p 0x1C) 20 12), port := 0,
                      cls := BitVec.ofNat 3 (bitsOf lo 24 3), pkg := BitVec.ofNat 4 s.ownPkg,
                      val := .clean (BitVec.ofNat 36 (min n (2 ^ 36 - 1))) }).getD s
  else s

end Sys2Proof.Machine
end

