-- ==== Sys2Proof/Machine/LatchOps.lean ====
section
/-! DEFINITION. The Latch Bank (R243-R249): acquire, release, peek, lifts; and idle-side accesses to storage (R229,
R231-R235). -/

namespace Sys2Proof.Machine

/-- The read value of a latch access (R243). (DEDUCED, log entry 34) -/
def latchValue (result : Nat) (abandoned : Bool) (req cid : Nat) : BitVec 32 :=
  BitVec.ofNat 32 (result + b2n abandoned * 4 + req * 8 + cid * 256)

/-- A requester ID of a firing (R41). -/
def isFiringReq (req : Nat) : Bool := decide (0x11 ≤ req) && decide (req ≤ 0x16)

/-- The requester holds the right of the latch's group (R246). -/
def State.latchRight (s : State) (k req : Nat) : Bool := s.flag (ltbOff (4 * (k / 64))) req

/-- A refused access (R246). -/
def State.latchRefused (s : State) (k req : Nat) : State :=
  (s.bump (ltbOff 0x10C) 20 12 1).event 0 6 (ltbOff 0x10C) 20 k req

/-- A parity error found at an access frees the latch (R248). (DEDUCED, log entry 34) (DESIGN CHOICE, log entry
53) -/
def State.latchParity (s : State) (k : Nat) : State :=
  let x := s.latch k
  ((((s.unlift k x).setLatch k { Latch.free with abandoned := true }).bump (ltbOff 0x10C) 12 8 1).event 1 6
    (ltbOff 0x10C) 12 k 0)

/-- The highest waiter class exceeds the holder's header class: a lift message goes to the holder's die (R247). -/
def State.liftHolder (s : State) (k : Nat) : State :=
  let x := s.latch k
  let old := match x.lifted with | some c => c.toNat | none => 0
  if isFiringReq x.req && x.waiter && decide ((s.hdr x.cid.toNat).cls < x.wcls.toNat) && decide (old < x.wcls.toNat) then
    (s.setLatch k { x with lifted := some x.wcls }).updDie (reqDie x.req) (fun d =>
      { d with liftMsgs := d.liftMsgs ++ [{ latch := k, cid := x.cid, cls := some x.wcls }] })
  else s

/-- An acquire (R244): the state and the read value. `cid`, `graph` and `cls` are those of a firing. (DEDUCED, log
entry 34) -/
def State.latchAcquire (s : State) (k req cid graph cls : Nat) : State × BitVec 32 :=
  if !s.latchRight k req then (s.latchRefused k req, latchValue 0 false 0 0)
  else
    let x := s.latch k
    if !x.parOk then (s.latchParity k, latchValue 3 true 0 0)
    else if x.held then
      let s1 := if isFiringReq req then
          (s.setLatch k { x with waiter := true, wcls := BitVec.ofNat 3 (if x.waiter then max x.wcls.toNat cls else cls) }).liftHolder k
        else s
      (s1, latchValue 2 false x.req x.cid.toNat)
    else
      (s.setLatch k { Latch.free with held := true, req := req, cid := BitVec.ofNat 24 cid, graph := BitVec.ofNat 8 graph },
       latchValue 1 x.abandoned req cid)

/-- A release (R245): the state and the reply to a firing, result 1 when the latch was freed and 2 when it was free. -/
def State.latchRelease (s : State) (k req : Nat) : State × BitVec 32 :=
  if !s.latchRight k req then (s.latchRefused k req, latchValue 0 false 0 0)
  else
    let x := s.latch k
    if !x.parOk then (s.latchParity k, latchValue 3 true 0 0)
    else if x.held then ((s.unlift k x).setLatch k Latch.free, latchValue 1 false 0 0)
    else (s, latchValue 2 false 0 0)

/-- A peek (R243). -/
def State.latchPeek (s : State) (k : Nat) : BitVec 32 :=
  let x := s.latch k
  if x.held then latchValue 2 x.abandoned x.req x.cid.toNat else latchValue 0 x.abandoned 0 0

/-- A lift message reaches its die (R247). -/
def Die.applyLift (d : Die) : Die :=
  match d.liftMsgs with
  | [] => d
  | m :: rest =>
    { d with liftMsgs := rest, lifts := if m.cls.isSome then tins d.lifts m.latch m else tdel d.lifts m.latch }

/-! ### Idle-side accesses (R231-R235) -/

/-- A word of a channel's running descriptor has been issued (R262, R266, R268). -/
def State.chanWord (s : State) (ch : Nat) (w : PWord) : State :=
  let x := s.chan ch
  (if w.p then s.bump (bmvOff ch 0x20) 0 32 1 else s).setChan ch
    { x with doneWords := x.doneWords + 1, poisonAny := x.poisonAny || w.p,
             poisonFirst := if w.p && x.poisonFirst.isNone then some x.doneWords else x.poisonFirst }

/-- The write of a channel's word has been issued; that of a BAR2 write is no one's to count. -/
def State.issued (s : State) (chan : Option Nat) (w : PWord) : State :=
  match chan with
  | some ch => s.chanWord ch w
  | none => s

/-- A held write lands in its bank, or a bank that is off discards it (R229, R234). -/
def State.landOne (s : State) (n : Nat) (h : HeldWr) : State :=
  match s.accessNow (frameBank n h.addr) with
  | (s1, true) => s1.issued h.chan h.w
  | (s1, false) => (s1.wr h.addr h.w).issued h.chan h.w

/-- The held writes that can land, and those that stay: each bank takes its held writes in order, and none while a PE's
write to the word is buffered (R233, R234). -/
def heldSplit (n : Nat) (buf : List WBuf) (hs : List HeldWr) : List HeldWr × List HeldWr :=
  hs.foldl (fun r h =>
    if buf.any (fun b => b.addr == h.addr) || r.2.any (fun x => frameBank n x.addr == frameBank n h.addr) then
      (r.1, r.2 ++ [h])
    else (r.1 ++ [h], r.2)) ([], [])

/-- Held writes that can land do so, oldest first (R233, R234). -/
def State.landHeld (s : State) (n : Nat) : State :=
  let r := heldSplit n (s.die n).wbuf (s.die n).held
  r.1.foldl (fun t h => t.landOne n h) (s.updDie n (fun d => { d with held := r.2 }))

/-- An idle-side access to a bank that holds writes waits until they have landed (R233): the PE writes buffered for those
words drain first, with all that are older. -/
def State.settleBank (s : State) (n off : Nat) : State :=
  let mine := (s.die n).held.filter (fun h => frameBank n h.addr == n * 256 + off / 131072)
  if mine.isEmpty then s
  else
    let buf := (s.die n).wbuf
    let keep := buf.reverse.takeWhile (fun b => !mine.any (fun h => h.addr == b.addr))
    let k := buf.length - keep.length
    ((buf.take k).foldl (fun t b => t.drainWr n b) (s.updDie n (fun d => { d with wbuf := buf.drop k }))).landHeld n

/-- An idle-side write of a Frame Store word: held while a PE's write to the word is buffered, and behind the writes that
its bank holds (R233, R234). -/
def State.idleFrameWr (s : State) (n off : Nat) (w : PWord) (chan : Option Nat) : State :=
  match s.accessNow (n * 256 + off / 131072) with
  | (s1, true) => s1.issued chan w
  | (s1, false) =>
    let a := frameWord n off
    let d := s1.die n
    if d.wbuf.any (fun b => b.addr == a) || d.held.any (fun h => frameBank n h.addr == frameBank n a) then
      s1.setDie n { d with held := d.held ++ [{ addr := a, w := w, chan := chan }] }
    else (s1.wr a w).issued chan w

/-- An idle-side write to a banked word of Bedrock (R229). -/
def State.bankWr (s : State) (b a : Nat) (w : PWord) : State :=
  match s.accessNow b with
  | (s1, true) => s1
  | (s1, false) => s1.wr a w

/-- A read of a banked word (R229). -/
def State.bankRd (s : State) (b : Nat) (value : State → PWord) : State × PWord :=
  match s.accessNow b with
  | (s1, true) => (s1, { v := 0, p := true })
  | (s1, false) => (s1, value s1)

/-- An idle-side read of a global word by a requester (R35, R229, R235, R243). -/
def State.idleRd (s : State) (req a : Nat) : State × PWord :=
  match s.kindOf a with
  | .ddr _ => (s, s.rd a)
  | .frame n off => (s.settleBank n off).bankRd (n * 256 + off / 131072) (fun t => t.frameRd n off)
  | .scratch off => s.bankRd (0x600 + off / 131072) (fun t => t.rd a)
  | .pour off => s.bankRd (0x620 + off / 0x40000) (fun t => t.rd a)
  | .latch k => (s, .clean (BitVec.ofNat 36 (s.latchPeek k).toNat))
  | .reserved => (s, PWord.zero)
  | k => s.windowRead req k

/-- An idle-side write of a global word that its requester may write, for a channel of the Block Mover or for BAR2. -/
def State.idleWr (s : State) (a : Nat) (w : PWord) (chan : Option Nat) : State :=
  match s.kindOf a with
  | .ddr _ => (s.wr a w).issued chan w
  | .frame n off => s.idleFrameWr n off w chan
  | .scratch off => (s.bankWr (0x600 + off / 131072) a w).issued chan w
  | .pour off => (s.bankWr (0x620 + off / 0x40000) a w).issued chan w
  | _ => s

/-- Words of a channel that banks hold. -/
def State.chanHeld (s : State) (ch : Nat) : List HeldWr :=
  (s.dies.map (fun d => d.held.filter (fun h => h.chan == some ch))).flatten

/-- The BAR2 writes that banks hold land, in the order of their banks (R238). -/
def State.landBar2 (s : State) : State :=
  (List.range 6).foldl (fun t n =>
    (t.die n).held.foldl (fun u h => if h.chan.isNone then u.settleBank n (h.addr % 0x1000000) else u) t) s

end Sys2Proof.Machine
end

