-- ==== Sys2Proof/Machine/BmvOps.lean ====
section
/-! DEFINITION. The Block Mover (R253-R273): descriptors, start checks, bursts, and the end of a descriptor. -/

namespace Sys2Proof.Machine

/-! ### AER (R341, R391) -/

/-- An error that AER reports, as an Advisory Non-Fatal record of kind 5: the bit of the Uncorrectable Error Status
register of the PCI Express AER capability (offset 4 in it). (DEDUCED, log entry 33) -/
def State.aer (s : State) (bit : Nat) : State :=
  (s.err 0 5 6 0 0 0 0x1F (Config.aerCap + 4) bit).emit (.aer bit)

/-- Bits of that register: poisoned TLP, completion timeout, completer abort. -/
def aerPoison : Nat := 12
def aerTimeout : Nat := 14
def aerAbort : Nat := 15

/-- The errors that the completions of a device read show (R341). -/
def State.noteData (s : State) (data : HostData) : State :=
  let s1 := if data.ep.isEmpty then s else s.aer aerPoison
  if data.errAt.isSome then s1.aer aerAbort else s1

/-- A read whose completion never came (R339). -/
def HostData.lost : HostData := { bytes := [], ep := [], errAt := some 0 }

/-! ### Descriptors (R255-R259) -/

/-- A descriptor (R255). -/
structure Desc where
  src : Nat
  dst : Nat
  n : Nat
  sf : Nat
  df : Nat
  ext : Bool
  chk : Bool
  sop : Bool
  nsS : Bool
  nsD : Bool
  recEn : Bool
  latchEn : Bool
  tokEn : Bool
  msixEn : Bool
  latch : Nat
  tag : Nat
  recAddr : Nat
  user : Nat
deriving DecidableEq, Repr

def descOf (b : List Byte) : Desc :=
  let f := leAt b 20 2
  let g := leAt b 22 2
  { src := leAt b 0 8, dst := leAt b 8 8, n := leAt b 16 4, sf := bitsOf f 0 4, df := bitsOf f 4 4, ext := bitOf f 8,
    chk := bitOf f 9, sop := bitOf f 10, nsS := bitOf f 11, nsD := bitOf f 12, recEn := bitOf g 0, latchEn := bitOf g 1, tokEn := bitOf g 2,
    msixEn := bitOf g 3, latch := bitsOf g 4 12, tag := leAt b 24 8, recAddr := leAt b 32 8, user := leAt b 40 4 }

/-- Bits per word at a host end (R256, R258). -/
def fmtBits (f : Nat) : Nat := if f = 1 then 64 else if f = 2 then 32 else if f = 3 then 16 else if f = 4 then 8 else 36

/-- The bytes that N words occupy at a host end (R258, R259). -/
def fmtBytes (f n : Nat) : Nat := (n * fmtBits f + 7) / 8

/-- Reserved bits of a descriptor that are not zero (R261 check 3). -/
def descReserved (b : List Byte) : Bool :=
  let d := descOf b
  leAt b 20 2 / 2 ^ 13 != 0 || leAt b 44 4 != 0 || d.tag / 2 ^ 61 != 0 || d.recAddr % 16 != 0 ||
    (d.sf == 0 && decide (2 ^ 36 ≤ d.src)) || (d.df == 0 && decide (2 ^ 36 ≤ d.dst))

/-- An end's range is in order: a global range in one half, a host range below 2^64 (R261 check 4). -/
def rangeOk (fmt a n : Nat) : Bool :=
  if fmt = 0 then decide (a + n ≤ 2 ^ 35) || (decide (2 ^ 35 ≤ a) && decide (a + n ≤ 2 ^ 36))
  else decide (a + fmtBytes fmt n ≤ 2 ^ 64)

/-- Check 4 of R261. -/
def descParam (d : Desc) : Bool :=
  decide (d.sf ≤ 5) && decide (d.df ≤ 5) && decide (1 ≤ d.n) && rangeOk d.sf d.src d.n && rangeOk d.df d.dst d.n &&
    !(d.sf == 0 && d.df == 0 && decide (d.src < d.dst + d.n) && decide (d.dst < d.src + d.n)) &&
    bitsOf d.tag 56 2 != 3 && bitsOf d.tag 0 24 != 0xFFFFFF

/-- A VF's global range lies in its window (R261 check 5, R273). -/
def State.inWindow (s : State) (fn fmt a n : Nat) : Bool :=
  fn == 0 || fmt != 0 ||
    (decide (s.fld (0x250900 + 8 * (fn - 1)) 0 19 * 65536 ≤ a) &&
     decide (a + n ≤ s.fld (0x250904 + 8 * (fn - 1)) 0 19 * 65536))

/-- Checks 3 to 7 of R261 for a starting function: the command status and the entry status of the first that fails. -/
def State.descCheck (s : State) (ch fn : Nat) (b : List Byte) : Option (Nat × Nat) :=
  let d := descOf b
  if descReserved b then some (0x13, 0x15)
  else if !descParam d then some (0x12, 0x15)
  else if !(s.inWindow fn d.sf d.src d.n && s.inWindow fn d.df d.dst d.n) then some (0x20, 0x14)
  else if d.latchEn && !s.latchRight d.latch fn then some (0x20, 0x14)
  else if d.msixEn && decide (vecCount (s.fld (bmvOff ch 0x04) 0 5) ≤ s.fld (bmvOff ch 0x00) 8 11) then some (0x12, 0x15)
  else none

/-! ### Channels -/

def State.bmvOwner (s : State) (ch : Nat) : Nat := s.fld (bmvOff ch 0x04) 0 5

/-- The open command of an opcode whose scope is a channel. -/
def State.bmvCmd (s : State) (opcode ch : Nat) : Option Cmd :=
  s.ce.open_.find? (fun c => fieldOf c.pkt 0 16 == opcode && fieldOf c.pkt 52 12 == ch)

/-- The BMV_STOP commands of a channel that wait for it to be idle are answered (R270). -/
def State.bmvStopped (s : State) (ch status w0 w1 : Nat) : State :=
  (s.ce.open_.filter (fun c => fieldOf c.pkt 0 16 == 0x0201 && fieldOf c.pkt 52 12 == ch)).foldl
    (fun t c => t.reply c status w0 w1 0) s

/-- A channel runs a descriptor (R260). -/
def Chan.run (x : Chan) (b : List Byte) : Chan :=
  { x with active := true, running := true, desc := b.take 48, bursts := [], granted := 0, doneWords := 0, err := none,
           poisonAny := false, poisonFirst := none }

/-- A channel becomes idle; the last status, entry and word count stay readable (R272). -/
def Chan.idle (x : Chan) : Chan :=
  { x with active := false, stopping := none, running := false, bursts := [], granted := 0, ahead := none, err := none }

/-- The Advisory record of an end status from 0x10 upward (R267). -/
def State.bmvRecord (s : State) (ch word : Nat) : State :=
  s.err 0 0 6 (bmvOff ch 0x14) 4 0 (s.bmvOwner ch) ch word

/-- A channel ends with a status before any descriptor action: the list ends (R260, R270). (DEDUCED, log entry 56) -/
def State.bmvStopAt (s : State) (ch code : Nat) : State :=
  let x := s.chan ch
  let s1 := s.setChan ch { x.idle with last := code, doneWords := 0 }
  (if 0x10 ≤ code then s1.bmvRecord ch 0 else s1).bmvStopped ch 0 code 0

/-- The programmed Max_Payload_Size and Max_Read_Request_Size in bytes (R339). (PRESUMED, log entry 64) -/
def State.mps (s : State) : Nat := 128 * 2 ^ min 2 s.cfg.mps.toNat
def State.mrrs (s : State) : Nat := 128 * 2 ^ min 5 s.cfg.mrrs.toNat

/-- The bytes of the first request of a range: none crosses 4 KiB, and its doublewords stay within a maximum size
(R259). -/
def requestLen (a len most : Nat) : Nat := min (min len (most - a % 4)) (4096 - a % 4096)

/-- Host writes of a byte range under a function's requester ID (R237, R259). -/
def State.hostBytes (fuel : Nat) (s : State) (a : Nat) (bs : List Byte) (ns : Bool) (fn : Nat) : State :=
  match fuel with
  | 0 => s
  | k + 1 =>
    if bs.isEmpty then s
    else
      let n := requestLen a bs.length s.mps
      State.hostBytes k (s.emit (.hostWrite a (bs.take n) ns fn)) (a + n) (bs.drop n) ns fn

/-- Host reads of a byte range under a function's requester ID (R236, R259). -/
def State.hostReads (fuel : Nat) (s : State) (a len : Nat) (ns : Bool) (fn : Nat) : State :=
  match fuel with
  | 0 => s
  | k + 1 =>
    if len = 0 then s
    else
      let n := requestLen a len s.mrrs
      State.hostReads k (s.emit (.hostRead a n ns fn)) (a + n) (len - n) ns fn

/-- A read of a host range. -/
def State.readHost (s : State) (a len : Nat) (ns : Bool) (fn : Nat) : State := State.hostReads (len / 64 + 2) s a len ns fn

/-- The read of list entry i of a channel (R236, R260). -/
def State.listRead (s : State) (ch i : Nat) : State :=
  s.readHost (s.fld (bmvOff ch 0x08) 6 26 * 64 + s.reg (bmvOff ch 0x0C) * 2 ^ 32 + 64 * i) 64 (s.flag (bmvOff ch 0x00) 19)
    (s.bmvOwner ch)

/-- What a list entry is when it is read (R260, R261): the entry status of a failed read or check, or 0, and its bytes. A
poisoned read, and bytes 48-63 that are not zero, fail it. (DEDUCED, log entry 56) -/
def State.bmvCheck (s : State) (ch : Nat) (data : HostData) : Nat × List Byte :=
  if data.errAt.isSome || !data.ep.isEmpty then (0x16, [])
  else if !allZero (slice data.bytes 48 16) then (0x15, [])
  else match s.descCheck ch 0 (slice data.bytes 0 48) with
    | some (_, e) => (e, [])
    | none => (0, slice data.bytes 0 48)

/-- A list entry begins (R260): its descriptor runs and the next entry is read, or its failure ends the list. -/
def State.bmvEntry (s : State) (ch : Nat) (e : Nat × List Byte) : State :=
  let x := s.chan ch
  if e.1 ≠ 0 then (s.setChan ch { x with ahead := none }).bmvStopAt ch e.1
  else
    let s1 := s.setChan ch (({ x with ahead := none } : Chan).run e.2)
    if x.entry + 1 < x.count then s1.listRead ch (x.entry + 1) else s1

/-- A doorbell on a channel (R260); `count` has passed the value check. -/
def State.bmvRing (s : State) (ch count : Nat) : State :=
  let x := s.chan ch
  if x.active || s.bmvOwner ch ≠ 0 then
    (s.setFld (bmvOff ch 0x14) 2 1 1).err 0 0 6 (bmvOff ch 0x14) 2 0 0 ch 0
  else
    (s.setChan ch { x with active := true, byList := true, starter := 0, running := false, entry := 0, count := count,
                           ahead := none, stopping := none, doneWords := 0 }).listRead ch 0

/-- A list entry is being read (R260): the first, or the one after the running entry. -/
def Chan.reading (x : Chan) : Bool :=
  x.active && x.byList && (!x.running || (x.ahead.isNone && decide (x.entry + 1 < x.count)))

/-- A list entry read ends with what its completions gave (R260): it runs, or waits while its predecessor runs. -/
def State.bmvFetched (s : State) (ch : Nat) (data : HostData) : State :=
  let x := s.chan ch
  let e := s.bmvCheck ch data
  if x.running then s.setChan ch { x with ahead := some e } else s.bmvEntry ch e

/-- A list entry read completes. (DEDUCED, log entry 56) -/
def State.bmvFetch (s : State) (ch : Nat) (data : HostData) : State :=
  if (s.chan ch).reading then (s.noteData data).bmvFetched ch data else s

/-- A list entry read gets no completion (R339). (DEDUCED, log entry 33) -/
def State.bmvFetchLost (s : State) (ch : Nat) : State :=
  if (s.chan ch).reading then (s.aer aerTimeout).bmvFetched ch HostData.lost else s

/-- The bursts of the running descriptor. -/
def Chan.total (x : Chan) : Nat := ((descOf x.desc).n + 63) / 64

/-- The buffers of the pool that channels hold (R262). -/
def State.bmvHeld (s : State) : Nat := s.chans.foldl (fun n c => n + c.bursts.length) 0

/-- A channel is ready for a buffer (R263). -/
def State.bmvReady (s : State) (ch : Nat) : Bool :=
  let x := s.chan ch
  x.active && x.running && x.stopping.isNone && x.err.isNone && decide (x.granted < x.total) &&
    decide (x.bursts.length < s.fld (bmvOff ch 0x00) 3 5)

/-- The channel that the arbiter grants (R263). -/
def State.bmvPick (s : State) : Option (Nat × Nat) :=
  let ready := (List.range 32).filter s.bmvReady
  let prio (c : Nat) : Nat := s.fld (bmvOff c 0x00) 0 3
  match [7, 6, 5, 4, 3, 2, 1, 0].find? (fun l => ready.any (fun c => prio c == l)) with
  | none => none
  | some l =>
    let cs := ready.filter (fun c => prio c == l)
    let after := lget 31 s.lastGrant l
    match cs.find? (fun c => decide (after < c)) with
    | some c => some (l, c)
    | none => cs.head?.map (fun c => (l, c))

/-- The words of burst k of a descriptor. -/
def Desc.burstLen (d : Desc) (k : Nat) : Nat := min 64 (d.n - 64 * k)

/-- One grant (R263), and the host reads of the burst's source bytes (R236, R259, R262). (DEDUCED, log entry 56) -/
def State.bmvGrant (s : State) : State :=
  if 256 ≤ s.bmvHeld then s
  else match s.bmvPick with
    | none => s
    | some (l, c) =>
      let x := s.chan c
      let d := descOf x.desc
      let k := x.granted
      let s1 := { s.setChan c { x with bursts := x.bursts ++ [{ k := k, words := none, at_ := 0 }], granted := k + 1 } with
        lastGrant := lset s.lastGrant l c }
      if d.sf = 0 then s1
      else
        let lo := fmtBytes d.sf (64 * k)
        s1.readHost (d.src + lo) (fmtBytes d.sf (64 * k + d.burstLen k) - lo) d.nsS (s.bmvOwner c)

/-! ### Words of a burst (R256-R258, R264, R267-R269) -/

/-- A global access of the Block Mover that is refused (R264, R36). -/
def State.bmvRefused (s : State) (a : Nat) (write : Bool) : Bool :=
  match s.kindOf a with
  | .ddr x => decide (s.carve ≤ x) || (s.cdtOn && decide (s.cdtBase ≤ x) && decide (x < s.cdtBase + 2 ^ 24))
  | .frame n _ => s.fenced n || !(s.die n).up
  | .scratch _ => false
  | .time _ => write
  | .ident _ => write
  | .home _ => write
  | _ => true

/-- The word i of a burst's host bytes (R256, R258). -/
def hostWord (d : Desc) (bytes : List Byte) (i : Nat) : Word :=
  let w := fmtBits d.sf
  let x := bitsOf (leAt bytes (i * w / 8) 9) (i * w % 8) w
  if d.sf = 1 ∨ d.sf = 5 then BitVec.ofNat 36 x
  else if d.ext then sextWord w x else BitVec.ofNat 36 x

/-- Bytes [lo, hi) of a burst meet the poisoned ranges. -/
def epHit (ep : List (Nat × Nat)) (lo hi : Nat) : Bool := ep.any (fun r => decide (r.1 < hi) && decide (lo < r.1 + r.2))

/-- A word fits its host width (R257). -/
def fitsHost (d : Desc) (w : Word) : Bool :=
  let b := fmtBits d.df
  if d.df < 2 ∨ 4 < d.df || !d.chk then true
  else if d.ext then decide (fieldOf w (b - 1) (37 - b) = 0 ∨ fieldOf w (b - 1) (37 - b) = 2 ^ (37 - b) - 1)
  else fieldOf w b (36 - b) == 0

/-- The bits that a word takes at a host end (R256). -/
def hostBits (d : Desc) (w : Word) : Nat :=
  if d.df = 1 then w.toNat + (if d.ext && bitOf w.toNat 35 then (2 ^ 28 - 1) * 2 ^ 36 else 0)
  else w.toNat % 2 ^ fmtBits d.df

/-- The running account of a burst's read: the state, the words below the first in error, and that error (R267). -/
structure Bread where
  s : State
  words : List PWord
  err : Option Nat
deriving DecidableEq, Repr

/-- Word i of burst k is read and checked (R264, R267, R268). -/
def Bread.step (d : Desc) (k : Nat) (data : HostData) (a : Bread) (i : Nat) : Bread :=
  if a.err.isSome then a
  else
    let g := 64 * k + i
    let w := fmtBits d.sf
    let lo := i * w / 8
    let hi := (i * w + w + 7) / 8
    let srcBad : Option Nat :=
      if d.sf = 0 then (if a.s.bmvRefused (d.src + g) false then some 0x10 else none)
      else match data.errAt with | some e => if e < hi then some 0x11 else none | none => none
    match srcBad with
    | some c => { a with err := some c }
    | none =>
      let r : State × PWord := if d.sf = 0 then a.s.idleRd 0x17 (d.src + g)
        else (a.s, { v := hostWord d data.bytes i, p := epHit data.ep lo hi })
      if r.2.p && d.sop then { a with s := r.1, err := some 0x13 }
      else if !r.2.p && !fitsHost d r.2.v then { a with s := r.1, err := some 0x12 }
      else { a with s := r.1, words := a.words ++ [r.2] }

/-- The burst whose words a channel reads next: the oldest that it has not read. -/
def Chan.unread (x : Chan) : Option Burst := x.bursts.find? (fun b => b.words.isNone)

/-- The source words of a burst enter its buffer; an error ends the transfer at its word, and the bursts above it are
discarded (R262, R269). -/
def State.bmvRead (s : State) (ch : Nat) (data : HostData) : State :=
  let x := s.chan ch
  match x.unread with
  | none => s
  | some b =>
    let d := descOf x.desc
    let r := (List.range (d.burstLen b.k)).foldl (Bread.step d b.k data) { s := s, words := [], err := none }
    let y := r.s.chan ch
    let full (c : Burst) : Burst := if c.k = b.k then { c with words := some r.words } else c
    match r.err with
    | none => r.s.setChan ch { y with bursts := y.bursts.map full }
    | some c => r.s.setChan ch { y with bursts := (y.bursts.filter (fun c => decide (c.k ≤ b.k))).map full,
                                        err := some (64 * b.k + r.words.length, c) }

/-- The bytes of words at a host end (R256, R258). -/
def destBytes (d : Desc) (ws : List PWord) : List Byte :=
  leBytes (fmtBytes d.df ws.length) ((ws.zipIdx.map (fun p => hostBits d p.1.v * 2 ^ (p.2 * fmtBits d.df))).foldl (· + ·) 0)

/-- A channel's oldest burst goes on by one word, or gives its buffer back when its last write has been issued (R262); none
when it cannot. A word that banks would take out of turn waits (R233). (DEDUCED, log entry 56) -/
def State.bmvStep (s : State) (ch : Nat) : Option State :=
  let x := s.chan ch
  let d := descOf x.desc
  match x.bursts with
  | [] => none
  | b :: rest =>
    match b.words with
    | none => none
    | some ws =>
      if d.df ≠ 0 then
        let s1 := State.hostBytes 512 s (d.dst + fmtBytes d.df (64 * b.k)) (destBytes d ws) d.nsD (s.bmvOwner ch)
        some ((ws.foldl (fun t w => t.chanWord ch w) s1).updChan ch (fun y => { y with bursts := rest }))
      else
        let hs := s.chanHeld ch
        let a := d.dst + 64 * b.k + b.at_
        match ws[b.at_]? with
        | none => if hs.isEmpty then some (s.setChan ch { x with bursts := rest }) else none
        | some w =>
          if s.bmvRefused a true then
            some (s.setChan ch { x with bursts := [{ b with words := some (ws.take b.at_) }],
                                        err := some (64 * b.k + b.at_, 0x10) })
          else if hs.any (fun h => h.addr / 131072 != a / 131072) then none
          else some ((s.setChan ch { x with bursts := { b with at_ := b.at_ + 1 } :: rest }).idleWr a w (some ch))

/-- A channel writes what it can of the bursts that it has read, in order (R262). -/
def State.bmvRun : Nat → State → Nat → State
  | 0, s, _ => s
  | k + 1, s, ch =>
    match s.bmvStep ch with
    | none => s
    | some t => State.bmvRun k t ch

/-- Every channel goes on after held writes have landed. -/
def State.bmvGoOn (s : State) : State := (List.range 32).foldl (fun t ch => State.bmvRun 1100 t ch) s

/-- The burst that a channel reads next reads host memory. -/
def State.bmvHostRead (s : State) (ch : Nat) : Bool := (s.chan ch).unread.isSome && (descOf (s.chan ch).desc).sf != 0

/-- The words of a burst arrive, and are written when their turn comes (R262). (DEDUCED, log entry 56) -/
def State.bmvBurst (s : State) (ch : Nat) (data : HostData) : State :=
  ((if s.bmvHostRead ch then s.noteData data else s).bmvRead ch data).bmvGoOn

/-- A burst's host read gets no completion (R339). -/
def State.bmvBurstLost (s : State) (ch : Nat) : State :=
  if s.bmvHostRead ch then ((s.aer aerTimeout).bmvRead ch HostData.lost).bmvGoOn else s

/-! ### The end of a descriptor (R265, R266, R270) -/

/-- The descriptor of a channel is at its end: every write of the words that it completed has been issued (R262, R265). -/
def State.bmvAtEnd (s : State) (ch : Nat) : Bool :=
  let x := s.chan ch
  x.active && x.running && x.bursts.isEmpty &&
    (x.err.isSome || x.stopping.isSome || x.granted == x.total)

/-- The end status (R267, R270). -/
def Chan.status (x : Chan) : Nat :=
  match x.err with
  | some (_, c) => c
  | none => match x.stopping with | some m => if m then 2 else 1 | none => 0

/-- The completion record (R266). -/
def bmvRec (x : Chan) (ch : Nat) (d : Desc) : List Byte :=
  leBytes 4 d.user ++ leBytes 4 x.doneWords ++ leBytes 1 x.status ++ leBytes 1 (b2n x.poisonAny) ++ leBytes 2 ch ++
    leBytes 4 (x.poisonFirst.getD 0xFFFFFFFF)

/-- The completion token (R265). -/
def State.bmvToken (s : State) (d : Desc) (done code : Nat) : State :=
  (s.bedrockToken { cid := BitVec.ofNat 24 (bitsOf d.tag 0 24), ip := BitVec.ofNat 20 (bitsOf d.tag 24 20),
                    colour := BitVec.ofNat 12 (bitsOf d.tag 44 12), port := BitVec.ofNat 2 (bitsOf d.tag 56 2),
                    cls := BitVec.ofNat 3 (bitsOf d.tag 58 3), pkg := BitVec.ofNat 4 s.ownPkg,
                    val := .clean (BitVec.ofNat 36 (done + min code 3 * 2 ^ 32)) }).getD s

/-- The completion actions in their order, and the next entry or the idle channel (R260, R265, R270). -/
def State.bmvEnd (s : State) (ch : Nat) : State :=
  if !s.bmvAtEnd ch then s
  else
    let x := s.chan ch
    let d := descOf x.desc
    let code := x.status
    let s1 := if d.recEn then s.emit (.hostWrite d.recAddr (bmvRec x ch d) d.nsD (s.bmvOwner ch)) else s
    let s2 := if d.latchEn && code == 0 then (s1.latchRelease d.latch 0x17).1 else s1
    let s3 := if d.tokEn then s2.bmvToken d x.doneWords code else s2
    let s4 := if 0x10 ≤ code then s3.bmvRecord ch x.doneWords else s3
    let more := x.byList && code == 0 && x.stopping.isNone && decide (x.entry + 1 < x.count)
    let s5 := s4.setChan ch (if more then { x with running := false, entry := x.entry + 1, last := 0, err := none }
      else { x.idle with last := code })
    let s6 := if d.msixEn then s5.msi (s.bmvOwner ch) (s.fld (bmvOff ch 0x00) 8 11) else s5
    let s7 := match (if x.byList then none else s6.bmvCmd 0x0200 ch) with
      | some c => s6.reply c 0 code x.doneWords d.user
      | none => s6
    let s8 := if more then s7 else s7.bmvStopped ch 0 code x.doneWords
    match (if more then x.ahead else none) with
    | some e => s8.bmvEntry ch e
    | none => s8

/-- A stop of an active channel (R270). -/
def State.bmvStop (s : State) (ch : Nat) (abort : Bool) : State :=
  let x := s.chan ch
  if !x.running then s.bmvStopAt ch (if abort then 2 else 1)
  else if x.doneWords = (descOf x.desc).n then s.setChan ch { x with stopping := some abort, err := some (x.doneWords, 0) }
  else s.setChan ch { x with stopping := some abort,
                             bursts := if abort then x.bursts.filter (fun b => decide (0 < b.at_)) else x.bursts }

/-- A die's banks drop the writes that they hold for a channel. -/
def Die.dropHeld (ch : Nat) (d : Die) : Die := { d with held := d.held.filter (fun h => h.chan != some ch) }

/-- A channel is ended as by FLR (R271): its bursts are discarded, with no completion action; a command that waits ends
with INTERNAL_ERROR (R354). -/
def State.chanOff (s : State) (ch : Nat) : State :=
  let s1 := ({ s with dies := s.dies.map (Die.dropHeld ch) } : State).setChan ch (s.chan ch).idle
  let s2 := match (if (s.chan ch).active && !(s.chan ch).byList then s1.bmvCmd 0x0200 ch else none) with
    | some c => s1.reply c 0xF0 0 0 0
    | none => s1
  if (s.chan ch).active then s2.bmvStopped ch 0xF0 0 0 else s2

end Sys2Proof.Machine
end

