-- ==== Sys2Proof/Machine/Errors.lean ====
section
/-! DEFINITION. Queue pairs and functions (R343, R349), links and dies that go down (R24, R389), the event log (R409),
and error records with their actions (R388-R395). -/

namespace Sys2Proof.Machine

/-! ### Queue pairs (R349) -/

/-- enable is cleared: queues flushed, deferred commands discarded, replies of begun commands discarded (R349).
(DEDUCED, log entry 57) -/
def State.qpDisable (s : State) (q : Nat) : State :=
  let s1 := (s.siltFlush (192 + q) 2).siltFlush (272 + q) 4
  let s2 := s1.setQueue (272 + q) { s1.queue (272 + q) with inbox := [], drop := .none }
  let other : List Cmd → List Cmd := fun l => l.filter (fun c => c.qp != q)
  let mute : List Cmd → List Cmd := fun l => l.map (fun c => if c.qp = q then { c with mute := true } else c)
  { s2 with ce := { s2.ce with deferred := other s2.ce.deferred, due := other s2.ce.due, begun := mute s2.ce.begun,
                               open_ := mute s2.ce.open_, fenceWait := s2.ce.fenceWait.filter (fun x => x != q) } }

/-- enable is set: empty rings, phase 1 (R349). (DEDUCED, log entry 38) -/
def State.qpEnable (s : State) (q : Nat) : State := s.setQp q Qp.reset

/-- enable is cleared by the device (R343, R389). -/
def State.qpOff (s : State) (q : Nat) : State :=
  if s.qpOn q then (s.setFld (Sys2Proof.Machine.qpOff q 0x14) 0 1 0).qpDisable q else s

/-! ### Function Level Reset (R343) -/

/-- A stop of an armed or running port (R296), whose command began at a time: the run ends at its next tick slot, or, before
the examination of tick 0, in the first slot 16 ns after the command began, without a START. (DEDUCED, log entry 29) -/
def State.requestStop (s : State) (p reason began : Nat) : State :=
  let x := s.port p
  if x.state = .running ∨ (x.state = .armed ∧ x.run.ticks ≠ 0) then
    s.setPort p { x with run := { x.run with stop := some (reason, 0) } }
  else if x.state = .armed then
    (s.dropStart p).updPort p (fun y =>
      { y with run := { y.run with stop := some (reason, slotAt (s.slotLen p) (max (64 * (began + 16)) s.now64)) } })
  else s

/-- A channel's status register returns to its reset value (R455). -/
def State.chanClear (s : State) (c : Nat) : State :=
  (s.setChan c { s.chan c with entry := 0, last := 0 }).setFld (bmvOff c 0x14) 2 1 0

/-- The owned objects of one function end (R343). (DEDUCED, log entry 44) -/
def State.flrOne (s : State) (f : Nat) : State :=
  let s1 := ((List.range 64).filter (fun q => qpFn q == f)).foldl State.qpOff s
  let s2 := ((List.range 32).filter (fun c => s1.bmvOwner c == f)).foldl (fun t c => (t.chanOff c).chanClear c) s1
  let s3 := s2.abandonWhere (fun l => l.req == f ||
    (isFiringReq l.req && (s2.graph l.graph.toNat).state != .free && (s2.graph l.graph.toNat).owner == f))
  let s4 := (s3.graphs.filter (fun p => p.2.state != .free && p.2.owner == f)).foldl (fun t p => t.beginAbort p.1 true []) s3
  ((List.range 16).filter (fun p => s4.pfpOwner p == f)).foldl (fun t p => t.requestStop p 3 t.now) s4

/-- FLR of a function; that of the PF covers every VF and discards the KAO_ commands held (R343). -/
def State.flr (s : State) (f : Nat) : State :=
  if f = 0 then
    let s1 := (List.range 17).foldl State.flrOne s
    let other (l : List Cmd) : List Cmd := l.filter (fun c => fieldOf c.pkt 8 8 != 4)
    { s1 with
      ce := { s1.ce with begun := other s1.ce.begun, open_ := other s1.ce.open_ }
      sealPort := { s1.sealPort with
        waitingR := s1.sealPort.waitingR.filter (fun r => r.cmd.isNone),
        sent := s1.sealPort.sent.map (fun r => { r with cmd := none }) } }
  else s.flrOne f

/-! ### D2D links that go down (R24, R389) -/

/-- A flit that reaches no receiver: a token is a stray, a request or response ends in an error at its requester, a write
or vector word is lost (R36, R48, R389). -/
def State.loseFlit (s : State) (f : BitVec 128) : State :=
  if flitType f = ftToken then s.strayToken
  else if flitType f = ftRdReq then
    (if flitSrc f < 6 then s.wake (flitSrc f) (fun w => w == .mem (flitTxn f)) (some .err) else s)
  else if flitType f = ftRdRsp then
    (if flitDest f < 6 then s.wake (flitDest f) (fun w => w == .mem (flitTxn f)) (some .err) else s)
  else s

/-- The numbered flits that a direction still holds, in sequence order. -/
def LinkDir.flits (x : LinkDir) : List (BitVec 128) := x.replay.map (fun p => p.2) ++ x.outq

/-- The words of a direction's class queue, and the empty queue. -/
def State.takeTokens (s : State) (q : Nat) : State × List SWord :=
  let x := s.queue q
  (s.setQueue q Silt.empty, x.asm ++ x.head ++ x.mid ++ x.tail ++ x.inbox)

/-- The tokens that wait for a direction move to another (R24). -/
def State.moveTokens (s : State) (d e : Nat) : State :=
  (List.range 8).foldl (fun t c =>
    let r := t.takeTokens (d * 8 + c)
    r.1.setQueue (e * 8 + c) { r.1.queue (e * 8 + c) with inbox := (r.1.queue (e * 8 + c)).inbox ++ r.2 }) s

/-- The tokens that wait for a direction are lost. -/
def State.dropTokens (s : State) (d : Nat) : State :=
  (List.range 8).foldl (fun t c =>
    let r := t.takeTokens (d * 8 + c)
    (r.2.filter (fun w => w.eop)).foldl (fun u _ => u.strayToken) r.1) s

/-- One direction of a downed ring link: its flits and tokens go through Bedrock (R24). -/
def State.rerouteDir (s : State) (d : Nat) : State :=
  let x := s.dir d
  let h := hubUp (dirFrom d)
  let s1 := (s.setDir d LinkDir.reset).moveTokens d h
  x.flits.foldl (fun t f => t.queueFlit h f) s1

/-- One direction of a link whose receiving or sending die is down: what it holds is lost (R389). -/
def State.cutDir (s : State) (d : Nat) : State :=
  let x := s.dir d
  x.flits.foldl State.loseFlit ((s.setDir d LinkDir.reset).dropTokens d)

/-- A direction into a downed die: what is bound for the die is lost, the rest goes through Bedrock (R24, R389). -/
def State.leaveDir (s : State) (d n : Nat) : State :=
  if dirFrom d = 6 then s.cutDir d
  else
    let x := s.dir d
    let s1 := (s.setDir d LinkDir.reset).moveTokens d (hubUp (dirFrom d))
    x.flits.foldl (fun t f => if flitDest f = n then t.loseFlit f else t.queueFlit (hubUp (dirFrom d)) f) s1

/-- A link is no longer up. -/
def State.markDown (s : State) (l : Nat) : State := s.setLink l { s.link l with up := false }

/-- A ring link is declared down by the sender of direction d: it stays down until the next start (R24, R43). -/
def State.ringDown (s : State) (d : Nat) : State :=
  let l := d / 2
  let s1 := (s.setLink l { s.link l with up := false, dead := true }).setFld (lnkOff l 0) 3 1 1
  ((s1.rerouteDir (2 * l)).rerouteDir (2 * l + 1)).event 1 (dirFrom d) (lnkOff l 0) 3 l 0

/-! ### A die that goes down (R389) -/

/-- A PARK in progress ends with the die: its command answers INTERNAL_ERROR, and what it has moved stands (R354). Its
report carries outcome 2. (DEDUCED, log entry 60) -/
def State.cutPark (s : State) (g : Nat) : State :=
  match (s.graph g).proc with
  | .park report =>
    let s1 := (s.updGraph g (fun x => { x with proc := .none, moved := none })).writeReport report 2 0
    match s1.openOn 0x0103 g with
    | some c => s1.reply c 0xF0 0 0 0
    | none => s1
  | _ => s

/-- Every graph in RUNNING or PARKED enters FROZEN, each with its record (R389). -/
def State.freezeAll (s : State) : State :=
  (s.graphs.filter (fun p => p.2.state == .running || p.2.state == .parked)).foldl (fun t p =>
    ((t.freeze p.1).graphRec 2 p.1 0).cutPark p.1) s

/-- The writes that a downed die's banks held are lost; a transfer they belong to ends at its first lost word (R267,
R271). -/
def State.loseHeld (s : State) (n : Nat) : State :=
  (s.die n).held.foldl (fun t h =>
    match h.chan with
    | some ch => t.updChan ch (fun x => { x with bursts := [], err := some (x.doneWords, 0x10) })
    | none => t) (s.updDie n (fun d => { d with held := [] }))

/-- What a downed die stops (R389): its PEs, its requests, its links. -/
def State.stopDie (s0 : State) (n : Nat) : State :=
  let s := s0.loseHeld n
  let s1 := s.updDie n (fun d => { d with up := false, firing := [], arr := [], disp := [], change := none,
                                          restartAt := none, stopped := false, boundaryAt := none })
  let s2 := { s1 with
    pes := s1.pes.map (fun p => (p.1, if p.1 / 64 = n then { p.2 with runs := [], heldItems := [] } else p.2)),
    units := s1.units.filter (fun u => match u with
      | .acquire d _ _ _ _ _ => d != n
      | .release d _ _ => d != n
      | .reserve d _ _ => d != n
      | .unreserve _ => true) }
  let ls := [n, 6 + n, 6 + (n + 5) % 6]
  let s3 := ls.foldl State.markDown s2
  (ls.map (fun l => [2 * l, 2 * l + 1])).flatten.foldl (fun t d =>
    if dirFrom d = n then t.cutDir d else t.leaveDir d n) s3

/-- Commands that wait for a bank of a downed die end with INTERNAL_ERROR (R354). -/
def State.endBankWaits (s : State) (n : Nat) : State :=
  (s.ce.open_.filter (fun c => fieldOf c.pkt 0 16 == 0x0202 && decide (lget 0 c.res 0 / 256 = n))).foldl
    (fun t c => t.reply c 0xF0 0 0 0) s

/-- Loam die n goes down (R389). -/
def State.dieDown (s : State) (n : Nat) : State :=
  if (s.die n).up then (((s.stopDie n).abandonWhere (fun l => l.req == 0x11 + n)).freezeAll).endBankWaits n else s

/-! ### The event log (R409) -/

/-- The bytes of an error record (R391). -/
def errBytes (e : ErrRec) : List Byte :=
  leBytes 8 e.r.tb.toNat ++ leBytes 1 e.r.sev ++ leBytes 1 e.r.kind ++ leBytes 1 e.r.src ++
    leBytes 1 (b2n e.esc + (if e.esc then 2 + 4 * e.prior else 0)) ++ leBytes 4 (e.r.off + e.r.lsb * 2 ^ 26) ++
    leBytes 2 e.seq.toNat ++ leBytes 1 e.r.graph ++ leBytes 1 e.r.fn ++ leBytes 4 e.r.d0 ++ leBytes 8 e.r.d1

/-- An entry of the event log (R409). (DEDUCED, log entry 26) -/
def State.logPut (s : State) (ty : Nat) (payload : List Byte) : State :=
  { s with log := tins s.log (s.logNext.toNat % 131072)
             { tb := s.clk.tb, num := s.logNext, ty := ty, start := s.start.number.setWidth 24, payload := payload.take 32 },
           logNext := s.logNext + 1 }

/-- The 64 bytes of a log entry (R409). -/
def logBytes (e : LogEntry) : List Byte :=
  let b := leBytes 8 e.tb.toNat ++ leBytes 4 e.num.toNat ++ leBytes 1 e.ty ++ leBytes 3 e.start.toNat ++
    slice e.payload 0 32 ++ List.replicate 12 0
  b ++ leBytes 4 (crc32 b)

/-! ### Error records (R391-R395) -/

/-- Two records come from one unit (R392, R459). (DEDUCED, log entry 36) -/
def sameUnit (a b : Raise) : Bool :=
  if a.kind = 7 then b.kind == 7 && a.src == b.src && a.d0 == b.d0
  else if a.kind = 5 then b.kind == 5 && a.d0 == b.d0 && a.d1 == b.d1
  else b.kind != 7 && b.kind != 5 && a.off == b.off

/-- The unacknowledged records. -/
def Erq.open (q : Erq) : List ErrRec :=
  (List.range q.pending).filterMap (fun k => tfind q.slots ((q.rd.toNat + k) % 256))

/-- The order of records of one cycle (R393). -/
def raiseBefore (a b : Raise) : Bool :=
  decide (a.src < b.src) || (a.src == b.src && (decide (a.off < b.off) || (a.off == b.off && decide (a.lsb < b.lsb))))

/-- Insertion after every record that is not later: equal records keep their order. -/
def raiseInsert (x : Raise) : List Raise → List Raise
  | [] => [x]
  | y :: ys => if raiseBefore x y then x :: y :: ys else y :: raiseInsert x ys

def raiseSort (l : List Raise) : List Raise := l.foldl (fun a x => raiseInsert x a) []

/-- The Bedrock object that a Die-fatal record stops (R389). -/
inductive Stopped where
  | die (n : Nat)
  | port (p : Nat)
  | pair (q : Nat)
  | chan (c : Nat)
  | graph (g : Nat)
deriving DecidableEq, Repr

def stoppedBy (r : Raise) : Option Stopped :=
  if r.kind = 5 ∨ r.kind = 7 then (if r.src < 6 then some (.die r.src) else none)
  else if r.src < 6 then some (.die r.src)
  else match blockOf r.off with
    | some (b, inst, o) =>
      if b.code = 11 then some (.port (o / 0x80))
      else if b.code = 13 then some (.pair inst)
      else if b.code = 10 ∧ o < 0x800 then some (.chan (o / 0x40))
      else if b.code = 2 ∧ 0x800 ≤ o then some (.graph ((o - 0x800) / 4))
      else if b.code = 3 then some (.die (inst % 6))
      else none
    | none => none

/-- A Package-fatal error (R390). -/
def State.packageFatal (s : State) : State :=
  if s.start.state = 3 then s
  else
    let s1 := { s with start := { s.start with state := 3 } }
    let s2 := (List.range 6).foldl State.dieDown s1
    let s3 := (List.range 16).foldl (fun t p =>
      if (t.port p).state = .armed || (t.port p).state = .running then t.endRun p 8 else t) s2
    ((List.range 32).foldl (fun t c => if (t.chan c).active then t.chanOff c else t) s3).emit (.aer 22)

/-- The action of a queued severity (R388-R390). -/
def State.errAction (s : State) (r : Raise) : State :=
  if r.sev = 3 then
    match stoppedBy r with
    | some (.die n) => s.dieDown n
    | some (.port p) => s.portOff p
    | some (.pair q) => s.qpOff q
    | some (.chan c) => s.chanOff c
    | some (.graph g) => if (s.graph g).state = .free || (s.graph g).state = .aborting then s else s.beginAbort g false []
    | none => s
  else if r.sev = 4 then s.packageFatal
  else s

/-- The severity as queued: escalation (R393), and Package-fatal for a Bedrock unit that names no object (R389).
(DEDUCED, log entry 36) -/
def State.queuedSev (s : State) (r : Raise) : Nat :=
  let m := (s.erq.open.filter (fun e => sameUnit e.r r)).map (fun e => e.r.sev)
  let sev := if m.isEmpty || decide (r.sev < m.foldl max 0) then r.sev else min (r.sev + 1) 4
  if sev = 3 ∧ stoppedBy r = none then 4 else sev

/-- The two replies of a record on an error ring (R367). -/
def State.ringRecord (s : State) (q : Nat) (bs : List Byte) : State :=
  (s.pushReply q (leBytes 4 0 ++ leBytes 4 2 ++ bs.take 24)).pushReply q
    (leBytes 4 0 ++ leBytes 4 3 ++ bs.drop 24 ++ List.replicate 16 0)

/-- The error ring of a function (R367). -/
def State.errRing (s : State) (f : Nat) : Option Nat :=
  (List.range 64).find? (fun q => qpFn q == f && s.qpOn q && s.flag (Sys2Proof.Machine.qpOff q 0x14) 4)

/-- The function whose object a record names, if a VF (R367). -/
def State.recFn (s : State) (r : Raise) : Option Nat :=
  let f := if 1 ≤ r.fn ∧ r.fn ≤ 16 then r.fn
    else if r.graph ≠ 0 then (s.graph r.graph).owner else 0
  if f = 0 then none else some f

/-- A record is written to the log (`logged`: it is there already, R395), delivered to the error rings, stored, and
signalled (R394). -/
def State.storeRec (s : State) (e : ErrRec) (logged : Bool) : State :=
  let bs := errBytes e
  let s1 := if logged then s else s.logPut 1 bs
  let s2 := match s1.errRing 0 with | some q => s1.ringRecord q bs | none => s1
  let s3 := match (s2.recFn e.r).bind s2.errRing with | some q => s2.ringRecord q bs | none => s2
  let s4 := if s3.erq.pending < 256 then
      { s3 with erq := { s3.erq with slots := tins s3.erq.slots s3.erq.wr.toNat e, wr := s3.erq.wr + 1,
                                     pending := s3.erq.pending + 1 } }
    else (s3.setFld (erqOff 0) 9 1 1).bump (erqOff 0xC) 0 32 1
  if s4.flag (erqOff 0x10) 0 && decide (s4.fld (erqOff 0x10) 1 3 ≤ e.r.sev) then s4.msi 0 (s4.fld (erqOff 0x10) 4 11) else s4

/-- One record is queued and its action taken; the records that the action raises stand in `raised` (R393). -/
def State.queueRec (s : State) (r : Raise) (logged : Bool) : State :=
  let sev := s.queuedSev r
  let esc := sev != r.sev
  let e : ErrRec := { r := { r with sev := sev }, esc := esc, prior := if esc then r.sev else 0, seq := s.erq.seq }
  ({ s with erq := { s.erq with seq := s.erq.seq + 1 } }.storeRec e logged).errAction e.r

/-- Records in their order, each followed at once by those its action raises, with its timebase (R393). -/
def State.queueAll : Nat → State → List Raise → State
  | 0, s, _ => { s with raised := [] }
  | _, s, [] => { s with raised := [] }
  | k + 1, s, r :: rest =>
    let t := { s with raised := [] }.queueRec r false
    State.queueAll k t (t.raised.map (fun x => { x with tb := r.tb }) ++ rest)

/-- The records held before step 23 are queued in their order, with the records that their actions raise (R395). -/
def State.queueHeld (s : State) : State :=
  s.erq.heldR.foldl (fun t r =>
    let u := { t with raised := [] }.queueRec r true
    State.queueAll 65536 u (u.raised.map (fun x => { x with tb := r.tb })))
    { s with erq := { s.erq with heldR := [], started := true } }

/-- The records of the step are queued, or held before step 23 of a start (R393, R395). -/
def State.settle (s : State) : State :=
  if s.raised.isEmpty then s
  else
    let rs := raiseSort s.raised
    if s.erq.started then State.queueAll 65536 s rs
    else
      let s1 := rs.foldl (fun t r => t.logPut 1 (errBytes { r := r, esc := false, prior := 0, seq := 0 })) s
      { s1 with erq := { s1.erq with heldR := s1.erq.heldR ++ rs }, raised := [] }

/-- FAULT_N is low in Safe State and fatal hold, and from a thermal trip until a start reaches step 24. -/
def State.faulted (s : State) : Bool := s.start.state == 2 || s.start.state == 3 || s.start.tripped

/-- FAULT_N follows. -/
def State.showFault (s : State) : State :=
  if s.faulted = s.start.faultLow then s
  else { s with start := { s.start with faultLow := s.faulted } }.emit (.pin "FAULT_N" (!s.faulted))

/-- Bytes for a command's host buffer, with the No Snoop attribute of its pair. -/
def State.toHost (s : State) (c : Cmd) (addr : Nat) (bs : List Byte) : State :=
  State.hostBytes (bs.length + 1) s addr bs (s.flag (Sys2Proof.Machine.qpOff c.qp 0x14) 3) c.fn

/-- The ORPHAN_SWEEP that runs goes on; at its end its records and its reply leave (R177-R179). -/
def State.runSweep (s : State) : State :=
  match s.sweep with
  | none => s
  | some w =>
    match s.sweepOn w with
    | (t, false) => t
    | (t, true) =>
      let v := t.sweep.getD w
      ({ t with sweep := none }.toHost w.cmd (fieldOf w.cmd.pkt 192 64) v.listed).reply w.cmd 0 v.found
        (v.listed.length / 16) 0

end Sys2Proof.Machine
end

