-- ==== Sys2Proof/Machine/LinkOps.lean ====
section
/-! DEFINITION. What arrives on the D2D links (R18-R24) and on the Twikel links (R25-R33, R423). -/

namespace Sys2Proof.Machine

/-! ### D2D links: the receiver -/

/-- The other direction of a link. -/
def revDir (d : Nat) : Nat := if d % 2 = 0 then d + 1 else d - 1

/-- An unnumbered flit from the receiver of a direction back to its sender. -/
def State.sendBack (s : State) (d : Nat) (f : BitVec 128) : State :=
  s.setDir (revDir d) ((s.dir (revDir d)).send f)

/-- A buffer of a pool is free: the cumulative count goes back (R21). -/
def State.freePool (s : State) (d pool : Nat) : State :=
  let x := s.dir d
  let c := lget 0 x.freed pool + 1
  (s.setDir d { x with freed := lset x.freed pool c }).sendBack d (creditFlit (dirFrom d) pool c.toNat)

/-- A token received at the end of a direction moves on: to its slice, its next link, the host sink, or a Twikel link.
None when it cannot move (R22, R29, R46). -/
def State.tokenIn (s : State) (d : Nat) (t : Token) (dest : Nat) : Option State :=
  let m := dirTo d
  if m = 6 then
    (if dest = 6 then s.bedrockToken t
     else if (s.die dest).up then some (s.linkToken (hubDown dest) t) else some s.strayToken)
  else if dest = m then some (s.arrive m t)
  else if dest < 6 && !(s.die dest).up then some s.strayToken
  else some (s.linkToken (s.nextHop m dest) t)

/-- A token of this class waits at the receiver already: those behind it in its pool wait too (R29). -/
def LinkDir.waits (x : LinkDir) (cls : BitVec 3) : Bool := x.stuck.any (fun t => t.cls == cls)

/-- A token that waited at a receiver is tried again: it moves on, or it stays behind those of its pool (R29). -/
def State.retryToken (d : Nat) (s : State) (t : Token) : State :=
  let stay := s.setDir d { s.dir d with stuck := (s.dir d).stuck ++ [t] }
  if (s.dir d).waits t.cls then stay
  else match s.tokenIn d t 6 with
    | none => stay
    | some s1 => s1.freePool d t.cls.toNat

/-- The tokens that waited at a receiver are tried again in order, each class up to the first that cannot move (R29). -/
def State.retryStuck (s : State) (d : Nat) : State :=
  (s.dir d).stuck.foldl (State.retryToken d) (s.setDir d { s.dir d with stuck := [] })

/-- The value that a memory read of a global word returns to a firing of a die (R34, R35, R229, R235). -/
def State.serveRead (s : State) (src a : Nat) : State × PWord :=
  match s.kindOf a with
  | .pour _ => (s, PWord.zero)
  | .latch _ => (s, PWord.zero)
  | _ => s.idleRd (0x11 + src) a

/-- A memory write from a link lands (R106, R229, R232). -/
def State.serveWrite (s : State) (a : Nat) (w : PWord) : State :=
  match s.kindOf a with
  | .ddr _ => s.wr a w
  | .frame n off => s.bankWr (n * 256 + off / 131072) a w
  | .scratch off => s.bankWr (0x600 + off / 131072) a w
  | _ => s

/-- A flit that only passes this die goes on (R22). -/
def State.passOn (s : State) (d : Nat) (f : BitVec 128) : State :=
  if flitDest f < 6 && !(s.die (flitDest f)).up then s.loseFlit f
  else s.queueFlit (s.nextHop (dirTo d) (flitDest f)) f

/-- What a good flit does at the end of its direction (R18-R22, R106, R292). (DEDUCED, log entry 31) -/
def State.flitIn (s : State) (d : Nat) (f : BitVec 128) : State :=
  let ty := flitType f
  let here := flitDest f == dirTo d
  if ty = ftToken then
    let t := flitToken f
    match (if (s.dir d).waits t.cls || (here && flitDest f == 6 && s.linkWaits s.ownPkg t) then none
      else s.tokenIn d t (flitDest f)) with
    | some s1 => s1.freePool d t.cls.toNat
    | none => s.setDir d { s.dir d with stuck := (s.dir d).stuck ++ [t] }
  else if ty = ftPour then ((if here then s.pourIn f else s.passOn d f)).freePool d 10
  else if ty = ftRdReq then
    (if here then
      let r := s.serveRead (flitSrc f) (flitAddr f)
      r.1.sendFlit (dirTo d) (memFlit ftRdRsp (flitSrc f) (dirTo d) (flitAddr f) (flitTxn f).toNat r.2 false)
     else s.passOn d f).freePool d 8
  else if ty = ftWr then
    (if here then s.serveWrite (flitAddr f) (flitData f) else s.passOn d f).freePool d 8
  else if ty = ftRdRsp then
    (if here then
      s.wake (dirTo d) (fun w => w == .mem (flitTxn f)) (some (if flitErr f then .err else .word (flitData f)))
     else s.passOn d f).freePool d 9
  else if ty = ftCredit then
    let e := revDir d
    let x := s.dir e
    let p := fieldOf f 16 4
    if p < 11 then (s.setDir e { x with seen := lset x.seen p (BitVec.ofNat 16 (fieldOf f 20 16)) }).pumpDir e else s
  else s

/-- The sender of a direction takes a NAK: the flits from number q on follow those on the wire, which the receiver skips
(R20). -/
def LinkDir.replayFrom (x : LinkDir) (q : BitVec 9) : LinkDir :=
  { x with replays := x.replays + 1,
           skip := if x.discarding && x.skip.isNone then some x.wire.length else x.skip,
           wire := x.wire ++ (x.replay.dropWhile (fun p => p.1 != q)).map (fun p => (some p.1, p.2)) }

/-- A LINK_CTRL flit at the end of a direction (R20): ACK frees, NAK sends again; the sixteenth replay in a row without an
acknowledgement takes the link down (R24). TRAIN_DONE ends training (R17). A NAK that finds nothing to send again counts
as a replay (DEDUCED, log entry 31). -/
def State.ctrlIn (s : State) (d : Nat) (f : BitVec 128) : State :=
  let e := revDir d
  let x := s.dir e
  let q := BitVec.ofNat 9 (fieldOf f 20 9)
  if fieldOf f 16 4 = 0 then
    (if x.replay.any (fun p => p.1 == q) then
      (s.setDir e { x with replay := (x.replay.dropWhile (fun p => p.1 != q)).drop 1, replays := 0 }).pumpDir e
     else s)
  else if fieldOf f 16 4 = 1 then
    let s1 := s.setDir e (x.replayFrom q)
    if 16 ≤ x.replays + 1 then
      (if d / 2 < 6 then (s1.event 3 (d / 2) (lnkOff (d / 2) 0) 3 (d / 2) 0).setFld (lnkOff (d / 2) 0) 3 1 1
       else s1.ringDown e)
    else s1
  else if fieldOf f 16 4 = 2 then s.setDir d { s.dir d with training := false }
  else s

/-- The receiver of a direction takes the next flit: it is inside the stretch that R20 discards, or not. -/
def LinkDir.live (x : LinkDir) : Bool := !x.discarding || x.skip == some 0

/-- A flit of a type at the front of a direction's wire is received, with the bit errors the link added (R19,
R20). (DEDUCED, log entry 31) -/
def State.d2dTake (s : State) (d ty : Nat) (sub : Option Nat) (err : BitVec 128) : State :=
  match (s.dir d).wire with
  | [] => s
  | (num, f0) :: rest =>
    if flitType f0 ≠ ty || (match sub with | some k => fieldOf f0 16 4 != k | none => false) || !s.dirUp d then s
    else
      let f := f0 ^^^ err
      let y := { s.dir d with wire := rest }
      let x := if y.live then { y with discarding := false, skip := none } else { y with skip := y.skip.map (· - 1) }
      let s1 := s.setDir d x
      let l := d / 2
      if !flitOk f then
        ((s1.setDir d { x with discarding := true }).bump (lnkOff l 8) 0 16 1).bump (lnkOff l 8) 16 8 1
          |>.sendBack d (ctrlFlit (dirFrom d) 1 x.expect.toNat)
      else if !y.live then s1
      else
        let bad (t : State) : State := (t.bump (lnkOff l 8) 24 8 1).event 0 (if dirTo d = 6 then 6 else dirTo d) (lnkOff l 8) 24 l 0
        match num with
        | some k =>
          if k ≠ x.expect then s1
          else
            let s2 := s1.setDir d { x with expect := x.expect + 1, sinceAck := x.sinceAck + 1 }
            if flitBad f then (bad s2).freePool d (flitPool f0) else s2.flitIn d f
        | none => if flitBad f then bad s1 else if flitType f = ftCtrl then s1.ctrlIn d f else s1.flitIn d f

/-- The acknowledgement of a direction is due (R20). -/
def State.d2dAck (s : State) (d : Nat) : State :=
  let x := s.dir d
  if x.sinceAck = 0 || !s.dirUp d then s
  else (s.setDir d { x with sinceAck := 0 }).sendBack d (ctrlFlit (dirFrom d) 0 (x.expect - 1).toNat)

/-! ### Twikel links -/

/-- The image of a Blend slot (R414), and its version and floor (R415). -/
def BSlot.bytes (x : BSlot) : List Byte := if x.factory then Config.factoryImage else x.image
def BSlot.ver (x : BSlot) : Nat := leAt x.bytes 32 4 % 2 ^ 24
def BSlot.floor (x : BSlot) : Nat := leAt x.bytes 36 4 % 2 ^ 24

def noSlot : BSlot := { written := false, factory := false, image := [], verified := false, version := 0, rollback := 0 }
def State.bslot (s : State) (k : Nat) : BSlot := lget noSlot s.blend.slots k
def State.activeSlot (s : State) : BSlot := s.bslot s.blend.active

def State.twkUse (s : State) (n : Nat) : Bool := s.flag (twkOff n 0) 0
def State.twkPowered (s : State) (n : Nat) : Bool := (s.dom 67).state == 1 && !bitOf s.start.twikel n

/-- A VERSION frame of this package (R27, R32). -/
def State.sendVersion (s : State) (n : Nat) : State :=
  if (s.twk n).up then
    s.twkQueue n rankTick s.now64 (3 + 0x5A880001 * 2 ^ 32 + s.activeSlot.ver * 2 ^ 64 + s.activeSlot.floor * 2 ^ 96 +
      s.ownPkg * 2 ^ 128 + 2 ^ 136)
  else s

/-- An EPOCH frame after an own boundary, in the first slot at or after its instant (R32). -/
def State.sendEpoch (s : State) (n i : Nat) : State :=
  if (s.twk n).up then s.twkQueue n rankTick (max (64 * i) s.now64) (4 + s.clk.epoch.toNat * 2 ^ 32 + i * 2 ^ 96) else s

/-- The peer lies in the window of a version and a floor (R423). -/
def Twk.within (x : Twk) (ver floor : Nat) : Bool := decide (floor ≤ x.peerVer.toNat) && decide (x.peerFloor.toNat ≤ ver)

/-- compat takes a value; each change queues a record (R423). (DEDUCED, log entry 27) -/
def State.setCompat (s : State) (n : Nat) (c : Bool) : State :=
  let x := s.twk n
  if x.compat = c then s
  else (s.setTwk n { x with compat := c }).event 0 6 (mcOff (0x60 + 8 * n)) 25 n 0

/-- Training fails (R26). -/
def State.twkFail (s : State) (n : Nat) : State :=
  let s1 := (s.bump (twkOff n 8) 24 8 1).event 0 6 (twkOff n 8) 24 n 0
  s1.setTwk n { s1.twk n with fl := { FrameLink.begin s.clk.edges with failedAt := some s.clk.edges } }

/-- The training blocks that this package sends on the lanes of a Twikel link (R26). -/
def State.twkBlocks (s : State) (n : Nat) (ts2 : Bool) : List Nat :=
  let c := if ts2 then s.fld (twkOff n 0) 1 11 else 0
  (List.range 8).map (fun l =>
    lineBlock true (trainBytes [if ts2 then 0xC6 else 0xC5, l, 8, 1, c % 256, c / 256, s.ownPkg]))

/-- The lanes of a Twikel link send training blocks from now on, while they have power. -/
def State.twkSendTrain (s : State) (n : Nat) (ts2 : Bool) : State :=
  if s.twkPowered n then s.emit (.twkTrain n (s.twkBlocks n ts2)) else s

/-- Training begins: every lane sends TS1 (R26). -/
def State.twkTrain (s : State) (n : Nat) : State :=
  (s.setTwk n { s.twk n with up := false, training := true, fl := FrameLink.begin s.clk.edges }).twkSendTrain n false

/-- A Twikel link is trained: credits granted, and VERSION first (R26, R29). -/
def State.twkLinkUp (s : State) (n credits : Nat) (fl : FrameLink) : State :=
  let x := s.twk n
  (s.setTwk n { x with up := true, training := false, credits := List.replicate 8 credits, owed := List.replicate 8 0,
                       peerValid := false, checks := [], verValid := false, compat := false,
                       fl := { FrameLink.reset with
                         lanes := fl.lanes, inverted := fl.inverted, reversed := laneReversed fl.lanes 8 } }).sendVersion n

/-- The zero fields of a Twikel training block (R26). -/
def twkTsZero (blk : Nat) (ts2 : Bool) : Bool :=
  bitsOf blk 11 5 == 0 && bitsOf blk 52 4 == 0 && (ts2 || bitsOf blk 32 16 == 0)

/-- A good TS2 on a lane (R26, R278 items 3 and 4). -/
def State.twkTs2 (s : State) (n lane : Nat) (fl : FrameLink) (blk : Nat) : State :=
  let fl1 := { fl with ts2 := bumpAt fl.ts2 8 lane }
  let s1 := s.setTwk n { s.twk n with fl := fl1 }
  match fl1.ts2Start with
  | none => s1
  | some t => if allAtLeast fl1.ts2 8 8 then (s1.passTs2 t).twkLinkUp n (bitsOf blk 32 16) fl1 else s1

/-- A good TS1 on a lane: after sixteen in a row on every lane the link sends TS2 (R26, R278 item 3). -/
def State.twkTs1 (s : State) (n lane : Nat) (fl : FrameLink) : State :=
  let fl1 := { fl with ts1 := bumpAt fl.ts1 8 lane }
  if allAtLeast fl1.ts1 8 16 && fl1.ts2Start.isNone then
    (s.setTwk n { s.twk n with fl := { fl1 with ts2Start := some s.clk.edges } }).twkSendTrain n true
  else s.setTwk n { s.twk n with fl := fl1 }

/-- The payload of a training block that a locked lane reads (R26). A TS2 whose zero fields are not zero is not
counted. (DEDUCED, log entry 67) -/
def State.twkRead (s : State) (n lane : Nat) (inv : Bool) (blk : Nat) (ts2 : Bool) : State :=
  let x := s.twk n
  let good := blkOk blk && bitsOf blk 0 8 == (if ts2 then 0xC6 else 0xC5)
  if !good || !twkTsZero blk ts2 then
    if !ts2 then s.setTwk n { x with fl := x.fl.badTs1 8 lane } else if !good then s.twkFail n else s
  else
    let fl := x.fl.placeLane 8 lane (bitsOf blk 8 3) inv
    if !laneOrderOk fl.lanes 8 then s.twkFail n
    else if !ts2 then s.twkTs1 n lane fl
    else if bitsOf blk 24 8 ≠ 1 || bitsOf blk 16 8 ≠ 8 then s.twkFail n
    else s.twkTs2 n lane fl blk

/-- A block arrives on a lane of a link that trains (R25, R26). (DEDUCED, log entry 67) -/
def State.twkBlock (s : State) (n lane : Nat) (sync : BitVec 2) (skew blk : Nat) (ts2 : Bool) : State :=
  let x := s.twk n
  if !x.training || x.fl.failedAt.isSome || !s.twkPowered n || !s.twkUse n || decide (8 ≤ lane) then s
  else
    let h := x.fl.header 8 lane sync skew
    if h.2 then s.twkRead n lane (sync == 1) blk ts2
    else if x.fl.locked lane && !ts2 then s.setTwk n { x with fl := x.fl.badTs1 8 lane }
    else s.setTwk n { x with fl := h.1 }

/-- The link goes down: tokens held for it are discarded and counted, credits reset, retraining (R28). (DEDUCED,
log entry 32) -/
def State.twkDown (s : State) (n : Nat) : State :=
  let x := s.twk n
  if !x.up then s
  else
    let s1 := (s.bump (hostOff 0x80) 0 32 x.held).setFld (twkOff n 4) 10 1 1
    let s2 := s1.setTwk n { x with up := false, training := false, fl := FrameLink.reset,
                                   credits := List.replicate 8 0, txBuf := List.replicate 8 [],
                                   owed := List.replicate 8 0, verValid := false, compat := false, checks := [] }
    (if s.twkUse n then s2.twkTrain n else s2).event 1 6 (twkOff n 4) 10 n 0

/-- A RETRY is sent, unless 128 frames are unacknowledged; the sixteenth in a row leaves and takes the link down (R28).
(DEDUCED, log entry 66) -/
def State.twkRetryOut (s : State) (n : Nat) : State :=
  let x := s.twk n
  if 128 ≤ x.fl.replay.length then s.setTwk n { x with fl := x.fl.holdRetry }
  else
    let s1 := (s.setTwk n { x with fl := x.fl.retry s.now64 }).bump (twkOff n 8) 16 8 1
    if 16 ≤ x.fl.retries + 1 then (s1.twkSend n s.now64 (s.now64 + twkSlot)).twkDown n else s1

def State.twkReject (s : State) (n : Nat) : State := if (s.twk n).fl.discarding then s else s.twkRetryOut n

/-- A received token moves on from the receive buffer; none when its transmit buffer is full (R29, R30). (DEDUCED,
log entry 32) -/
def State.twkRoute (s : State) (t : Token) (hops : Nat) : Option State :=
  if t.pkg.toNat = s.ownPkg then
    if t.cid == BitVec.allOnes 24 then some s.strayToken
    else
      let h := s.homeOf t.cid.toNat
      if (s.die h).up then some (s.linkToken (hubDown h) t) else some s.strayToken
  else s.twkOffer t (hops + 1)

/-- A credit of a class becomes pending at a time (R29). -/
def Twk.owe (x : Twk) (now c : Nat) : Twk :=
  { x with owed := lset x.owed c (lget 0 x.owed c + 1), owedAt := if x.owed.all (· == 0) then now else x.owedAt }

/-- Tokens of one class leave the receive buffer in order; each returns a credit (R29). -/
def State.twkUnbuffer : Nat → State → Nat → Nat → State
  | 0, s, _, _ => s
  | k + 1, s, n, c =>
    match lget [] (s.twk n).rxBuf c with
    | [] => s
    | (t, h) :: rest =>
      match s.twkRoute t h with
      | none => s
      | some s1 =>
        State.twkUnbuffer k (s1.setTwk n (({ s1.twk n with rxBuf := lset (s1.twk n).rxBuf c rest } : Twk).owe s1.now64 c)) n c

/-- A receive path holds a token (R29). -/
def State.anyWait (s : State) : Bool :=
  s.tws.any (fun x => x.rxBuf.any (fun l => !l.isEmpty)) || (List.range 6).any (fun i => !(s.dir (hubUp i)).stuck.isEmpty)

/-- Every receive path that waits for a transmit buffer is tried again (R29). -/
def State.twkFlow (s : State) : State :=
  if !s.anyWait then s else
  let s1 := [0, 1].foldl (fun t n => (List.range 8).foldl (fun u c => State.twkUnbuffer 1024 u n c) t) s
  (List.range 6).foldl (fun t i => t.retryStuck (hubUp i)) s1

/-- The payload of a Twikel frame breaks R27 or R28. (DEDUCED, log entry 32) -/
def twkBad (f : Nat) : Bool :=
  let nz (byte lo w : Nat) : Bool := frameBits f byte lo w != 0
  let ty := frameType f
  let cnt := frameBits f 4 0 2
  nz 0 21 11 ||
  (if ty = 0 then nz 0 4 8 || nz 4 0 448
   else if ty = 1 then
     cnt == 0 || nz 4 2 30 || nz 56 0 32 ||
       [0, 1, 2].any (fun k =>
         let b := 8 + 16 * k
         if k < cnt then frameBits f b 56 2 == 3 || nz b 61 3 || nz (b + 8) 44 19 else nz b 0 128)
   else if ty = 2 then nz 20 0 320
   else if ty = 3 then nz 11 0 8 || nz 15 0 8 || nz 16 4 4 || frameBits f 17 0 8 != 1 || nz 18 0 336
   else if ty = 4 then nz 10 0 16 || nz 20 0 320
   else if ty = 5 then nz 0 4 8 || nz 5 0 440
   else true)

/-- The token and hops of a slot of a TOKENS frame (R27). -/
def slotToken (f k : Nat) : Token × Nat :=
  let b := 8 + 16 * k
  ({ cid := BitVec.ofNat 24 (frameBits f b 0 24), ip := BitVec.ofNat 20 (frameBits f b 24 20),
     colour := BitVec.ofNat 12 (frameBits f b 44 12), port := BitVec.ofNat 2 (frameBits f b 56 2),
     cls := BitVec.ofNat 3 (frameBits f b 58 3), pkg := BitVec.ofNat 4 (frameBits f (b + 8) 36 4),
     val := { v := BitVec.ofNat 36 (frameBits f (b + 8) 0 36), p := bitOf (frameBits f (b + 8) 63 1) 0 } },
   frameBits f (b + 8) 40 4)

/-- What a numbered frame taken in order does (R29, R30, R32). -/
def State.twkAct (s : State) (n f : Nat) : State :=
  let ty := frameType f
  let x := s.twk n
  if ty = 1 then
    let rx := (List.range (frameBits f 4 0 2)).foldl (fun b k =>
      let r := slotToken f k
      lset b r.1.cls.toNat (lget [] b r.1.cls.toNat ++ [r])) x.rxBuf
    (s.setTwk n { x with rxBuf := rx }).twkFlow
  else if ty = 2 then
    let cr := (List.range 8).map (fun c => lget 0 x.credits c + frameBits f (4 + 2 * c) 0 16)
    s.setTwk n { x with credits := cr }
  else if ty = 3 then
    let y := { x with peerVer := BitVec.ofNat 24 (frameBits f 8 0 24), peerFloor := BitVec.ofNat 24 (frameBits f 12 0 24),
                      verValid := true }
    let ok := frameBits f 4 0 32 == 0x5A880001 && frameBits f 16 0 4 != s.ownPkg &&
      y.within s.activeSlot.ver s.activeSlot.floor
    (s.setTwk n y).setCompat n ok
  else
    s.setTwk n { x with peerEpoch := BitVec.ofNat 48 (frameBits f 4 0 48), peerValid := true,
                        checks := x.checks ++ [(s.clk.edges + 2000, BitVec.ofNat 64 (frameBits f 12 0 64),
                                                BitVec.ofNat 48 (frameBits f 4 0 48))] }

/-- A frame from the peer of an up link: it acts by its own type field (R28). (DEDUCED, log entry 30) -/
def State.twkReceive (s : State) (n f : Nat) : State :=
  let x := s.twk n
  if !x.up then s
  else if !frameOk 64 f then (s.bump (twkOff n 8) 0 16 1).twkReject n
  else
    let s1 := (s.setTwk n { x with fl := x.fl.takeAck f }).twkFlow
    let ty := frameType f
    let bad := twkBad f
    let s2 := if bad then (s1.bump (twkOff n 8) 24 8 1).event 0 6 (twkOff n 8) 24 n 0 else s1
    if 1 ≤ ty ∧ ty ≤ 4 then
      match (s2.twk n).fl.judge f with
      | .old => s2
      | .gap => s2.twkReject n
      | .inOrder =>
        let s3 := s2.setTwk n { s2.twk n with fl := (s2.twk n).fl.accept s.now64 }
        if bad then s3 else s3.twkAct n f
    else if bad then s2
    else if ty = 5 then s2.setTwk n { s2.twk n with fl := (s2.twk n).fl.again s.now64 (frameBits f 4 0 8) }
    else s2

/-- The check of an EPOCH frame 2 µs after its arrival (R32). -/
def State.twkCheck (s : State) (n : Nat) : State :=
  match (s.twk n).checks with
  | [] => s
  | (due, i, e) :: rest =>
    let s1 := s.passEdges due
    let s2 := s1.setTwk n { s1.twk n with checks := rest }
    let near (b : BitVec 64) : Bool := decide (b.toNat ≤ i.toNat + 1000) && decide (i.toNat ≤ b.toNat + 1000)
    if s2.clk.recent.any (fun p => near p.1 && p.2 == e) then s2
    else (s2.setFld (twkOff n 4) 11 1 1).event 0 6 (twkOff n 4) 11 n 0

end Sys2Proof.Machine
end

