-- ==== Sys2Proof/Machine/Pressure.lean ====
section
/-! DEFINITION. The storage-pressure controller: figures and levels (R206-R208), the credit windows (R211, R212), floors
(R213), deadlock detection and responses (R214-R217), and reservations against the k-bound (R205). -/

namespace Sys2Proof.Machine

/-! ### Figures and levels (R206, R207) -/

/-- Items in the middles of a die's lanes. -/
def State.midItems (s : State) (n : Nat) : Nat :=
  (s.lanes.filter (fun p => p.1 / 512 == n)).foldl (fun k p => k + p.2.mid.length) 0

/-- The figures of a die (R206), with their Silt mark, in figure order. -/
def State.dieFigures (s : State) (n : Nat) : List (Nat × Bool) :=
  let d := s.die n
  [(d.occ / 4096, false), ((d.chainUsed + 32768) / 65536, true), (s.midItems n / 16384, true)]

/-- other_fill (R206). -/
def State.otherFill (s : State) : Nat :=
  s.queues.foldl (fun m p => match siltClass p.1 with
    | some c => max m (p.2.mid.length * 1024 / siltMidCap c)
    | none => m) 0

/-- The figures of the package from the sampled figures of the unfenced dies (R206). -/
def State.pkgFigures (s : State) : List (Nat × Bool) :=
  let u := s.unfenced.length
  let sum (k : Nat) : Nat := s.unfenced.foldl (fun a n => a + lget 0 (s.die n).figs k) 0
  [(sum 0 / (4096 * u), false), ((sum 1 + 32768 * u) / (65536 * u), true), (sum 2 / (16384 * u), true),
   (s.otherFill, true)]

/-- The watermark of a level for a figure whose register is `wm`; none where the level has none. -/
def markOf (wm : Nat) (silt : Bool) (l : Nat) : Option Nat :=
  if l = 4 then (if silt then some 922 else none) else some (bitsOf wm (10 * (l - 1)) 10)

/-- A figure holds a level (R207). -/
def holdsLevel (hyst cur l : Nat) (f : Nat × Bool) (wm : Nat) : Bool :=
  match markOf wm f.2 l with
  | none => false
  | some w => decide (w ≤ f.1) || (decide (l ≤ cur) && decide (w ≤ f.1 + hyst))

/-- The new level (R207): the highest that some figure holds. -/
def newLevel (hyst cur : Nat) (figs : List ((Nat × Bool) × Nat)) : Nat :=
  ([4, 3, 2, 1].find? (fun l => figs.any (fun p => holdsLevel hyst cur l p.1 p.2))).getD 0

def State.hyst (s : State) : Nat := s.fld (tmpOff 0x20) 0 10

/-- A die evaluates its level (R208). -/
def State.evalDie (s : State) (n : Nat) : State :=
  if (s.die n).up then
    let l := newLevel s.hyst (s.die n).level
      ((s.dieFigures n).zipIdx.map (fun p => (p.1, s.reg (tmpOff (4 * p.2)))))
    (s.updDie n (fun d => { d with level := l })).syncCredits n
  else s

/-- Each die samples its figures at a timebase value that is 192 mod 256 (R208). -/
def State.sampleFigures (s0 : State) : State :=
  let s := s0.passMod 256 192
  s.upDies.foldl (fun t n => t.updDie n (fun d => { d with figs := [d.occ, d.chainUsed, t.midItems n] })) s

/-! ### Declared deadlocks (R214-R217, R223) -/

/-- The severity of the record of a response (R217). -/
def responseSev (policy : Nat) : Nat := if policy = 1 then 0 else 2

/-- The policy of a graph is applied (R217), with its report. (DEDUCED, log entry 24) -/
def State.respond (s : State) (kind g region rdie rlane : Nat) : State :=
  let policy := s.fld (tmpOff (0x400 + 4 * g)) 25 2
  let r := s.declare kind g policy region rdie rlane
  let s1 := r.1.graphRec (responseSev policy) g 0
  if (s.graph g).state ≠ .running then r.1.writeReport r.2 2 0
  else if policy = 0 then (s1.freeze g).writeReport r.2 0 0
  else if policy = 1 then s1.beginPark g r.2
  else s1.beginAbort g false r.2

/-- The port's run or its fail records keep a graph alive (R214): it is bound to the graph, or its registered handler is a
context of it. -/
def State.portHolds (s : State) (g p : Nat) : Bool :=
  let lo := s.reg (pfpOff p 0x18)
  (s.pfpGraph p == g || (bitOf lo 28 && (s.hdr (bitsOf lo 0 24)).graph == g)) &&
    ((s.port p).state == .running || decide (0 < (s.queue (256 + p)).stored))

/-- A graph is in quiescence deadlock (R214). (DEDUCED, log entry 24) -/
def State.quiescent (s : State) (g : Nat) : Bool :=
  let x := s.graph g
  x.state == .running && s.unfenced.all (fun n => s.quietOn g n) &&
    s.pes.all (fun p => p.2.runs.all (fun r => r.item.graph.toNat != g)) &&
    (!(s.graphEnts g).isEmpty || !(s.graphRecs g).isEmpty) &&
    s.scanLanes.all (fun p => (p.2.itemsOf g).isEmpty) &&
    (List.range 192).all (fun q => (s.queue q).stored == 0) &&
    (List.range 64).all (fun q => qpFn q != x.owner || (s.queue (192 + q)).stored == 0) &&
    s.chans.all (fun c => !c.active || c.starter != x.owner) &&
    (List.range 16).all (fun p => !s.portHolds g p)

/-- The package level is evaluated at a timebase value that is 0 mod 256, with the test for quiescence deadlock (R208,
R214, R216). -/
def State.evalPackage (s0 : State) : State :=
  let s := s0.passMod 256 0
  let l := newLevel s.hyst s.pkgLevel (s.pkgFigures.zipIdx.map (fun p => (p.1, s.reg (tmpOff (0x10 + 4 * p.2)))))
  let top := s.unfenced.any (fun n => (s.die n).level == 4)
  let s1 := { s with pkgLevel := if top then max l 3 else l }.syncInject
  let gs := (s1.graphs.map (fun p => p.1)).filter s1.quiescent
  gs.foldl (fun t g => t.respond 1 g 0 0xFF 0) s1

/-- Each die applies the package level at a timebase value that is 128 mod 256 (R208). -/
def State.applyPackage (s0 : State) : State :=
  let s := s0.passMod 256 128
  s.upDies.foldl (fun t n => (t.updDie n (fun d => { d with pkgLevel := s.pkgLevel })).syncCredits n) s

/-! ### Credits (R211, R212) and floors (R213) -/

/-- The window of a die ends: each PE refills (R211). -/
def State.refillWindow (s : State) (n : Nat) : State :=
  if (s.die n).up then
    let l := s.effLevel n
    (List.range 64).foldl (fun t k =>
      let x := t.pe (peKey n k)
      t.setPe (peKey n k) { x with cr := creditMap (fun c v => creditRefill (s.budget l c) v) x.cr }) s
  else s

/-- The injection credits refill at a multiple of 1,024 ns (R212). -/
def State.refillInject (s0 : State) : State :=
  let s := s0.passMod 1024 0
  { s with ce := { s.ce with injCr := creditMap (fun c v => creditRefill (s.budget s.pkgLevel c) v) s.ce.injCr } }

/-- A floor has held for more than 1 ms (R213), once per episode. -/
def State.floorHeldFor (s : State) (n c : Nat) : State :=
  match lget none (s.die n).floorSince c with
  | none => s
  | some t =>
    if lget false (s.die n).floorDone c || !(s.die n).up then s
    else
      let s1 := s.passEdges (t + 1000001)
      ((s1.updDie n (fun d => { d with floorDone := lset d.floorDone c true })).setFld (tmpOff 0x28) c 1 1).err 0 3 n
        (tmpOff 0x28) c 0 0x1F c 0

/-! ### Storage deadlock (R215) -/

def regionKey (n : Nat) : Region → Nat
  | .overflow => n * 1024
  | .lane k c => n * 1024 + 1 + k.val * 8 + c.val

/-- The period that runs since a region became full. -/
def State.fullSince (s : State) (n : Nat) : Region → Option (Nat × Nat)
  | .overflow => if (s.die n).regionFull then (s.die n).regionSince else none
  | .lane k c => (s.lane (laneKey n k.val c.val)).fullSince

/-- The RUNNING graphs that hold entries on the die, or items in the lane. -/
def State.candidates (s : State) (n : Nat) (r : Region) : List Nat :=
  ((s.graphs.filter (fun p => p.2.state == .running)).map (fun p => p.1)).filter (fun g =>
    match r with
    | .overflow => (s.graphEnts g).any (fun e => e.1 == n)
    | .lane k c => !((s.lane (laneKey n k.val c.val)).itemsOf g).isEmpty)

/-- The victim: the lowest ceiling class, then the highest handle. -/
def State.victim (s : State) (gs : List Nat) : Option Nat :=
  gs.foldl (fun v g => match v with
    | none => some g
    | some w => if (s.graph g).ceil ≤ (s.graph w).ceil then some g else some w) none

/-- A region has been full for the quiescence period, or for a further one since its last victim (R215). -/
def State.storageDeadlock (s0 : State) (n : Nat) (r : Region) : State :=
  match s0.fullSince n r with
  | none => s0
  | some t =>
    if !(s0.die n).up then s0
    else
      let k := regionKey n r
      let last := match tfind s0.victims k with | some v => if v.1 < t.1 then t else v | none => t
      let s := s0.passCycles n (last.1 + last.2)
      match s.victim (s.candidates n r) with
      | none => s
      | some g =>
        let s1 := { s with victims := tins s.victims k (s.period n) }
        match r with
        | .overflow => s1.respond 2 g 1 n 0
        | .lane p c => s1.respond 2 g 2 n (n * 512 + p.val * 8 + c.val)

/-! ### The k-bound (R205) -/

/-- Bedrock serves the oldest reservation. (DEDUCED, log entry 49) -/
def State.serveReserve (s : State) : State :=
  match takeFirst (fun u => match u with | .reserve _ _ _ => true | _ => false) s.units with
  | some (.reserve n id g, rest) =>
    let bound := s.fld (tmpOff (0x400 + 4 * g)) 0 25
    let ok := bound == 0 || decide ((s.graph g).active < bound)
    let s1 := { s with units := rest }
    (if ok then s1.incActive g else s1).wake n (fun w => w == .unit id) (some (.grant ok))
  | _ => s

/-- Bedrock serves the oldest release of a granted reservation. -/
def State.serveUnreserve (s : State) : State :=
  match takeFirst (fun u => match u with | .unreserve _ => true | _ => false) s.units with
  | some (.unreserve g, rest) => { s with units := rest }.decActive g
  | _ => s

end Sys2Proof.Machine
end

