-- ==== Sys2Proof/Machine/Queues.lean ====
section
/-! DEFINITION. The consumers of the Silt queues (R192-R202), and host token injection (R212, R363). -/

namespace Sys2Proof.Machine

/-! ### Class 1: tokens for a link direction -/

/-- The consumer of a link's token queue starts on a token when its flit can leave (R21, R191). (DEDUCED, log
entry 25) -/
def State.linkReady (s : State) (d c : Nat) : Bool :=
  let x := s.dir d
  s.dirUp d && decide (x.replay.length < 256) &&
    decide ((x.outq.filter (fun f => flitPool f == c)).length < x.credit c)

/-- The token whose first two words have been taken waits: a MEM_WR to the die it goes to still waits for credits in its
direction, and the token must not be matched before that write has been applied (R64 item 2). -/
def State.behindWrite (s : State) (d : Nat) (asm : List SWord) : Bool :=
  asm.length == 2 &&
    (s.dir d).outq.any (fun f => flitType f == ftWr && flitDest f == s.tokenDest (itemToken (asm.map (fun w => w.w))))

/-- One word leaves a class 1 queue; the token's flit leaves with its last word, as R195 lets it (DEDUCED, log
entry 11). -/
def State.popLink (s : State) (q : Nat) : State :=
  let held := (s.queue q).asm
  if (s.queue q).diag || (held.isEmpty && !s.linkReady (q / 8) (q % 8)) || s.behindWrite (q / 8) held then s
  else match s.siltTake q 1 with
    | none => s
    | some (w, s1) =>
      let x := s1.queue q
      let asm := x.asm ++ [w]
      if w.eop then
        match (s1.setQueue q { x with asm := [] }).takeItem q 1 asm with
        | (s2, some ws) => s2.queueFlit (q / 8) (tokenFlit (itemToken ws) (s.tokenDest (itemToken ws)))
        | (s2, none) => s2
      else s1.setQueue q { x with asm := asm }

/-! ### Class 2: host injection (R212) -/

/-- The class of the token at the head of an inject queue, once its second word is visible. -/
def State.headClass (s : State) (q : Nat) : Option Nat :=
  let x := s.queue (192 + q)
  let ws := x.asm ++ x.head.take (x.visible (s.cutThr 2))
  ws[1]?.map (fun w => fieldOf w.w.v 22 3)

/-- The credits of a class let a token be injected. -/
def State.injectOk (s : State) (c : Nat) : Bool :=
  decide (s.budget s.pkgLevel c = 1024) || decide (1 ≤ lget 0 s.ce.injCr c)

/-- A charge of the Command Engine (R212). -/
def State.injectCharge (s : State) (c : Nat) : State :=
  if s.budget s.pkgLevel c = 1024 then s
  else { s with ce := { s.ce with injCr := lset s.ce.injCr c (lget 0 s.ce.injCr c - 1) } }

/-- A pair's inject queue can be served. (DEDUCED, log entry 25) -/
def State.injectable (s : State) (q : Nat) : Bool :=
  !(s.queue (192 + q)).diag && (match s.headClass q with | some c => s.injectOk c | none => false)

/-- The pair that the Command Engine serves: the one whose token it is taking, else the next in turn. -/
def State.injectPick (s : State) : Option Nat :=
  match (List.range 64).find? (fun q => !(s.queue (192 + q)).asm.isEmpty) with
  | some q => some q
  | none =>
    let qs := (List.range 64).filter s.injectable
    match qs.find? (fun q => decide (s.ce.injRr < q)) with
    | some q => some q
    | none => qs.head?

/-- One word leaves an inject queue; with its last word the token leaves and is charged. A token that cannot move on
stays. (DEDUCED, log entry 11) -/
def State.popInject (s : State) (q : Nat) : State :=
  if s.injectPick ≠ some q || (s.queue (192 + q)).diag then s
  else match s.siltTake (192 + q) 2 with
    | none => s
    | some (w, s1) =>
      let x := s1.queue (192 + q)
      let asm := x.asm ++ [w]
      if w.eop then
        match ({ s1.setQueue (192 + q) { x with asm := [] } with ce := { s1.ce with injRr := q } }).takeItem (192 + q) 2 asm with
        | (s2, some ws) =>
          if s2.linkWaits s2.ownPkg (itemToken ws) then s
          else ((s2.injectCharge (itemToken ws).cls.toNat).bedrockToken (itemToken ws)).getD s
        | (s2, none) => s2
      else s1.setQueue (192 + q) { x with asm := asm }

/-- The words that an inject command pushes. -/
def injectWords (c : Cmd) : Nat :=
  if fieldOf c.pkt 0 16 = 0x0101 then 3 * ((bitsSet 3 (fieldOf c.pkt 144 8)).length) else 3 * fieldOf c.pkt 144 16

/-- The open commands of a pair that push tokens, oldest first. -/
def State.injecting (s : State) (q : Nat) : List Cmd :=
  s.ce.open_.filter (fun c => c.qp == q && (fieldOf c.pkt 0 16 == 0x0101 || fieldOf c.pkt 0 16 == 0x0106))

/-- The commands whose last word has been pushed while `left` words wait. -/
def pushedCmds (left : Nat) : List Cmd → List Cmd
  | [] => []
  | c :: cs => if left ≤ cs.foldl (fun n x => n + injectWords x) 0 then c :: pushedCmds left cs else []

/-- Replies follow the last push (R361, R363). -/
def State.injectReplies (s : State) (q : Nat) : State :=
  (pushedCmds (s.queue (192 + q)).inbox.length (s.injecting q)).foldl
    (fun t c => t.reply c 0 (lget 0 c.res 0) (lget 0 c.res 1) 0) s

/-- Tokens enter a pair's inject queue as a command pushes them (R212). -/
def State.injectTokens (s : State) (q : Nat) (ts : List Token) : State :=
  let s1 := ts.foldl (fun t k => t.offer (192 + q) (tokenItem k)) s
  (State.pushAll (s1.queue (192 + q)).inbox.length s1 (192 + q) 2).injectReplies q

/-! ### The commands of a queue -/

/-- The producer of a queue pushes its next word; at a lane, its PE pushes the resume item that it holds (R183).
(DEDUCED, log entry 25) -/
def State.pushRow (s : State) (q : Nat) (env : PushEnv) : State :=
  match siltClass q with
  | some 3 => s.pushFail (q - 256) (fun t => t.siltPush q 3 env)
  | some 2 => (s.siltPush q 2 env).injectReplies (q - 192)
  | some 4 =>
    let s1 := s.siltPush q 4 env
    if 16 ≤ s1.repliesQueued (q - 272) then s1.ringWrite (q - 272) else s1
  | some c => s.siltPush q c env
  | none => match laneOfQueue q with
    | some k => s.retryHeld (k / 512) (k / 8 % 64)
    | none => s

/-- The consumer of a queue pops a word (R192). The pops of a lane are those of its PE's selections. (DEDUCED, log
entry 25) -/
def State.popRow (s : State) (q : Nat) : State :=
  match siltClass q with
  | some 1 => s.popLink q
  | some 2 => s.popInject (q - 192)
  | some 3 =>
    if (s.queue q).diag || s.handlerParked (q - 256) then s
    else match s.siltTake q 3 with
      | some (w, s1) => ((s1.noteLost q w).failWord (q - 256) w).1
      | none => s
  | some 4 => if 16 ≤ s.repliesQueued (q - 272) || !(s.queue q).asm.isEmpty then s.ringWrite (q - 272) else s
  | _ => s

/-- Stored parity changes in the entry that a queue or lane delivers next (R194): bits 1:0 of `e` flip the two parity bits
of a word, and bit j says that word j of a lane's item fails its check. (DESIGN CHOICE, log entry 53) -/
def State.upsetFront (s : State) (q : Nat) (e : BitVec 8) : State :=
  if e = 0 then s
  else match siltClass q with
    | some _ => s.setQueue q ((s.queue q).upset (e.setWidth 2))
    | none => match laneOfQueue q with
      | some k => s.laneUpset (k / 8) (k % 8) e
      | none => s

/-- A block read arrives in the head of a queue or lane (R192). -/
def State.refillRow (s : State) (q : Nat) (lost : List (Fin 32)) : State :=
  match siltClass q with
  | some c => s.siltRefill q c lost
  | none => match laneOfQueue q with
    | some k => s.laneRefill (k / 8) (k % 8) lost
    | none => s

/-- The Drip record (R202, R459). -/
def State.dripRecord (s : State) (q : Nat) : State := s.unreported 4 q (queueSrc q) 0 (queueFn q) 0

/-- The Drip timer of a queue expires (R202). -/
def State.dripRow (s0 : State) (q : Nat) : State :=
  match siltClass q with
  | none => s0
  | some cls =>
    let x := s0.queue q
    match x.drip with
    | none => s0
    | some due =>
      if x.diag || x.dripTaken then s0
      else
        let s1 := s0.passEdges due
        let s := s1.setQueue q { s1.queue q with dripTaken := true }
        let act := s.fld (sqOff (4 * cls)) 6 2
        if act = 0 then s
        else if act = 2 then s.msi 0 (s.fld (sqOff (4 * cls)) 8 11)
        else if act = 3 ∧ cls = 3 then s.failDrip (q - 256)
        else if act = 3 ∧ cls = 4 then s.ringWrite (q - 272)
        else s.dripRecord q

/-- The fail-ingest consumer decides one record (R306); it is stopped in DIAG mode (R201) and while its handler's graph is
PARKED (R222). -/
def State.failRow (s : State) (p : Nat) : State :=
  if (s.queue (256 + p)).diag || s.handlerParked p then s else State.failConsume 4 s p

end Sys2Proof.Machine
end

