-- ==== Sys2Proof/Machine/RegCheck.lean ====
section
/-! DEFINITION. Which fields a Blend or the Persistent Settings Store gives (R11, R454), and which values a register table
refuses (R10). -/

namespace Sys2Proof.Machine

/-! ### Reset terms (R11) -/

/-- The source of a field's reset value: 1 Blend, 2 PSS, 0 neither. -/
def resetTerm (id : RegId) (lsb : Nat) : Nat :=
  match id with
  | .d2dLnkCtrl => if lsb = 0 then 1 else 0
  | .lmBankCtrl => if lsb < 3 then 1 else 0
  | .hmemBankCtrl => if lsb < 3 then 1 else 0
  | .twkCtrl => if lsb = 0 then 2 else 1
  | .epochCfg => if lsb < 2 then 2 else 0
  | .pfpGraph => if lsb = 8 then 2 else 0
  | .lmDispStealThr | .lmDispAge | .sqClsCfg | .sqClsDrip | .tmpWmDie | .tmpWmPkg | .tmpHyst | .tmpClass
  | .lmQuiesceCyc | .pwrGov | .pwrPkgCap | .pwrTherm => 1
  | .fabHomeMap | .fabCdtBase | .lmFreelistBase | .lmIsdBase | .lmIsdCount | .lmMsHashSeedLo | .lmMsHashSeedHi
  | .ltbGrpRights | .bmvChCtrl | .bmvChOwner | .bmvVfwinBase | .bmvVfwinLimit | .pfpOwner | .pfpCfg | .pfpTiming
  | .pfpUnderrun | .pfpBurst | .pfpHandlerLo | .pfpHandlerHi | .hostPkgId | .hostPkgRoute | .erqCtrl => 2
  | _ => 0

/-- A field by its register offset, lsb and width. -/
abbrev FieldAt := Nat × Nat × Nat

/-- The fields of a row of a block whose term satisfies a test, over every instance and index. -/
def rowFields (p : Nat → Bool) (b : BlockRow) (r : RegRow) : List FieldAt :=
  let fs := r.fields.filter (fun f => p (resetTerm r.id f.lsb))
  if fs.isEmpty then []
  else
    ((List.range b.insts).map (fun i => ((List.range r.count).map (fun k =>
      let reserved := r.id = .tmpWmDie && k == 3
      if reserved then [] else fs.map (fun f => (b.base + i * b.stride + r.off + k * r.stride, f.lsb, f.width)))).flatten)).flatten

/-- The fields of the register map whose term satisfies a test. -/
def termFields (p : Nat → Bool) : List FieldAt :=
  (blockRows.map (fun b => ((rowsOfBlock b.code).map (fun r => rowFields p b r)).flatten)).flatten

/-- The fields that a Blend's REG_DEFAULTS gives (R416), and those that the settings store gives (R426). -/
def blendFields : List FieldAt := termFields (fun t => t != 0)
def pssFields : List FieldAt := termFields (fun t => t == 2)

/-- The term of a field at an offset. -/
def termAt (off lsb width : Nat) : Nat :=
  match locate off with
  | some l => if l.row.fields.any (fun f => f.lsb == lsb && f.width == width) then resetTerm l.row.id lsb else 0
  | none => 0

/-! ### Refused values (R10) -/

/-- A value that the table of a register refuses whatever the state; SQ_CLS_DRIP_0 takes zero alone (DEDUCED, log
entry 63). -/
def staticBad (l : Loc) (v : Nat) : Bool :=
  let f (lsb w : Nat) : Nat := bitsOf v lsb w
  let k := l.idx
  match l.row.id with
  | .fabHomeMap => decide (5 < f 0 3)
  | .lmIsdBase => f 0 3 != 0
  | .lmDispStealThr => decide (4096 < f 0 13)
  | .sqClsCfg => k == 0 && f 0 6 != 0
  | .sqClsDrip => k == 0 && v != 0
  | .sqSel => (siltClass (f 0 13)).isNone && (laneOfQueue (f 0 13)).isNone
  | .tmpWmDie => if k = 3 then v != 0 else !(decide (f 0 10 < f 10 10) && decide (f 10 10 < f 20 10) && decide (f 20 10 < 922))
  | .tmpWmPkg => !(decide (f 0 10 < f 10 10) && decide (f 10 10 < f 20 10) && decide (f 20 10 < 922))
  | .tmpClass => decide (f 11 11 < f 0 11) || decide (1024 < f 11 11)
  | .tmpGraph => (k == 0 && v != 0) || f 25 2 == 3
  | .lmQuiesceCyc => decide (v < 4096)
  | .lmBankCtrl => f 0 2 == 3
  | .hmemBankCtrl => f 0 2 == 3
  | .bmvChCtrl => f 3 5 == 0 || decide (16 < f 3 5)
  | .bmvChOwner => decide (16 < f 0 5)
  | .bmvChDbell => f 0 13 == 0 || decide (4096 < f 0 13)
  | .pfpOwner => decide (16 < f 0 5)
  | .pfpCfg => f 1 2 == 3 || (f 1 2 == 1 && k % 2 != 0) || (f 1 2 == 2 && k % 4 != 0)
  | .pfpTiming => decide (f 0 16 < 2)
  | .pfpUnderrun => f 0 2 == 3
  | .pfpBurst => decide (f 0 13 < 16) || decide (4096 < f 0 13) || f 13 10 == 0
  | .pfpHandlerLo => f 0 24 == 0xFFFFFF
  | .qpSize => decide (f 0 4 < 4) || decide (12 < f 0 4) || decide (f 4 4 < 4) || decide (12 < f 4 4)
  | .hostPkgRoute => f 0 2 == 3
  | .twkCtrl => f 1 11 == 0 || decide (1024 < f 1 11)
  | .pwrGov => decide (f 0 5 < 5) || decide (22 < f 8 5) || decide (f 8 5 < f 0 5)
  | .pwrPkgCap => decide (v < 40) || decide (260 < v)
  | .pwrTherm => decide (v < 85) || decide (105 < v)
  | .erqCtrl => decide (4 < f 1 3)
  | .mcRbBurn => f 24 8 != 0xA5
  | _ => false

end Sys2Proof.Machine
end

