-- ==== Sys2Proof/Machine/BlendOps.lean ====
section
/-! DEFINITION. Blends and the Persistent Settings Store (R414-R429): images, verification, the store and its migration,
activation and revert at a boundary, the rollback counter. -/

namespace Sys2Proof.Machine

/-! ### Images (R415-R417) -/

def BSlot.schema (x : BSlot) : Nat := leAt x.bytes 40 2
def BSlot.migFloor (x : BSlot) : Nat := leAt x.bytes 42 2
def BSlot.rollIndex (x : BSlot) : Nat := leAt x.bytes 44 1
/-- The settings fallback policy is REVERT (R415). -/
def BSlot.mandatory (x : BSlot) : Bool := leAt x.bytes 45 1 == 1

/-- A section table entry (R416). -/
structure Sect where
  ty : Nat
  zero : Nat
  off : Nat
  len : Nat
  crc : Nat
deriving DecidableEq, Repr

def sectAt (b : List Byte) (i : Nat) : Sect :=
  let o := 64 + 16 * i
  { ty := leAt b o 2, zero := leAt b (o + 2) 2, off := leAt b (o + 4) 4, len := leAt b (o + 8) 4, crc := leAt b (o + 12) 4 }

def sects (b : List Byte) : List Sect := (List.range (min 5 (leAt b 46 2))).map (sectAt b)

/-- The bytes of the section of a type; empty where the image has none. -/
def sectBytes (b : List Byte) (ty : Nat) : List Byte :=
  match (sects b).find? (fun x => x.ty == ty) with
  | some x => slice b x.off x.len
  | none => []

/-- A register record of 12 bytes (R416). -/
def regRecAt (b : List Byte) (o : Nat) : RegRec :=
  { off := bitsOf (leAt b o 4) 0 26, lsb := bitsOf (leAt b o 4) 26 5, width := leAt b (o + 4) 1, value := leAt b (o + 8) 4 }

def regRecs (b : List Byte) : List RegRec := (List.range (b.length / 12)).map (fun i => regRecAt b (12 * i))

/-- Values of records assembled over a base value of a register. -/
def assemble (recs : List RegRec) (off v : Nat) : Nat :=
  (recs.filter (fun r => r.off == off)).foldl (fun a r => setField a r.lsb r.width r.value) v

/-- A migration entry (R427). -/
structure Mig where
  schema : Nat
  op : Nat
  old : FieldAt
  new : FieldAt
deriving DecidableEq, Repr

def fieldAt (b : List Byte) (o : Nat) : FieldAt := (bitsOf (leAt b o 4) 0 26, bitsOf (leAt b o 4) 26 5, leAt b (o + 4) 1)

def migs (b : List Byte) : List Mig :=
  (List.range (b.length / 16)).map (fun i =>
    { schema := leAt b (16 * i) 2, op := leAt b (16 * i + 2) 1, old := fieldAt b (16 * i + 4), new := fieldAt b (16 * i + 9) })

/-- Every migration entry is well formed (R427). -/
def migsOk (b : List Byte) : Bool :=
  b.length % 16 == 0 && (List.range (b.length / 16)).all (fun i =>
    let o := 16 * i
    let width (k : Nat) : Bool := decide (1 ≤ leAt b k 1) && decide (leAt b k 1 ≤ 32) && leAt b (k - 4) 4 / 2 ^ 31 == 0
    leAt b (o + 3) 1 == 0 && leAt b (o + 14) 2 == 0 && width (o + 8) &&
      ((leAt b (o + 2) 1 == 0 && width (o + 13)) || (leAt b (o + 2) 1 == 1 && allZero (slice b (o + 9) 5))))

/-! ### Verification (R418) -/

/-- The section table is as R416 requires. -/
def sectsOk (b : List Byte) : Bool :=
  let n := leAt b 46 2
  let xs := sects b
  decide (3 ≤ n) && decide (n ≤ 5) &&
    xs.all (fun x => decide (1 ≤ x.ty) && decide (x.ty ≤ 5) && x.zero == 0 && x.off % 8 == 0 &&
      decide (64 + 16 * n ≤ x.off) && decide (x.off + x.len ≤ b.length - 192) && crc32 (slice b x.off x.len) == x.crc) &&
    [1, 2, 3].all (fun t => xs.any (fun x => x.ty == t)) &&
    xs.zipIdx.all (fun p => xs.zipIdx.all (fun q => decide (q.2 ≤ p.2) ||
      (p.1.ty != q.1.ty && (decide (p.1.off + p.1.len ≤ q.1.off) || decide (q.1.off + q.1.len ≤ p.1.off)))))

/-- REG_DEFAULTS holds exactly one record per Blend or PSS field, each value accepted by its table (R418 check 9). -/
def defaultsOk (b : List Byte) : Bool :=
  let recs := regRecs b
  b.length % 12 == 0 && recs.length == blendFields.length &&
    (List.range recs.length).all (fun i => allZero (slice b (12 * i + 5) 3) && leAt b (12 * i + 3) 1 / 128 == 0) &&
    blendFields.all (fun f => (recs.filter (fun r => r.off == f.1 && r.lsb == f.2.1 && r.width == f.2.2)).length == 1) &&
    recs.all (fun r => decide (r.value < 2 ^ r.width) && (match locate r.off with
      | some l => !staticBad l (assemble recs r.off (regDefault r.off))
      | none => false))

/-- Check 2 of R418. -/
def headerOk (b : List Byte) : Bool :=
  leAt b 0 4 == 0xB1E0D5A7 && leAt b 8 4 == 1 && leAt b 12 4 == b.length && leAt b 16 4 / 2 == 0 && leAt b 20 4 == 0 &&
    (leAt b 16 4 == 1 || leAt b 24 8 == 0) && leAt b 35 1 == 0 && leAt b 39 1 == 0 && allZero (slice b 48 16)

/-- The first check of R418 that a slot fails: status and result word 0. The image written at manufacture meets every check
but that of its rollback index (DESIGN CHOICE, log entry 21). -/
def BSlot.failure (x : BSlot) (counter : Nat) : Option (Nat × Nat) :=
  let b := x.bytes
  if !x.written then some (0x12, 1)
  else if x.factory then (if counter = 0 ∨ counter ≤ x.rollIndex then none else some (0x52, 0))
  else if !headerOk b then some (0x12, 2)
  else if leAt b 4 4 ≠ 0x5A880001 then some (0x12, 3)
  else if sha384 (slice b (b.length - 192) 96) ≠ Config.keyHash then some (0x50, 0)
  else if !p384.verify (slice b (b.length - 192) 96) (sha384 (b.take (b.length - 96))) (slice b (b.length - 96) 96) then
    some (0x50, 0)
  else if leAt b 16 4 = 1 ∧ leAt b 24 8 ≠ duid.toNat then some (0x51, 0)
  else if 64 < x.rollIndex ∨ x.rollIndex < counter then some (0x52, 0)
  else if !sectsOk b then some (0x12, 4)
  else if !defaultsOk (sectBytes b 1) then some (0x12, 5)
  else if x.schema < x.migFloor || !migsOk (sectBytes b 5) then some (0x12, 6)
  else none

def State.setBslot (s : State) (k : Nat) (x : BSlot) : State :=
  { s with blend := { s.blend with slots := lset s.blend.slots k x } }

/-- A BLEND entry of the event log (R409). -/
def State.blendLog (s : State) (code slot status : Nat) : State :=
  let x := s.bslot slot
  s.logPut 3 (leBytes 4 (code + slot * 256 + status * 65536) ++ leBytes 4 x.ver ++ leBytes 4 x.floor ++ leBytes 1 x.rollIndex)

/-- An outcome of R422: last_act, the log entry and the record. -/
def State.blendOutcome (s : State) (code : Nat) : State :=
  (({ s with blend := { s.blend with lastAct := code } }.blendLog code s.blend.active 0).event 0 6 (mcOff 0x10) 8 code 0)

/-- A slot is verified (R418): the state, and the failure. -/
def State.verifySlot (s : State) (k : Nat) : State × Option (Nat × Nat) :=
  let x := s.bslot k
  match x.failure s.blend.counter with
  | none =>
    ((s.setBslot k { x with verified := true, version := BitVec.ofNat 24 x.ver, rollback := x.rollIndex }).blendLog 17 k 0, none)
  | some e => ((s.setBslot k { x with verified := false }).blendLog 18 k e.1, some e)

/-! ### The store (R425-R427) -/

/-- The newest valid copy. -/
def Blend.inForce (b : Blend) : Option (Nat × Nat × List RegRec) :=
  match b.pss0, b.pss1 with
  | .good s0 q0 r0, .good s1 q1 r1 => if q0 < q1 then some (s1, q1, r1) else some (s0, q0, r0)
  | .good s0 q0 r0, _ => some (s0, q0, r0)
  | _, .good s1 q1 r1 => some (s1, q1, r1)
  | _, _ => none

def Blend.empty (b : Blend) : Bool := b.pss0 == .zero && b.pss1 == .zero
def Blend.corrupt (b : Blend) : Bool := b.inForce.isNone && !b.empty

/-- One migration entry on the records. -/
def Mig.apply (m : Mig) (recs : List RegRec) : List RegRec :=
  let hit (r : RegRec) : Bool := r.off == m.old.1 && r.lsb == m.old.2.1 && r.width == m.old.2.2
  if m.op = 1 then recs.filter (fun r => !hit r)
  else recs.map (fun r => if hit r then { r with off := m.new.1, lsb := m.new.2.1, width := m.new.2.2 } else r)

/-- Records of a schema brought to another, one schema at a time (R427). -/
def migrate (ms : List Mig) : Nat → Nat → List RegRec → List RegRec
  | 0, _, recs => recs
  | n + 1, f, recs => migrate ms n (f + 1) ((ms.filter (fun m => m.schema == f)).foldl (fun a m => m.apply a) recs)

/-- A record names a PSS field and its value is accepted by the field's table, whatever the other records hold (R427).
(DEDUCED, log entry 28) -/
def recFits (r : RegRec) : Bool :=
  termAt r.off r.lsb r.width == 2 && decide (r.value < 2 ^ r.width) && (match locate r.off with
    | some l => !staticBad l (assemble [r] r.off (regDefault r.off))
    | none => false)

/-- What a read of the store finds under a slot: records and the number ignored, or the last_act code of an unreadable
store (R427, R428). -/
def Blend.read (b : Blend) (x : BSlot) : Except Nat (List RegRec × Nat) :=
  match b.inForce with
  | none => if b.empty then .ok ([], 0) else .error 6
  | some (sch, _, recs) =>
    if sch = x.schema ∨ (x.migFloor ≤ sch ∧ sch ≤ x.schema) then
      let out := migrate (migs (sectBytes x.bytes 5)) (x.schema - sch) sch recs
      .ok (out.filter recFits, (out.filter (fun r => !recFits r)).length)
    else if sch < x.migFloor then .error 4
    else .error 5

/-- A commit (R426): the values in effect of every PSS field, in the copy that is not in force. (DEDUCED, log
entry 28) -/
def State.pssCommit (s : State) : State :=
  let recs := pssFields.map (fun f => ({ off := f.1, lsb := f.2.1, width := f.2.2, value := s.fld f.1 f.2.1 f.2.2 } : RegRec))
  let seq := match s.blend.inForce with | some (_, q, _) => q + 1 | none => 1
  let c := PssCopy.good s.activeSlot.schema seq recs
  let first := match s.blend.pss0, s.blend.pss1 with
    | .good _ q0 _, .good _ q1 _ => decide (q0 < q1)
    | .good _ _ _, _ => false
    | _, _ => true
  let b := if first then { s.blend with pss0 := c } else { s.blend with pss1 := c }
  { s with blend := { b with settingsFb := false } }

/-! ### Staging, activation, revert (R420-R424, R428) -/

def State.otherSlot (s : State) : Nat := 1 - s.blend.active

/-- An activation of a slot would leave a peer of an up link outside its window (R424). -/
def State.compatRefused (s : State) (x : BSlot) : Bool :=
  s.tws.any (fun t => t.up && t.verValid && !t.within x.ver x.floor)

/-- The other slot becomes active at a boundary (R422 steps 2 and 3, R423). -/
def State.switchSlot (s : State) : State :=
  let s1 := { s with blend := { s.blend with active := s.otherSlot, selDue := true } }
  [0, 1].foldl (fun t n =>
    let x := t.twk n
    let u := if x.up && x.verValid && x.compat && !x.within t.activeSlot.ver t.activeSlot.floor then t.setCompat n false else t
    u.sendVersion n) s1

/-- A pending activation meets a boundary (R421, R422). -/
def State.actDue (s : State) (i : Nat) : Bool :=
  match s.blend.act with
  | none => false
  | some (0, _, v) => decide (v.toNat ≤ i)
  | some (_, _, v) => s.clk.epoch.toNat == v.toNat

/-- Activation or revert at a boundary of instant i, after the epoch has advanced (R422, R428). (DEDUCED, log
entry 27) -/
def State.blendBoundary (s : State) (i : Nat) : State :=
  match s.blend.revert with
  | some t =>
    if t.toNat ≤ i then { s with blend := { s.blend with revert := none } }.switchSlot else s
  | none =>
    match s.blend.act with
    | none => s
    | some (_, outcome, _) =>
      if !s.actDue i then s
      else
        let s1 := { s with blend := { s.blend with act := none } }
        if s.compatRefused (s.bslot s.otherSlot) then s1.blendOutcome 2
        else { s1 with blend := { s1.blend with reading := some outcome } }.switchSlot

/-- The selector is written (R422 step 3). -/
def State.selectorWrite (s : State) : State :=
  if s.blend.selDue then
    { s with blend := { s.blend with selDue := false, selSlot := s.blend.active, selSeq := s.blend.selSeq + 1 } }
  else s

/-- The store read after an activation ends (R428). (DEDUCED, log entry 27) -/
def State.pssRead (s : State) : State :=
  match s.blend.reading with
  | none => s
  | some outcome =>
    let s1 := { s with blend := { s.blend with reading := none } }
    match s.blend.read s.activeSlot with
    | .ok (_, ign) => { s1 with blend := { s1.blend with ignored := ign } }.blendOutcome 1
    | .error code =>
      if outcome = 1 ∨ (outcome = 0 ∧ !s.activeSlot.mandatory) then
        { s1 with blend := { s1.blend with settingsFb := true } }.blendOutcome 7
      else { s1 with blend := { s1.blend with revert := some (s.clk.tb + 1000) } }.blendOutcome code

/-- A pending activation or revert is removed (R421, R428): whether there was one. (DEDUCED, log entry 27) -/
def State.blendCancel (s : State) : State × Bool :=
  if s.blend.act.isSome then ({ s with blend := { s.blend with act := none } }.blendOutcome 3, true)
  else if s.blend.revert.isSome then
    ({ s with blend := { s.blend with revert := none, settingsFb := true } }.blendOutcome 3, true)
  else (s, false)

/-- A slot below the counter loses its verified bit (R419). -/
def BSlot.afterBurn (c : Nat) (x : BSlot) : BSlot :=
  if x.written && decide (x.rollIndex < c) then { x with verified := false } else x

/-- One step of a burn ends (R419); after the last, slots below the counter lose their verified bit. -/
def State.burnStep (s : State) : State :=
  match s.blend.burning with
  | none => s
  | some t =>
    let c := s.blend.counter + 1
    if c < t then { s with blend := { s.blend with counter := c } }
    else
      let b := { s.blend with counter := c, burning := none, slots := s.blend.slots.map (BSlot.afterBurn c) }
      { s with blend := b }.blendLog 19 s.blend.active 0

/-- A keyed write of MC_RB_BURN (R419) is refused. -/
def State.burnRefused (s : State) (t : Nat) : Bool :=
  t != s.activeSlot.rollIndex || decide (t ≤ s.blend.counter) || s.blend.revert.isSome

end Sys2Proof.Machine
end

