-- ==== Sys2Proof/Machine/Epoch.lean ====
section
/-! DEFINITION. Epoch boundaries and the timebase (R370-R378), the governor and its loops (R381, R384, R385), and power
domains (R382, R383). -/

namespace Sys2Proof.Machine

/-! ### The governor (R384, R385) -/

def State.govFloor (s : State) (n : Nat) : Nat := s.fld (pwrOff (4 * n)) 0 5
def State.govCeil (s : State) (n : Nat) : Nat := s.fld (pwrOff (4 * n)) 8 5
/-- The software result of a die's limits. -/
def State.govSoft (s : State) (n : Nat) : Nat := max (s.govFloor n) (min (s.govCeil n) s.gov.cap)
/-- f_n (R384). -/
def State.govFreq (s : State) (n : Nat) : Nat := min (s.die n).therm (min s.gov.cur (s.govSoft n))

/-- Die n is clamped (R385). -/
def State.clamped (s : State) (n : Nat) : Bool :=
  decide (s.govFreq n < s.govSoft n) || decide (min (s.govCeil n) s.gov.cap < s.govFloor n)

/-- The frequency that the governor has set for a die: that of its pending change, else the running one. -/
def Die.target (d : Die) : Nat := match d.change with | some (_, f) => f | none => d.freq

/-- The first multiple of 10 ns at least 10 ns ahead (R381). -/
def changeAt (now : Nat) : Nat := (now + 19) / 10 * 10

/-- The governor recomputes f_n of an unfenced die (R384), and tracks its clamp (R385). (DEDUCED, log entry 18) -/
def State.govern (s : State) (n : Nat) : State :=
  if s.fenced n || !(s.die n).up then s
  else
    let f := s.govFreq n
    let c := s.clamped n
    s.updDie n (fun d =>
      { d with change := if d.target = f then d.change else some (BitVec.ofNat 64 (changeAt s.now), f),
               clampSince := if c then some (d.clampSince.getD s.clk.edges) else none,
               clampDone := c && d.clampDone })

def State.governAll (s : State) : State := (List.range 6).foldl State.govern s

/-- The highest f among unfenced dies. -/
def State.topFreq (s : State) : Nat := s.unfenced.foldl (fun m n => max m (s.die n).target) 0

/-- A limit after one evaluation: stepped down from `top`, stepped up after `need` good evaluations, within 5-22. -/
def loopStep (down good : Bool) (need top cur ok : Nat) : Nat × Nat :=
  if down then (max 5 (top - 1), 0)
  else if good then (if need ≤ ok + 1 then (min 22 (cur + 1), 0) else (cur, ok + 1))
  else (cur, 0)

/-- The current loop (R384): IIN in units of 10 mA against 34.2 A, power against VIN x 36 A x 0.9. (DEDUCED, log
entry 18) -/
def State.currentLoop (s : State) : State :=
  let i := s.gov.iin
  let p := s.gov.vin * i
  let down := decide (3420 < i) || decide (s.gov.vin * 3240 < p)
  let good := decide (i * 100 ≤ 3420 * 95) && decide (p * 100 ≤ s.gov.vin * 3240 * 95)
  let r := loopStep down good 100 s.topFreq s.gov.cur s.gov.curOk
  { s with gov := { s.gov with cur := r.1, curOk := r.2 } }.governAll

/-- The cap loop (R384). (DEDUCED, log entry 18) -/
def State.capLoop (s : State) : State :=
  let w := s.fld (pwrOff 0x44) 0 9
  let r := loopStep (decide (w < s.gov.pkgW)) (decide (s.gov.pkgW + 5 < w)) 10 s.topFreq s.gov.cap s.gov.capOk
  { s with gov := { s.gov with cap := r.1, capOk := r.2 } }.governAll

/-- The diodes of a die (6: Bedrock) (R408). -/
def diodesOf (n : Nat) : List Nat := if n < 6 then [3 * n, 3 * n + 1, 3 * n + 2] else [18, 19, 20, 21]

/-- The hottest reading of a die in 1/8 degree, with 5 degrees more in the place of a faulty diode (R408). -/
def State.hottest (s : State) (n : Nat) : Int :=
  let good := (diodesOf n).filter (fun k => !bitOf s.gov.faults k)
  let m := good.foldl (fun a k => max a (tget 0 s.gov.temps k)) (-1024)
  if good.length < (diodesOf n).length then m + 40 else m

/-- The thermal loop (R384): each die's diodes, and Bedrock's for every die. (DEDUCED, log entry 18) -/
def State.thermalLoop (s : State) : State :=
  let t : Int := 8 * (s.fld (pwrOff 0x48) 0 7 : Int)
  let s1 := s.unfenced.foldl (fun u n =>
    let h := max (s.hottest n) (s.hottest 6)
    let r := loopStep (decide (t ≤ h)) (decide (h < t - 24)) 10 (u.die n).therm (u.die n).therm (u.die n).thermOk
    u.updDie n (fun d => { d with therm := r.1, thermOk := r.2 })) s
  s1.governAll

/-- The limit holds the die's frequency (R385). -/
def State.limitHolds (s : State) (n : Nat) : ClampLimit → Bool
  | .therm => decide (s.govFreq n < s.govSoft n) && (s.die n).therm == s.govFreq n
  | .cur => decide (s.govFreq n < s.govSoft n) && s.gov.cur == s.govFreq n
  | .floor => decide (min (s.govCeil n) s.gov.cap < s.govFloor n)

def clampBit (n : Nat) : ClampLimit → Nat
  | .therm => n
  | .cur => 6
  | .floor => 7

/-- A clamp has held for more than 1 ms (R385), once per episode. -/
def State.clampEpisode (s : State) (n : Nat) (l : ClampLimit) : State :=
  match (s.die n).clampSince with
  | none => s
  | some t =>
    if (s.die n).clampDone || !s.limitHolds n l then s
    else
      let s1 := s.passEdges (t + 1000001)
      ((s1.updDie n (fun d => { d with clampDone := true })).setFld (pwrOff 0x50) (clampBit n l) 1 1).err 0 3 6
        (pwrOff 0x50) (clampBit n l) 0 0x1F n 0

/-! ### CK_FAB changes (R381) -/

/-- CK_FAB stops at V: the cycle in progress is not counted. (DEDUCED, log entry 18) -/
def State.fabStop (s : State) (n : Nat) : State :=
  match (s.die n).change with
  | none => s
  | some (v, f) =>
    if (s.die n).stopped then s
    else (s.passUntil v.toNat).updDie n (fun d =>
      { d with stopped := true, change := none, freq := f, fab := d.fab / 10 * 10, restartAt := some (v + 20) })

/-- CK_FAB restarts at V + 20. -/
def State.fabRestart (s : State) (n : Nat) : State :=
  match (s.die n).restartAt with
  | none => s
  | some t => (s.passUntil t.toNat).updDie n (fun d => { d with stopped := false, restartAt := none })

/-! ### Boundaries (R372-R377) -/

/-- A discarded event (R371, R374): counted and recorded, naming its source. -/
def State.mergeEvent (s : State) (src : Nat) : State :=
  (s.bump (epochOff 0x14) 8 8 1).event 0 6 (epochOff 0x14) 8 src 0

/-- PWR_GOV shadows take effect (R375, R376). -/
def State.govShadows (s : State) : State :=
  ((List.range 6).foldl (fun t n => t.applyShadow (pwrOff (4 * n)) (pwrOff (4 * n))) s).governAll

/-- The CK_TB edge of a timebase value. -/
def State.edgeOf (s : State) (i : Nat) : Nat := s.clk.edges + i - s.now

/-- EPOCH_OUT rises at a boundary (R377). -/
def State.epochOut (s : State) (i : Nat) : State :=
  if s.flag (epochOff 0) 1 then
    { s with clk := { s.clk with outHigh := true, outFall := s.edgeOf i + 32 } }.emit (.pin "EPOCH_OUT" true)
  else s

/-- The boundary of instant i from a source (R372, R375). -/
def State.makeBoundary (s : State) (i src : Nat) : State :=
  let c := s.clk
  let clk : Clk := { c with
    epoch := c.epoch + 1, last := BitVec.ofNat 64 i, lastEdge := s.edgeOf i, anyB := true, src := BitVec.ofNat 3 (2 ^ src),
    recent := ((BitVec.ofNat 64 i, c.epoch + 1) :: c.recent).take 32 }
  let at_ := if s.ce.deferred.isEmpty then s.ce.deferAt else some (BitVec.ofNat 64 (i + 40))
  let ce : Engine := { s.ce with due := s.ce.due ++ s.ce.deferred, deferred := [], deferAt := at_ }
  let s1 := { s with clk := clk, ce := ce }
  let s2 := ((s1.epochOut i).govShadows)
  let s3 := (List.range 16).foldl (fun t p => t.portBoundary p i) s2
  let s4 := s3.upDies.foldl (fun t n => t.updDie n (fun d => { d with boundaryAt := some (BitVec.ofNat 64 (i + 32)) })) s3
  let s5 := s4.blendBoundary i
  [0, 1].foldl (fun t n => t.sendEpoch n i) s5

/-- An event whose boundary instant is i (R374): the same boundary, too close to the last one, or a boundary. The distance is
counted in CK_TB edges. -/
def State.boundary (s : State) (i src : Nat) : State :=
  let e := s.edgeOf i
  let l := s.clk.lastEdge
  if s.clk.anyB ∧ e = l then { s with clk := { s.clk with src := s.clk.src ||| BitVec.ofNat 3 (2 ^ src) } }
  else if s.clk.anyB ∧ e < l + 128 ∧ l < e + 128 then s.mergeEvent src
  else s.makeBoundary i src

/-- The pending EPOCH_SCHEDULE value, unless a load has jumped over it (R371, R373). (DESIGN CHOICE, log entry 68) -/
def Clk.schedDue (c : Clk) : Option Nat := if c.jumped then none else c.sched.map BitVec.toNat

/-- The boundary of the pending EPOCH_SCHEDULE value (R373, R374). -/
def State.takeSched (s : State) (t : Nat) : State :=
  { s with clk := { s.clk with sched := none } }.boundary t 1

/-- The instants of EPOCH_IN edges that have come make their boundaries, a pending EPOCH_SCHEDULE value before them first
(R373, R374). -/
def State.pinsDue : Nat → State → State
  | 0, s => s
  | k + 1, s =>
    match s.clk.pins with
    | [] => s
    | i :: rest =>
      if s.now < i.toNat then s
      else
        let s1 := { s with clk := { s.clk with pins := rest } }
        let s2 := match s1.clk.schedDue with
          | some t => if t ≤ i.toNat then s1.takeSched t else s1
          | none => s1
        State.pinsDue k (s2.boundary i.toNat 0)

/-- The EPOCH_IN instants that have come. -/
def State.pinned (s : State) : State := State.pinsDue s.clk.pins.length s

/-- Time passes up to a timebase value that is still ahead, over the EPOCH_IN instants before it. (DESIGN CHOICE,
log entry 5) -/
def State.goUntil (s : State) (t : Nat) : State :=
  ((s.clk.pins.filter (fun i => decide (i.toNat ≤ t))).foldl (fun u i => (u.passUntil i.toNat).pinned) s).passUntil t

/-- The pending EPOCH_SCHEDULE value is reached (R373). -/
def State.scheduled (s : State) : State :=
  match s.clk.schedDue with
  | none => s
  | some t =>
    let s1 := s.goUntil t
    if s1.clk.sched.isSome then s1.takeSched t else s1

/-- A port whose S0 is fixed meets a timebase load: its times move with the timebase, and S0 of trigger 1 is the next slot at
or after T of the loaded timebase (R371, R297). (DESIGN CHOICE, log entry 68) -/
def State.portLoad (s : State) (old new p : Nat) : State :=
  let x := s.port p
  let moved (y : Port) : Port :=
    { y with fl := y.fl.move (64 * old) (64 * new), owedAt := moveTime (64 * old) (64 * new) y.owedAt,
             present := y.present.map (fun w => (w.1, max 1 (moveTime old new w.2))),
             run := { y.run with stop := y.run.stop.map (fun r => (r.1, moveTime (64 * old) (64 * new) r.2)),
                                 boundary := y.run.boundary.map (moveTime old new) } }
  match x.run.s0 with
  | none => s.updPort p moved
  | some t =>
    let t' := if x.run.trigger = 1 then (if new ≤ x.run.trigT then some (slotAt (s.slotLen p) (64 * x.run.trigT)) else none)
      else some (slotAt (s.slotLen p) (moveTime (64 * old) (64 * new) t))
    if x.state = .armed then
      let s1 := ((s.dropStart p).updPort p moved).updPort p (fun y => { y with run := { y.run with s0 := none } })
      match t' with
      | none => s1
      | some u => s1.fixStart p u
    else (s.updPort p moved).updPort p (fun y => { y with run := { y.run with s0 := t' } })

/-- Waits of whole nanoseconds that stand as timebase values move with a load (R371): the dies' boundary cycles, the deferred
commands and CK_FAB changes. (DESIGN CHOICE, log entry 68) -/
def State.timesLoad (s : State) (old new : Nat) : State :=
  let mv (t : BitVec 64) : BitVec 64 := BitVec.ofNat 64 (moveTime old new t.toNat)
  let s1 := (List.range 6).foldl (fun t n => t.updDie n (fun d =>
    { d with boundaryAt := d.boundaryAt.map mv, change := d.change.map (fun c => (mv c.1, c.2)), restartAt := d.restartAt.map mv })) s
  let s2 := [0, 1].foldl (fun t n => t.setTwk n { t.twk n with
    fl := (t.twk n).fl.move (64 * old) (64 * new), owedAt := moveTime (64 * old) (64 * new) (t.twk n).owedAt }) s1
  let s3 := { s2 with ce := { s2.ce with deferAt := s2.ce.deferAt.map mv } }
  (List.range 16).foldl (fun t p => t.portLoad old new p) s3

/-- The pending timebase load takes place (R371); a row that comes after its instant loads the value of that instant. -/
def State.tbLoad (s : State) : State :=
  match s.clk.loadAt with
  | none => s
  | some t =>
    let s0 := s.goUntil t.toNat
    let s1 := match s0.clk.schedDue with
      | some x => if x < t.toNat then s0.takeSched x else s0
      | none => s0
    let old := s1.now
    let v := BitVec.ofNat 64 (s1.reg (epochOff 0x18) + s1.reg (epochOff 0x1C) * 2 ^ 32 + (old - t.toNat))
    let jump := match s1.clk.schedDue with | some x => decide (x < v.toNat) | none => s1.clk.jumped
    { s1 with clk := { s1.clk with loadAt := none, tb := v, jumped := jump } }.timesLoad old v.toNat

/-- The pending load when its instant has come. -/
def State.loadDue (s : State) : State :=
  match s.clk.loadAt with
  | some t => if t.toNat ≤ s.now then s.tbLoad else s
  | none => s

/-- A rising edge on EPOCH_IN (R371, R373); `later`: the first CK_TB edge at or after it is the next one. A boundary follows at
t_e + 64. -/
def State.epochEdge (s0 : State) (later : Bool) : State :=
  if !s0.clk.run then s0
  else
    let s := if later then (s0.loadDue.advance 1).loadDue else s0.loadDue
    let i := BitVec.ofNat 64 (s.now + 64)
    if s.flag (epochOff 0) 2 then { s.setFld (epochOff 0) 2 1 0 with clk := { s.clk with loadAt := some i } }
    else if s.clk.loadAt.isSome then s.mergeEvent 0
    else if s.flag (epochOff 0) 0 then { s with clk := { s.clk with pins := s.clk.pins ++ [i] } }
    else s

/-- A Loam die's boundary cycle (R375); no field of a Loam die is Boundary. -/
def State.dieBoundary (s : State) (n : Nat) : State :=
  match (s.die n).boundaryAt with
  | none => s
  | some t => (s.goUntil t.toNat).updDie n (fun d => { d with boundaryAt := none })

/-- EPOCH_OUT falls (R377). -/
def State.epochOutFall (s : State) : State :=
  if s.clk.outHigh then
    let s1 := s.passEdges s.clk.outFall
    { s1 with clk := { s1.clk with outHigh := false } }.emit (.pin "EPOCH_OUT" false)
  else s

/-- The deferred commands begin at I + 40 (R356, R375), or in D0 after D3hot (R337). -/
def State.deferredBegin (s : State) : State :=
  match (if s.d3hot then none else s.ce.deferAt) with
  | none => s
  | some t =>
    let s1 := (s.goUntil t.toNat).bump (hostOff 0x88) 0 32 s.ce.due.length
    let now := s1.ce.due.map (fun c => { c with beganAt := s1.clk.tb })
    { s1 with ce := { s1.ce with begun := s1.ce.begun ++ now, due := [], deferAt := none } }

/-- A write of 1 to tb_arm is refused (R371). -/
def State.armRefused (s : State) : Bool :=
  s.ports.any (fun p => p.state == .armed || p.state == .running) || s.clk.sched.isSome || s.clk.loadAt.isSome ||
    (match s.blend.act with | some (0, _, _) => true | _ => false)

/-! ### Domains (R382, R383) -/

/-- A domain that software switches (R382). -/
def domSwitched (d : Nat) : Bool :=
  if d < 60 then decide (d % 10 < 8) else (decide (65 ≤ d) && decide (d ≤ 70)) || d == 74

/-- The domain stays off until the next start (R382). -/
def State.domHeldOff (s : State) (d : Nat) : Bool :=
  if d < 60 then s.fenced (d / 10)
  else if d = 65 then bitOf s.start.groups 0 && bitOf s.start.groups 1
  else if d = 66 then bitOf s.start.groups 2 && bitOf s.start.groups 3
  else if d = 67 then (bitOf s.start.twikel 0 && bitOf s.start.twikel 1) || (!s.twkUse 0 && !s.twkUse 1)
  else false

/-- A request to switch a domain is refused (R383). (DEDUCED, log entry 19) -/
def State.domRefused (s : State) (d : Nat) (on : Bool) : Bool :=
  if !domSwitched d then true
  else if on then s.domHeldOff d && (s.dom d).state == 0
  else if d < 60 ∧ d % 10 < 4 then
    s.anyGraph || [0, 1, 2, 3].all (fun j => j == d % 10 || (s.dom (d / 10 * 10 + j)).state != 1)
  else if (d < 60) ∨ d = 68 ∨ d = 69 then bankNumbers.any (fun b => bankDom b == d && (s.bank b).state != 2)
  else if d = 65 ∨ d = 66 then
    (List.range 8).any (fun k => (s.port ((d - 65) * 8 + k)).state != .disabled)
  else if d = 67 then s.tws.any (fun t => t.up)
  else if d = 70 then s.chans.any (fun c => c.active)
  else false

/-- A domain takes its request (R383): it begins to wake or to switch off. (DEDUCED, log entry 19) -/
def State.domFollow (s : State) (d : Nat) : State :=
  let x := s.dom d
  if x.req && x.state == 0 then s.setDom d { x with state := 2 }
  else if !x.req && x.state == 1 then s.setDom d { x with state := 3 }
  else s

/-- A switch completes (R382): the Twikel links in use train after their domain is on. -/
def State.domDone (s : State) (d : Nat) : State :=
  let x := s.dom d
  if x.state = 2 then
    let s1 := s.setDom d { x with state := 1 }
    let s2 := if d = 67 then [0, 1].foldl (fun t n => if t.twkUse n && t.twkPowered n then t.twkTrain n else t) s1 else s1
    s2.domFollow d
  else if x.state = 3 then (s.setDom d { x with state := 0 }).domFollow d
  else s

/-! ### The end of every command -/

/-- The end of every command: EPOCH_IN instants that have come, graph procedures whose firings have ended (R219, R362) and the
sweep, then the error records, then the procedures that an action began (R389). -/
def State.finish (s : State) : State := s.pinned.runProcs.runSweep.settle.runProcs.settle.showFault

/-- One CK_TB edge with no command (DESIGN CHOICE, log entry 4). -/
def tick (s : State) : State := (s.advance 1).finish

/-! ### Commands -/

/-- EPOCH_IN (R373). (DESIGN CHOICE, log entry 5) -/
def execEpochIn (later : Bool) (s : State) : Host.Outcome State Fault Refusal := .next (s.epochEdge later).finish

/-- SCHEDULED_BOUNDARY (R373). -/
def execScheduledBoundary (s : State) : Host.Outcome State Fault Refusal := .next s.scheduled.finish

/-- DIE_BOUNDARY_CYCLE (R375). -/
def execDieBoundaryCycle (die : Fin 6) (s : State) : Host.Outcome State Fault Refusal := .next (s.dieBoundary die.val).finish

/-- EPOCH_OUT_FALL (R377). -/
def execEpochOutFall (s : State) : Host.Outcome State Fault Refusal := .next s.epochOutFall.finish

/-- TIMEBASE_LOAD (R371). -/
def execTimebaseLoad (s : State) : Host.Outcome State Fault Refusal := .next s.tbLoad.finish

/-- DEFERRED_COMMAND_BEGIN (R375). -/
def execDeferredCommandBegin (s : State) : Host.Outcome State Fault Refusal := .next s.deferredBegin.finish

/-- CURRENT_LOOP_EVALUATION (R384). (DESIGN CHOICE, log entry 14) -/
def execCurrentLoopEvaluation (s : State) : Host.Outcome State Fault Refusal := .next s.currentLoop.finish

/-- THERMAL_LOOP_EVALUATION (R384). -/
def execThermalLoopEvaluation (s : State) : Host.Outcome State Fault Refusal := .next s.thermalLoop.finish

/-- CAP_LOOP_EVALUATION (R384). -/
def execCapLoopEvaluation (s : State) : Host.Outcome State Fault Refusal := .next s.capLoop.finish

/-- CK_FAB_STOP (R381). -/
def execCkFabStop (die : Fin 6) (s : State) : Host.Outcome State Fault Refusal := .next (s.fabStop die.val).finish

/-- CK_FAB_RESTART (R381). -/
def execCkFabRestart (die : Fin 6) (s : State) : Host.Outcome State Fault Refusal := .next (s.fabRestart die.val).finish

/-- CLAMP_EPISODE (R385). -/
def execClampEpisode (die : Fin 6) (limit : ClampLimit) (s : State) : Host.Outcome State Fault Refusal :=
  .next (s.clampEpisode die.val limit).finish

/-- DOMAIN_SWITCH_DONE (R382). -/
def execDomainSwitchDone (dom : Fin 80) (s : State) : Host.Outcome State Fault Refusal := .next (s.domDone dom.val).finish

end Sys2Proof.Machine
end

