-- ==== Sys2Proof/Machine/Ports.lean ====
section
/-! DEFINITION. The commands of the Pattern/Fail Ports (R274-R310). -/

namespace Sys2Proof.Machine

/-- Training has taken 10 ms (R278). -/
def State.trainLate (s : State) (p : Nat) : State :=
  let x := s.port p
  if x.state == .training && x.fl.failedAt.isNone && s.pfpPowered p then
    (s.passEdges (x.fl.trainStart + 10000000)).trainFail p
  else s

/-- Training starts again 1 ms after a failure (R278). -/
def State.trainAgain (s : State) (p : Nat) : State :=
  let x := s.port p
  match x.fl.failedAt with
  | none => s
  | some t =>
    if x.state = .training then
      (s.passEdges (t + 1000000)).beginTrain p
    else s

/-- The RETRY repeat timer, 256 slots after the last RETRY (R287 item 4). -/
def State.pfpRetryAgain (s0 : State) (p : Nat) : State :=
  let s := s0.passUntil (((s0.port p).fl.retryAt + 256 * s0.slotLen p + 63) / 64)
  if (s.port p).fl.discarding then s.pfpRetryOut p else s

/-- The acknowledgement limit: an IDLE frame waits for the last slot that keeps it (R287 item 3). -/
def State.pfpIdleOut (s : State) (p : Nat) : State :=
  let d := (s.port p).fl.ackDue (s.slotLen p)
  (s.pfpQueue p rankIdle d 0).passUntil ((d + 63) / 64)

/-- The acknowledgement limit or the RETRY repeat timer (R287). -/
def State.pfpAckRow (s : State) (p : Nat) : State :=
  let x := s.port p
  if !x.active then s
  else if x.fl.discarding then s.pfpRetryAgain p
  else if x.fl.owesAck then s.pfpIdleOut p
  else s

/-- Pending fail credits are returned (R290). (DEDUCED, log entry 30) -/
def State.failCreditRow (s0 : State) (p : Nat) : State :=
  match s0.failCreditAt p with
  | none => s0
  | some d =>
    let s := s0.passUntil (d / 64)
    let x := s.port p
    (s.setPort p { x with owed := 0, farCredits := x.farCredits + x.owed }).pfpQueue p rankCredit (max d s.now64)
      (creditBody 1 x.owed)

/-- The presence clear of a POUR_ARM ends (R296, R297): the port is ARMED, or has left IDLE. (DEDUCED, log entry
29) -/
def State.clearDone (s0 : State) (p : Nat) : State :=
  if !(s0.port p).run.clearing then s0
  else
    let s := s0.passEdges (s0.port p).run.clearEnd
    let x := s.port p
    let r := x.run
    let fail (w : Nat) : State :=
      let s1 := s.setPort p { x with present := [], run := { Run.reset with next := r.next, base := r.base } }
      match s1.pourCmd p (fun m => m == 0) with
      | some c => s1.reply c 0x12 w 0 0
      | none => s1
    if r.clearLost || x.state != .idle then fail 1
    else if r.trigger = 1 ∧ r.trigT < s.now + 16 then fail 0
    else
      let s0' := if r.trigger = 1 then some (slotAt (s.slotLen p) (64 * r.trigT))
        else if r.trigger = 0 ∧ r.prefill = 0 then some (slotAt (s.slotLen p) (s.now64 + 1024))
        else none
      let s2 := s.setPort p { x with state := .armed, present := [], run := { r with clearing := false } }
      let s1 := match s0' with | none => s2 | some t => s2.fixStart p t
      match s1.pourCmd p (fun m => m == 0) with
      | some c => s1.reply c 0 0 0 0
      | none => s1

/-- The port waits for its start: ARMED with S0 fixed and no stop. -/
def Port.startSlot (x : Port) : Option Nat := if x.state == .armed && x.run.stop.isNone then x.run.s0 else none

/-- Slot S0 - 1 of an armed port (R297): CONTROL START, which waits for it, leaves. -/
def State.startRow (s : State) (p : Nat) : State :=
  match (s.port p).startSlot with
  | none => s
  | some t => s.passUntil ((t - s.slotLen p) / 64 + 1)

/-- Slot S0 of an armed port (R297). -/
def State.runRow (s : State) (p : Nat) : State :=
  match (s.port p).startSlot with
  | none => s
  | some t => (s.passUntil ((t + 63) / 64)).runStart p

/-- An armed run ends in its slot (R296, R301). -/
def State.armedEnd (s : State) (p : Nat) : State :=
  let x := s.port p
  match x.run.stop with
  | none => s
  | some (reason, t) => if x.state = .armed then (s.passUntil (t / 64)).endRunIn p reason t else s

/-- The examination of a port's next tick (R299), after the boundaries that port triggers make in its cycle (R304). -/
def State.tickExam (s0 : State) (p : Nat) : State :=
  match s0.nextExam p with
  | none => s0
  | some e =>
    let s := s0.goUntil e
    let own := s.trips p e
    let s1 := if (List.range 16).any (fun q => s.trips q e) then s.boundary e 2 else s
    s1.examine p e (own && s1.clk.anyB && s1.clk.last.toNat == e)

/-- PFP_TS1 (R278). -/
def execPfpTs1 (port : Fin 16) (lane : Fin 16) (head : BlockHead) (blk : BitVec 64) (s : State) :
    Host.Outcome State Fault Refusal :=
  .next (s.trainBlock port.val lane.val head.sync head.skew blk.toNat false).finish

/-- PFP_TS2 (R278). -/
def execPfpTs2 (port : Fin 16) (lane : Fin 16) (head : BlockHead) (blk : BitVec 64) (s : State) :
    Host.Outcome State Fault Refusal :=
  .next (s.trainBlock port.val lane.val head.sync head.skew blk.toNat true).finish

/-- TRAINING_TIMEOUT (R278). -/
def execTrainingTimeout (port : Fin 16) (s : State) : Host.Outcome State Fault Refusal := .next (s.trainLate port.val).finish

/-- TRAINING_RESTART (R278). -/
def execTrainingRestart (port : Fin 16) (s : State) : Host.Outcome State Fault Refusal := .next (s.trainAgain port.val).finish

/-- FAIL (R305). -/
def execFail (port : Fin 16) (frame : BitVec 256) (s : State) : Host.Outcome State Fault Refusal :=
  .next (s.pfpReceive port.val frame.toNat).finish

/-- PFP_CREDIT (R289). -/
def execPfpCredit (port : Fin 16) (frame : BitVec 256) (s : State) : Host.Outcome State Fault Refusal :=
  .next (s.pfpReceive port.val frame.toNat).finish

/-- PFP_RETRY (R287). -/
def execPfpRetry (port : Fin 16) (frame : BitVec 256) (s : State) : Host.Outcome State Fault Refusal :=
  .next (s.pfpReceive port.val frame.toNat).finish

/-- PFP_IDLE (R285). -/
def execPfpIdle (port : Fin 16) (frame : BitVec 256) (s : State) : Host.Outcome State Fault Refusal :=
  .next (s.pfpReceive port.val frame.toNat).finish

/-- PFP_ACK_DUE (R287). -/
def execPfpAckDue (port : Fin 16) (s : State) : Host.Outcome State Fault Refusal := .next (s.pfpAckRow port.val).finish

/-- FAIL_CREDIT_DUE (R290). -/
def execFailCreditDue (port : Fin 16) (s : State) : Host.Outcome State Fault Refusal := .next (s.failCreditRow port.val).finish

/-- PFP_LINK_DOWN (R288). -/
def execPfpLinkDown (port : Fin 16) (s : State) : Host.Outcome State Fault Refusal :=
  .next (if (s.port port.val).active then s.pfpDown port.val else s).finish

/-- PRESENCE_CLEAR_DONE (R296). -/
def execPresenceClearDone (port : Fin 16) (s : State) : Host.Outcome State Fault Refusal := .next (s.clearDone port.val).finish

/-- CONTROL_START (R297). -/
def execControlStart (port : Fin 16) (s : State) : Host.Outcome State Fault Refusal := .next (s.startRow port.val).finish

/-- RUN_START (R297). -/
def execRunStart (port : Fin 16) (s : State) : Host.Outcome State Fault Refusal := .next (s.runRow port.val).finish

/-- TICK_EXAMINATION (R299). (DESIGN CHOICE, log entry 5) -/
def execTickExamination (port : Fin 16) (s : State) : Host.Outcome State Fault Refusal := .next (s.tickExam port.val).finish

/-- ARMED_RUN_END (R296). -/
def execArmedRunEnd (port : Fin 16) (s : State) : Host.Outcome State Fault Refusal := .next (s.armedEnd port.val).finish

end Sys2Proof.Machine
end

