-- ==== Sys2Proof/Machine/Stores.lean ====
section
/-! DEFINITION. The Latch Bank's service and its host window (R243-R249), bank power requests (R226-R230, R364), write
buffers and held writes (R234, R235), and the end of a pool build (R61). -/

namespace Sys2Proof.Machine

/-! ### Latches -/

/-- The Latch Bank serves the oldest acquire of a group, and its reply reaches the firing (R125, R244). -/
def State.serveAcquire (s : State) (g : Nat) : State :=
  match takeFirst (fun u => match u with | .acquire _ _ k _ _ _ => k / 64 == g | _ => false) s.units with
  | some (.acquire n id k cid gr cls, rest) =>
    let r := { s with units := rest }.latchAcquire k (0x11 + n) cid.toNat gr.toNat cls.toNat
    r.1.wake n (fun w => w == .unit id) (some (.latch r.2))
  | _ => s

/-- The Latch Bank serves the oldest release of a group (R126, R245). -/
def State.serveRelease (s : State) (g : Nat) : State :=
  match takeFirst (fun u => match u with | .release _ _ k => k / 64 == g | _ => false) s.units with
  | some (.release n id k, rest) =>
    let r := { s with units := rest }.latchRelease k (0x11 + n)
    r.1.wake n (fun w => w == .unit id) (some (.latch r.2))
  | _ => s

/-! ### Banks -/

/-- The register that reports on a bank (R250, R251). -/
def bankReg (b : Nat) : Nat := if b < 0x600 then lmOff (b / 256) (0x1000 + 4 * (b % 256)) else hmemOff (4 * (b - 0x600))

/-- A set of a Matching Store bank that R230 protects. -/
def MsSet.live (x : MsSet) : Bool := x.ovf || x.ways.any (fun w => w.valid)

/-- A bank holds something that R230 protects from a request. -/
def State.bankBusy (s : State) (b req : Nat) : Bool :=
  match bankKind b with
  | some .match =>
    (s.die (b / 256)).sweeping ||
      s.sets.any (fun p => p.1 / 262144 == b / 256 && p.1 % 64 == b % 256 - 80 && p.2.live)
  | some .istore =>
    let lo := (b % 256 - 64) * 65536
    req == 2 && s.graphs.any (fun p => p.2.state != .free && decide (p.2.base < lo + 65536) &&
      decide (lo < p.2.base + p.2.slots))
  | some .pour => (s.port (b - 0x620)).state == .armed || (s.port (b - 0x620)).state == .running
  | _ => false

/-- A request that is refused: the status that a command answers (R230, R364). (DEDUCED, log entry 19) -/
def State.bankRefused (s : State) (b req : Nat) : Option Nat :=
  if req = 0 then none
  else if s.bankBusy b req then some 0x30
  else if req = 1 ∧ s.bankState b = 2 then some 0x12
  else none

/-- A bank moves toward its request (R228). (DEDUCED, log entry 19) -/
def State.bankFollow (s : State) (b : Nat) : State :=
  let x := s.bank b
  if x.target.isSome || x.req == s.bankState b then s
  else if x.req = 0 then
    (if s.bankState b = 2 then s.beginWake b else s.setBank b { x with state := 3, target := some 0 })
  else if s.bankState b = 2 then s
  else s.setBank b { x with target := some x.req }

/-- A request for a bank (R228). (DEDUCED, log entry 19) -/
def State.bankAsk (s : State) (b req : Nat) : State := (s.setBank b { s.bank b with req := req }).bankFollow b

/-- The replies of BANK_POWER commands whose bank has reached their state (R364). -/
def State.bankReplies (s : State) (b : Nat) : State :=
  (s.ce.open_.filter (fun c => fieldOf c.pkt 0 16 == 0x0202 && lget 0 c.res 0 == b &&
    lget 0 c.res 1 == s.bankState b)).foldl (fun t c => t.reply c 0 (s.bankState b) 0 0) s

/-- Firings whose access waits for a bank go on (R229). -/
def State.bankWoken (s : State) (b : Nat) : State :=
  (List.range 6).foldl (fun t n => t.wake n (fun w => w == .bank b) none) s

/-- A bank completes its transition (R228), and the request held meanwhile applies. -/
def State.bankDone (s : State) (b : Nat) : State :=
  match (s.bank b).target with
  | none => s
  | some t =>
    let s1 := s.enterBank b t
    let s2 := if t = 0 then s1.bankWoken b else s1
    (s2.bankReplies b).bankFollow b

/-! ### Write buffers and held writes -/

/-- The oldest entry of a PE's write buffer drains, unless an older write to its word waits in another (R235). -/
def State.drainRow (s : State) (n k : Nat) : State :=
  let buf := (s.die n).wbuf
  let pre := buf.takeWhile (fun b => b.pe != k)
  match buf.drop pre.length with
  | [] => s
  | b :: rest =>
    if pre.any (fun x => x.addr == b.addr) then s
    else
      (s.updDie n (fun d => { d with wbuf := pre ++ rest })).drainWr n b

/-- A write of LM_ISD_COUNT rebuilds the deferral pool (R61). -/
def Die.buildPool (count : Nat) (d : Die) : Die :=
  { d with isdRet := [], isdFresh := 0, isdTotal := count, building := true, buildFrom := d.cycles }

/-- The build of the deferral pool ends, one record per CK_FAB cycle (R61). -/
def State.builtPool (s : State) (n : Nat) : State :=
  let d := s.die n
  if d.building then (s.passCycles n (d.buildFrom + d.isdTotal)).updDie n (fun x => { x with building := false }) else s

/-! ### Commands -/

/-- LATCH_ACQUIRE (R244). -/
def execLatchAcquire (group : Fin 64) (s : State) : Host.Outcome State Fault Refusal :=
  .next (s.serveAcquire group.val).finish

/-- LATCH_RELEASE (R245). -/
def execLatchRelease (group : Fin 64) (s : State) : Host.Outcome State Fault Refusal :=
  .next (s.serveRelease group.val).finish

/-- LIFT_MESSAGE (R247). -/
def execLiftMessage (die : Fin 6) (s : State) : Host.Outcome State Fault Refusal :=
  .next (s.updDie die.val Die.applyLift).finish

/-- BANK_TRANSITION_DONE (R228). -/
def execBankTransitionDone (bank : Nat) (s : State) : Host.Outcome State Fault Refusal :=
  .next (s.bankDone bank).finish

/-- WRITE_BUFFER_DRAIN (R235). -/
def execWriteBufferDrain (die : Fin 6) (pe : Fin 64) (s : State) : Host.Outcome State Fault Refusal :=
  .next (s.drainRow die.val pe.val).finish

/-- HELD_WRITE_LAND (R234): held writes land, and the bursts that waited for them go on (R262). -/
def execHeldWriteLand (die : Fin 6) (s : State) : Host.Outcome State Fault Refusal :=
  .next (s.landHeld die.val).bmvGoOn.finish

/-- ISD_BUILD_DONE (R61). -/
def execIsdBuildDone (die : Fin 6) (s : State) : Host.Outcome State Fault Refusal :=
  .next (s.builtPool die.val).finish

end Sys2Proof.Machine
end

