-- ==== Sys2Proof/Machine/Start.lean ====
section
/-! DEFINITION. The start sequence, its ledger and its decisions (R396-R402), the supplies (R433, R434), thermal trip and
recovery (R390, R442), and the repair of banks (R239-R241). -/

namespace Sys2Proof.Machine

/-! ### The decisions of step 3 (R398) -/

/-- Masks of the resources that a start fences, and of those that use a conservative set. -/
structure Plan where
  dies : Nat
  hubCons : Nat
  ring : Nat
  ringCons : Nat
  ddr : Nat
  ddrCons : Nat
  groups : Nat
  twikel : Nat
deriving DecidableEq, Repr

def Plan.full : Plan :=
  { dies := 0, hubCons := 0, ring := 0, ringCons := 0, ddr := 0, ddrCons := 0, groups := 0, twikel := 0 }

/-- The mask of the low w bits of a that are not in b. -/
def without (w a b : Nat) : Nat := maskOf w (fun i => bitOf a i && !bitOf b i)

/-- The decisions that follow from the previous entry (R398). -/
def Plan.after (p : LedgerEntry) : Plan :=
  let hubC := bitsOf p.cons 0 6
  let ringC := bitsOf p.cons 6 6
  let ddrC := bitsOf p.cons 12 8
  let dies := p.dieFen ||| without 6 p.dieFail p.hubFail ||| (p.hubFail &&& hubC) ||| bitsOf p.post 0 6
  let ring := p.ringFen ||| (p.ringFail &&& ringC)
  let ddr := p.ddrFen ||| (p.ddrFail &&& ddrC) ||| bitsOf p.post 6 8
  { dies := dies, hubCons := without 6 (p.hubFail ||| hubC) dies, ring := ring,
    ringCons := without 6 (p.ringFail ||| ringC) ring, ddr := ddr, ddrCons := without 8 (p.ddrFail ||| ddrC) ddr,
    groups := p.grpFen ||| p.grpFail, twikel := p.twkFen ||| p.twkFail }

/-- The ledger slot of an entry: entries rotate from slot 0 (R401). (PRESUMED, log entry 15) -/
def LedgerEntry.slot (e : LedgerEntry) : Nat := (e.number.toNat + 15) % 16

/-- Entries whose CRC fails are skipped from now on, each with an Advisory record (R398, R459). -/
def State.skipEntries (s : State) (bad : BitVec 16) : State :=
  let isBad (e : LedgerEntry) : Bool := bad.toNat.testBit e.slot
  let x := s.start
  let good := x.ledger.filter (fun e => !isBad e)
  { (x.ledger.filter isBad).foldl (fun t e => t.unreported 7 e.slot 6 0 0x1F 0) s with
    start := { x with ledger := good, sinceClear := ((x.ledger.take x.sinceClear).filter (fun e => !isBad e)).length } }

/-- The previous entry: the newest one since the newest clear marker (R398). -/
def Start.previous (x : Start) : Option LedgerEntry := if x.sinceClear = 0 then none else x.ledger.head?

def Start.plan (x : Start) : Plan := match x.previous with | some p => Plan.after p | none => Plan.full

/-! ### Before and after a start -/

/-- A power domain that stays while Bedrock is off: PD60 while VSTBY is good, and Kaolin's domains (R382, R434). -/
def keepsPower (d : Nat) : Bool := d == 60 || decide (75 ≤ d)

/-- What a start, or the loss of the supplies, leaves: PD60 and the Kaolin domains, eMRAM, fuses, Kaolin, the sensors and the out-of-band endpoint are
kept; with the PCI Express link kept, its MSI-X tables and power state too (R403). -/
def State.cold (s : State) (keepLink : Bool) : State :=
  { State.reset with
    pending := s.pending, doms := s.doms.filter (fun p => keepsPower p.1), kao := s.kao, log := s.log, logNext := s.logNext, repairs := s.repairs, oob := s.oob,
    spdm := { Spdm.reset with rnd := s.spdm.rnd }, raised := s.raised, outbox := s.outbox, draws := s.draws,
    ce := { Engine.reset with nextId := s.ce.nextId },
    gov := { s.gov with cur := 22, cap := 22, curOk := 0, capOk := 0 },
    start := { s.start with state := 0, step := 1, degraded := false, due := none, retry := false, dies := 0, ddr := 0,
                            groups := 0, twikel := 0, ring := 0, active := [], capacity := 0 },
    blend := { s.blend with active := s.blend.selSlot, selDue := false, settingsFb := false, slotFb := false, act := none,
                            reading := none, revert := none, lastAct := 0, burning := none, ignored := 0,
                            slots := s.blend.slots.map (fun x => { x with verified := false }) },
    msix := if keepLink then s.msix else State.reset.msix, cfg := if keepLink then s.cfg else Pci.reset,
    d3hot := keepLink && s.d3hot, pcieUp := keepLink && s.pcieUp }

/-- Every domain but PD60 and the Kaolin domains is off (R390, R433, R434). -/
def State.domainsOff (s : State) : State :=
  let s1 := { s with doms := s.doms.filter (fun p => keepsPower p.1), clk := { s.clk with run := false }, pcieUp := false,
                     sealPort := { s.sealPort with up := false } }
  { s1 with tws := List.replicate 2 Twk.reset,
            ports := s1.ports.map (fun p => { p with state := .disabled, fl := FrameLink.reset }) }

/-- A domain is switched on by a start. -/
def State.domsOn (s : State) (ds : List Nat) : State :=
  ds.foldl (fun t d => t.setDom d { state := 1, req := true }) s

/-! ### Steps 4 and 5: the Blend and its store (R429) -/

/-- A slot becomes active and its selector is written. -/
def State.useSlot (s : State) (k : Nat) : State :=
  { s with blend := { s.blend with active := k, selSlot := k, selSeq := s.blend.selSeq + 1, slotFb := true } }

/-- Step 4: none when both slots fail. (DEDUCED, log entry 16) -/
def State.startBlend (s : State) : Option State :=
  match s.verifySlot s.blend.active with
  | (s1, none) => some s1
  | (s1, some _) =>
    match s1.verifySlot s1.otherSlot with
    | (s2, none) => some ((s2.useSlot s2.otherSlot).blendOutcome 8)
    | (_, some _) => none

/-- Step 5: the state and the settings records that apply. -/
def State.startSettings (s : State) : State × List RegRec :=
  match s.blend.read s.activeSlot with
  | .ok (recs, ign) => ({ s with blend := { s.blend with ignored := ign } }, recs)
  | .error _ =>
    let fb : State := { s with blend := { s.blend with settingsFb := true } }
    if !s.activeSlot.mandatory then (fb, [])
    else
      match s.verifySlot s.otherSlot with
      | (s1, some _) => ({ s1 with blend := { s1.blend with settingsFb := true } }, [])
      | (s1, none) =>
        match s1.blend.read (s1.bslot s1.otherSlot) with
        | .ok (recs, ign) =>
          let s2 := s1.useSlot s1.otherSlot
          ({ s2 with blend := { s2.blend with ignored := ign } }, recs)
        | .error _ => ({ s1 with blend := { s1.blend with settingsFb := true } }, [])

/-! ### Registers, repairs and banks (steps 13, 16-18) -/

/-- The records of the active Blend's REG_DEFAULTS that differ from the register tables' own values: those of a staged
image; the factory image holds the values of the tables (DESIGN CHOICE, log entry 2). -/
def State.blendRecs (s : State) : List RegRec :=
  if s.activeSlot.factory then [] else regRecs (sectBytes s.activeSlot.bytes 1)

/-- Register fields take the values of records. -/
def State.loadRecs (s : State) (recs : List RegRec) : State :=
  recs.foldl (fun t r => t.setFld r.off r.lsb r.width r.value) s

/-- The Home Map entries that name a fenced die are dealt out over the unfenced dies (R48). -/
def State.rewriteHome (s : State) : State :=
  let u := s.unfenced
  let es := (List.range 256).filter (fun i => s.fenced (s.fld (fabOff (4 * i)) 0 3))
  if u.isEmpty then s
  else es.zipIdx.foldl (fun t p => t.setFld (fabOff (4 * p.1)) 0 3 (lget 0 u (p.2 % u.length))) s

/-- The columns of a bank (R239). -/
def bankCols (b : Nat) : Nat :=
  match bankKind b with
  | some .match => 2225
  | some .istore => 304
  | some _ => 312
  | none => 0

/-- The register that reports on a bank's repairs. -/
def bankRepReg (b : Nat) : Nat :=
  if b < 0x600 then lmOff (b / 256) (0x1400 + 4 * (b % 256)) else hmemOff (0x100 + 4 * (b - 0x600))

/-- One repair takes the next free spare, or is skipped (R240). -/
def State.repair (s : State) (field : Bool) (b col : Nat) : State :=
  let x := s.bank b
  let k := x.cols.length
  if (bankKind b).isNone then s
  else if x.cols.contains col || decide (8 ≤ k) then
    (s.setBank b { x with skipped := true }).event 0 (bankDie b) (bankRepReg b) 16 b 0
  else s.setBank b { x with cols := x.cols ++ [col], fuseUsed := if field then x.fuseUsed else x.fuseUsed + 2 ^ k,
                            fieldUsed := if field then x.fieldUsed + 2 ^ k else x.fieldUsed }

/-- Step 16: fuse entries in fuse order, then field records in sequence (R240); a slot whose CRC fails is ignored, with
an Advisory record (R241). -/
def State.repairAll (s : State) (fuses : List (Nat × Nat)) (bad : List (Fin 4096)) : State :=
  s.repairs.zipIdx.foldl (fun t r =>
    if bad.any (fun k => k.val == r.2) then t.unreported 6 r.2 6 0 0x1F 0 else t.repair true r.1.1 r.1.2.1)
    (fuses.foldl (fun t f => t.repair false f.1 f.2) s)

/-- A bank takes its request at a start or die reset: its contents cleared on its way to On (R228). -/
def State.startBank (s : State) (b : Nat) : State :=
  let x := s.bank b
  let req := s.fld (bankReg b) 0 2
  let aw := match bankKind b with
    | some .frame => s.flag (bankReg b) 2
    | some .scratch => s.flag (bankReg b) 2
    | _ => true
  s.setBank b { x with req := req, autoWake := aw, state := if req = 0 then 0 else 2, target := none }

/-- The register fields that a block's reset loads for a range of offsets (R454). -/
def State.reloadRegs (s : State) (lo hi : Nat) (recs : List RegRec) : State :=
  let inR (r : RegRec) : Bool := decide (lo ≤ r.off) && decide (r.off < hi)
  { s with regs := tclear s.regs lo hi }.loadRecs (recs.filter inR)

/-! ### Dies (steps 9-11, 17-19, 22) -/

/-- A die as its bring-up leaves it: up, empty, its pool being built (R61, R403). -/
def State.freshDie (s : State) (n : Nat) : Die :=
  { Die.reset with up := true, isdTotal := s.fld (lmOff n 0x208) 0 20, building := true, pkgLevel := s.pkgLevel,
                   therm := (s.die n).therm, thermOk := (s.die n).thermOk }

/-- The CK_FAB of a die runs at its computed frequency (step 22). (DEDUCED, log entry 16) -/
def State.startFab (s : State) (n : Nat) : State :=
  let f := s.govFreq n
  let c := s.clamped n
  s.updDie n (fun d => { d with freq := f, clampSince := if c then some s.clk.edges else none })

/-- The domains of a die. -/
def dieDoms (n : Nat) : List Nat := (List.range 10).map (fun k => 10 * n + k)

/-- A direction of a link that has trained: its sender has sent TRAIN_DONE (R17, R18). -/
def LinkDir.trained (d : Nat) : LinkDir :=
  { LinkDir.reset with training := true, wire := [(none, ctrlFlit (dirTo d) 2 0)] }

/-- A link is trained, at full or half width (R17). -/
def State.linkTrained (s : State) (l : Nat) (half : Bool) : State :=
  let s1 := s.setLink l { up := true, half := half, dead := false }
  (s1.setDir (2 * l) (LinkDir.trained (2 * l))).setDir (2 * l + 1) (LinkDir.trained (2 * l + 1))

/-! ### Ledger (R401, R402) -/

/-- The 64 bytes of an entry (R401). -/
def LedgerEntry.bytes (e : LedgerEntry) : List Byte :=
  let steps := e.steps.zipIdx.foldl (fun a p => a + p.1 * 16 ^ p.2) 0
  let b := leBytes 4 e.number.toNat ++ leBytes 1 e.cause ++ leBytes 1 e.outcome ++ leBytes 1 e.consec ++ leBytes 1 e.flags ++
    leBytes 12 steps ++ leBytes 1 e.dieFen ++ leBytes 1 e.dieFail ++ leBytes 1 e.ringFen ++ leBytes 1 e.ringFail ++
    leBytes 1 e.ddrFen ++ leBytes 1 e.ddrFail ++ leBytes 1 (e.grpFen + e.grpFail * 16) ++
    leBytes 1 (e.twkFen + e.twkFail * 4) ++ leBytes 4 e.cons ++ leBytes 4 e.hubFail ++ leBytes 4 e.firstFail ++
    leBytes 8 e.tb.toNat ++ leBytes 4 e.blend ++ leBytes 4 e.post
  b ++ leBytes 4 (crc32 b) ++ leBytes 4 0

/-- A clear marker (R402). -/
def Start.clear (x : Start) : Start := { x with cleared := true, sinceClear := 0 }

/-- An entry is written in rotation, over the one of 16 starts before. -/
def Start.enter (x : Start) (e : LedgerEntry) : Start :=
  { x with ledger := e :: x.ledger.filter (fun y => decide (e.number.toNat < y.number.toNat + 16)), sinceClear := min 16 (x.sinceClear + 1), cleared := false }

/-- A START entry of the event log (R409). -/
def State.startLog (s : State) (e : LedgerEntry) (first : Nat) : State :=
  s.logPut 2 (leBytes 1 e.cause ++ leBytes 1 e.outcome ++ leBytes 1 first ++ leBytes 1 0 ++ (e.bytes.drop 20).take 8)

/-- Post-start failures of the current entry (R400): bits of dies [5:0] and channels [13:6]. -/
def State.postFail (s : State) (mask : Nat) : State :=
  match s.start.ledger with
  | [] => s
  | e :: es => { s with start := { s.start with ledger := { e with post := e.post ||| mask } :: es } }

/-! ### The run of a start -/

/-- What a start's steps find: failing masks, and the essential step that fails (with whether by time-out). -/
structure Found where
  die9 : Nat
  hub : Nat
  die11 : Nat
  ring : Nat
  ddr : Nat
  groups : Nat
  twikel : Nat
  ess : Option (Nat × Bool)
deriving DecidableEq, Repr

/-- The essential steps (R396). -/
def essential (k : Nat) : Bool := [1, 2, 3, 4, 5, 6, 7, 8, 13, 15, 16, 17, 18, 19, 22, 23, 24].contains k

/-- The step runs: it lies before the essential failure. -/
def Found.ran (f : Found) (k : Nat) : Bool := match f.ess with | some (j, _) => decide (k < j) | none => true

def Found.dies (f : Found) : Nat := f.die9 ||| f.hub ||| f.die11

/-- A ring link is tried: both of its dies up, and it is not fenced (step 12). -/
def ringTried (p : Plan) (down i : Nat) : Bool := !bitOf down i && !bitOf down ((i + 1) % 6) && !bitOf p.ring i

/-- The outcomes of the resource classes before their step is cut off by an essential failure. -/
def found (p : Plan) (env : StartEnv) (inUse : Nat) : Found :=
  let d9 := without 6 env.dies9.toNat p.dies
  let hub := without 6 env.hubs.toNat (p.dies ||| d9)
  let d11 := without 6 env.dies11.toNat (p.dies ||| d9 ||| hub)
  let down := p.dies ||| d9 ||| hub ||| d11
  { die9 := d9, hub := hub, die11 := d11,
    ring := maskOf 6 (fun i => bitOf env.rings.toNat i && ringTried p down i),
    ddr := without 8 env.chans.toNat p.ddr, groups := without 4 env.groups.toNat p.groups,
    twikel := without 2 env.twikels.toNat p.twikel &&& inUse, ess := none }

/-- Masks of steps that do not run are empty. -/
def Found.cut (f : Found) : Found :=
  let m (k v : Nat) : Nat := if f.ran k then v else 0
  { f with die9 := m 9 f.die9, hub := m 10 f.hub, die11 := m 11 f.die11, ring := m 12 f.ring, ddr := m 14 f.ddr,
           groups := m 20 f.groups, twikel := m 21 f.twikel }

/-- The installed capacity (R37). -/
def capacityOf (env : StartEnv) (active : List Nat) : Nat :=
  match active.map (fun c => lget 0 env.dimm c) with
  | [] => 0
  | x :: xs => min (2 ^ 38) (active.length * xs.foldl min x)

/-- The outcome of a step of a resource class (R401). -/
def classOutcome (w fen fail cons : Nat) : Nat :=
  if fen = 2 ^ w - 1 then 6 else if fen ||| fail ≠ 0 then 4 else if cons ≠ 0 then 3 else 2

/-- The 24 step outcomes; `from8` tells a Bedrock reset, which skips steps 1, 2 and 8. -/
def stepOutcomes (p : Plan) (f : Found) (inUse : Nat) (from8 : Bool) : List Nat :=
  (List.range 24).map (fun j =>
    let k := j + 1
    if from8 && (k == 1 || k == 2 || k == 8) then 0
    else match f.ess with
      | some (e, late) => if k = e then (if late then 7 else 5) else if e < k then 0 else cls k
      | none => cls k)
where
  /-- the outcome of a step that has run -/
  cls (k : Nat) : Nat :=
    if k = 9 then classOutcome 6 p.dies f.die9 0
    else if k = 10 then classOutcome 6 (p.dies ||| f.die9) f.hub p.hubCons
    else if k = 11 then classOutcome 6 (p.dies ||| f.die9 ||| f.hub) f.die11 0
    else if k = 12 then classOutcome 6 p.ring f.ring p.ringCons
    else if k = 14 then classOutcome 8 p.ddr f.ddr p.ddrCons
    else if k = 20 then classOutcome 4 p.groups f.groups 0
    else if k = 21 then (if inUse = 0 then 2 else classOutcome 2 p.twikel f.twikel 0)
    else 2

/-- The first step at which something failed, or 0. -/
def Found.first (f : Found) : Nat :=
  let ks := (([(9, f.die9), (10, f.hub), (11, f.die11), (12, f.ring), (14, f.ddr), (20, f.groups), (21, f.twikel)].filter
    (fun p => p.2 != 0)).map (fun p => p.1)) ++ (match f.ess with | some (k, _) => [k] | none => [])
  match ks with
  | [] => 0
  | x :: xs => xs.foldl min x

/-- One Advisory record of kind START_STEP per failed step (R391). -/
def State.stepRecords (s : State) (f : Found) : State :=
  let one (t : State) (k m : Nat) : State := if m = 0 then t else t.err 0 4 6 (startOff 0) 2 0 0x1F k m
  let s1 := [(9, f.die9), (10, f.hub), (11, f.die11), (12, f.ring), (14, f.ddr), (20, f.groups), (21, f.twikel)].foldl
    (fun t p => one t p.1 p.2) s
  match f.ess with
  | some (k, _) => s1.err 0 4 6 (startOff 0) 2 0 0x1F k 0
  | none => s1

/-- Steps 9 to 12: domains, hub links, dies and ring links (R396). -/
def State.startDies (s : State) (p : Plan) (f : Found) (half : Nat → Bool) : State :=
  let down := p.dies ||| f.dies
  let upd := (List.range 6).filter (fun n => !bitOf down n)
  let s1 := { s with start := { s.start with dies := down, ring := p.ring ||| f.ring } }
  let s2 := upd.foldl (fun t n => ((t.domsOn (dieDoms n)).setDie n { Die.reset with up := true }).linkTrained n (half n)) s1
  (List.range 6).foldl (fun t i =>
    if ringTried p down i && !bitOf f.ring i then t.linkTrained (6 + i) (half (6 + i)) else t) s2

/-- Steps 13 to 19: registers, Home Map, memory, repairs, banks, queues and pools. -/
def State.startStores (s : State) (p : Plan) (f : Found) (env : StartEnv) (recs : List RegRec) : State :=
  let down := p.ddr ||| f.ddr
  let act := (List.range 8).filter (fun c => !bitOf down c)
  let s1 := { s with start := { s.start with ddr := down, active := act, capacity := capacityOf env act } }
  let s2 := ((s1.loadRecs s1.blendRecs).loadRecs recs).rewriteHome
  let up := s2.upDies
  let s3 := (List.range 6).foldl (fun t n => t.setFld (lmOff n 0x424) 0 6 (t.carve / 2 ^ 29 + n)) s2
  let s4 := s3.repairAll env.fuses env.badRepairs
  let s5 := (bankNumbers.filter (fun b => decide (0x600 ≤ b) || up.contains (b / 256))).foldl State.startBank s4
  up.foldl (fun t n => t.setDie n (t.freshDie n)) s5

/-- Steps 20 to 22: ports, Twikel links and the governor. (DEDUCED, log entry 16) -/
def State.startLinks (s : State) (p : Plan) (f : Found) : State :=
  let g := p.groups ||| f.groups
  let t := p.twikel ||| f.twikel
  let s1 := { s with start := { s.start with groups := g, twikel := t } }
  let ds := (if bitsOf g 0 2 = 3 then [] else [65]) ++ (if bitsOf g 2 2 = 3 then [] else [66]) ++
    (if [0, 1].any (fun n => s1.twkUse n && !bitOf t n) then [67] else [])
  let s2 := s1.domsOn ds
  let s3 := (List.range 16).foldl (fun u k => if s2.pfpOn k && !bitOf g (k / 4) then u.portEnable k else u) s2
  let s4 := [0, 1].foldl (fun u n => if u.twkUse n && !bitOf t n then u.twkTrain n else u) s3
  s4.upDies.foldl State.startFab s4.syncAll

/-- The domains of step 7; a DDR domain stays off when every channel it serves is fenced (R382). -/
def coreDoms (p : Plan) : List Nat :=
  [61, 62] ++ (if bitsOf p.ddr 0 4 = 15 then [] else [63]) ++ (if bitsOf p.ddr 4 4 = 15 then [] else [64]) ++
    [68, 69, 70, 71, 72, 73, 74]

/-- The entry of a start. -/
def entryOf (s : State) (p : Plan) (f : Found) (cause consec inUse : Nat) (cleared : Bool) : LedgerEntry :=
  let some_ := p.dies ||| p.hubCons ||| p.ring ||| p.ringCons ||| p.ddr ||| p.ddrCons ||| p.groups ||| p.twikel |||
    f.dies ||| f.ring ||| f.ddr ||| f.groups ||| f.twikel
  { number := s.start.number, cause := cause,
    outcome := if f.ess.isSome then (if 3 ≤ consec then 4 else 3) else if some_ = 0 then 1 else 2,
    consec := if f.ess.isSome then consec else 0, flags := b2n cleared + b2n s.blend.slotFb * 2,
    steps := stepOutcomes p f inUse (cause == 3), dieFen := p.dies, dieFail := f.dies, ringFen := p.ring, ringFail := f.ring,
    ddrFen := p.ddr, ddrFail := f.ddr, grpFen := p.groups, grpFail := f.groups, twkFen := p.twikel, twkFail := f.twikel,
    cons := p.hubCons + p.ringCons * 2 ^ 6 + p.ddrCons * 2 ^ 12, hubFail := f.hub,
    firstFail := match f.ess with | some (k, _) => k | none => 0, tb := s.clk.tb,
    blend := s.activeSlot.ver + s.blend.active * 2 ^ 24, post := 0 }

/-- The count of essential failures that an entry carries when its start fails (R399). -/
def Start.count (x : Start) : Nat :=
  match x.previous with
  | some p => if p.outcome = 3 ∨ p.outcome = 4 then p.consec + 1 else 1
  | none => 1

/-- The link that a start has trained (R337); RESET_SCOPE of Bedrock keeps the link (R403). -/
def Pci.trained (x : Pci) (env : StartEnv) (keep : Bool) : Pci :=
  if keep then x else { x with width := env.width, gen := env.gen }

/-- A start that an essential step ends: a retry 100 ms later, or Safe State (R399, R400). -/
def State.startFails (s : State) (p : Plan) (f : Found) (env : StartEnv) (cause k inUse : Nat) (cleared : Bool) : State :=
  let n := s.start.count
  let e := entryOf s p f cause n inUse cleared
  let safe := decide (3 ≤ n)
  let s1 := { s with start := { (s.start.enter e) with state := if safe then 2 else 0, step := k, retry := !safe },
                     clk := { s.clk with run := decide (6 < k) }, pcieUp := s.pcieUp || decide (8 < k) || (safe && env.pcieCons),
                     cfg := if 8 < k then s.cfg.trained env (cause == 3) else s.cfg }
  let s2 := if 7 < k then s1.domsOn [61, 62, 68, 69, 70, 71, 72, 73, 74] else s1
  (s2.startLog e f.first).stepRecords f

/-- A start that reaches step 24 (R396). (DEDUCED, log entry 16) -/
def State.startEnds (s : State) (p : Plan) (f : Found) (cause inUse : Nat) (cleared : Bool) : State :=
  let e := entryOf s p f cause 0 inUse cleared
  let s1 := { s with start := { (s.start.enter e) with state := 1, step := 24, degraded := e.outcome == 2, tripped := false } }
  ((s1.startLog e f.first).stepRecords f).queueHeld

/-- A start may begin: its cause is due, the supplies are good, PERST_N is high, and after a trip the diodes are
cool. (DESIGN CHOICE, log entry 15) -/
def State.canStart (s : State) : Bool :=
  s.start.due.isSome && s.start.vin && s.start.vio && s.start.vstby && s.start.perstHigh &&
    !(s.start.tripped && s.gov.temps.any (fun t => decide (800 ≤ t.2)))

/-- PCI Express trains at a width and a speed that R337 gives. -/
def pcieTrains (env : StartEnv) : Bool := [4, 8, 16].contains env.width && [3, 4, 5].contains env.gen

/-- The start's essential failure: the first of the environment's and the device's own (steps 4, 13 and 15). -/
def firstEss (from8 : Bool) (xs : List (Nat × Bool)) : Option (Nat × Bool) :=
  (xs.filter (fun x => essential x.1 && !(from8 && (x.1 == 1 || x.1 == 2 || x.1 == 8)))).foldl
    (fun a x => match a with | some y => some (if x.1 < y.1 then x else y) | none => some x) none

/-- START_SEQUENCE: a start that is due runs its steps (R396-R399). (DESIGN CHOICE, log entry 15) -/
def State.startRun (s0 : State) (env : StartEnv) : State :=
  match s0.start.due with
  | none => s0
  | some cause =>
    if !s0.canStart then s0
    else
      let half (l : Nat) : Bool :=
        bitOf env.halves.toNat l || (if cause = 1 ∨ cause = 2 ∨ cause = 7 then false else s0.flag (lnkOff l 4) 0)
      let cleared := s0.start.cleared
      let s1 := s0.cold (cause == 3)
      let cutAt (k : Nat) : Bool := match env.essential with
        | some (j, _) => essential j && decide (j ≤ k)
        | none => false
      let s2 := ({ s1 with start := { s1.start with number := s1.start.number + 1 } } : State).skipEntries
        (if cutAt 2 then 0 else env.badLedger)
      let p := s2.start.plan
      let b := if cutAt 4 then none else s2.startBlend
      let s3 := b.getD s2
      let st := if b.isSome && !cutAt 5 then s3.startSettings else (s3, [])
      let s4 := { st.1 with clk := { Clk.reset with run := true } }
      let loaded := (s4.loadRecs s4.blendRecs).loadRecs st.2
      let inUse := maskOf 2 (fun n => loaded.twkUse n)
      let f0 := found p env inUse
      let act := (List.range 8).filter (fun c => !bitOf (p.ddr ||| f0.ddr) c)
      let own := (if b.isNone then [(4, false)] else []) ++ (if pcieTrains env then [] else [(8, false)]) ++
        (if (p.dies ||| f0.dies) = 63 then [(13, false)] else []) ++
        (if capacityOf env act < 2 ^ 36 then [(15, false)] else [])
      let f := { f0 with ess := firstEss (cause == 3) (env.essential.toList ++ own) }.cut
      match f.ess with
      | some (k, _) =>
        (if 6 < k then s4 else if 5 < k then { s4 with clk := s2.clk } else if 4 < k then s3 else s2).startFails p f env
          cause k inUse cleared
      | none =>
        let s5 := { (s4.domsOn (coreDoms p)) with pcieUp := true, cfg := s4.cfg.trained env (cause == 3), sealPort := { SealEnd.reset with up := true } }
        (((s5.startDies p f half).startStores p f env st.2).startLinks p f).startEnds p f cause inUse cleared

/-! ### Causes of a start (R433, R434, R399, R442) -/

/-- The conditions of a power-on start are met, or PERST_N is released again (R433). -/
def State.powerCheck (s : State) (release : Bool) : State :=
  let x := s.start
  if x.vin && x.vio && x.vstby && x.perstHigh then
    (if !x.poweredOn then { s with start := { x with due := some 1, poweredOn := true } }
     else if release then { s with start := { x with due := some 2 } }
     else s)
  else s

/-- A supply becomes good. -/
def State.vinUp (s : State) : State := { s with start := { s.start with vin := true } }.powerCheck false
def State.vioUp (s : State) : State := { s with start := { s.start with vio := true } }.powerCheck false

/-- VSTBY becomes good: the OOB straps are sampled (R411). -/
def State.vstbyUp (s : State) (sel : Bool) (addr : Nat) : State :=
  let s1 := { s with start := { s.start with vstby := true }, oob := { Oob.reset with i3c := sel, addr := 0x4C + addr } }
  (s1.setDom 60 { state := 1, req := true }).powerCheck false

/-- PERST_N: its assertion holds the domains off, its release may begin a start (R433). -/
def State.perst (s : State) (level : Bool) : State :=
  if level then
    (if s.start.perstHigh then s else { s with start := { s.start with perstHigh := true } }.powerCheck true)
  else
    let s1 := s.cold false
    { s1 with start := { s1.start with perstHigh := false } }

/-- VIN or VIO is lost (R434): a Package-fatal record that names PWR_VIN, then the domains are off. (DEDUCED, log
entry 17) -/
def State.supplyLost (s : State) (which : SupplyLoss) : State :=
  let x := s.start
  let x1 := { x with due := none, retry := false, poweredOn := false,
                     vin := x.vin && which == .vio, vio := x.vio && which != .vio }
  let s1 := { s with start := x1 }
  (if x.poweredOn then (s1.event 4 6 (pwrOff 0x4C) 0 0 0).settle else s1).domainsOff

/-- VSTBY is lost (R434): every domain but Kaolin's stops. (DEDUCED, log entry 17) -/
def State.vstbyDown (s : State) : State :=
  let s1 := s.cold false
  { s1 with start := { s1.start with vstby := false, poweredOn := false },
            doms := s.doms.filter (fun p => decide (75 ≤ p.1)) }

/-- A thermal trip (R390). (DEDUCED, log entry 17) -/
def State.trip (s : State) (diode : Nat) : State :=
  let s1 := { s with start := { s.start with tripped := true, due := none, retry := false } }
  ((s1.event 4 6 (mcOff (0x100 + 4 * diode)) 0 diode 0).settle).domainsOff

/-- REFCLK is lost (R370, R390): no CK_TB edge follows. (DEDUCED, log entry 17) -/
def State.refLost (s : State) : State :=
  let s1 := (s.event 4 6 (startOff 0) 0 0 0).settle
  { s1 with clk := { s1.clk with run := false } }

/-- After a trip every diode reads below 100 degrees, and PERST_N is high (R442). -/
def State.recover (s : State) : State :=
  if s.start.tripped && s.start.perstHigh && s.gov.temps.all (fun t => decide (t.2 < 800)) then
    { s with start := { s.start with due := some 7 } }
  else s

/-- The 100 ms wait after an essential failure ends (R399). -/
def State.retryStart (s : State) : State :=
  if s.start.retry then { s with start := { s.start with due := some 4, retry := false } } else s

/-! ### Commands -/

/-- VIN_GOOD (R433). (DESIGN CHOICE, log entry 55) -/
def execVinGood (s : State) : Host.Outcome State Fault Refusal := .next s.vinUp.finish

/-- VIO_GOOD (R433). -/
def execVioGood (s : State) : Host.Outcome State Fault Refusal := .next s.vioUp.finish

/-- VSTBY_GOOD (R433, R411). -/
def execVstbyGood (oobSel : Bool) (oobAddr : Fin 4) (s : State) : Host.Outcome State Fault Refusal :=
  .next (s.vstbyUp oobSel oobAddr.val).finish

/-- PERST_N (R433). (DESIGN CHOICE, log entry 55) -/
def execPerstN (level : Bool) (s : State) : Host.Outcome State Fault Refusal := .next (s.perst level).finish

/-- VIN_LOST (R434). -/
def execVinLost (which : SupplyLoss) (s : State) : Host.Outcome State Fault Refusal := .next (s.supplyLost which).finish

/-- VSTBY_LOST (R434). -/
def execVstbyLost (s : State) : Host.Outcome State Fault Refusal := .next s.vstbyDown.finish

/-- THERMAL_TRIP (R390). -/
def execThermalTrip (diode : Fin 22) (s : State) : Host.Outcome State Fault Refusal := .next (s.trip diode.val).finish

/-- REFCLK_LOST (R390). -/
def execRefclkLost (s : State) : Host.Outcome State Fault Refusal := .next s.refLost.finish

/-- THERMAL_RECOVERY (R442). -/
def execThermalRecovery (s : State) : Host.Outcome State Fault Refusal := .next s.recover.finish

/-- START_SEQUENCE (R396). (DESIGN CHOICE, log entry 15) -/
def execStartSequence (env : StartEnv) (s : State) : Host.Outcome State Fault Refusal := .next (s.startRun env).finish

/-- ESSENTIAL_RETRY (R399). -/
def execEssentialRetry (s : State) : Host.Outcome State Fault Refusal := .next s.retryStart.finish

end Sys2Proof.Machine
end

