-- ==== Sys2Proof/Machine/Regs.lean ====
section
/-! DEFINITION. What a register reads (R9, R454): the fields that follow the structures of the device, the read side
effects (RC fields, captured upper halves, the DIAG pop of R201), and the layout of each function's BAR0 (R448-R452). -/

namespace Sys2Proof.Machine

/-! ### The identification block (R456-R458) -/

/-- A directory entry's four words of the PF view (R458). -/
def dirPf (e : Nat) : List Nat :=
  match blockRows[e]? with
  | none => [0, 0, 0, 0]
  | some b =>
    let vf : Option Nat := if b.code = 1 then some 0 else if b.code = 13 then some 0x1000 else if b.code = 9 then some 0x10000
      else none
    [b.base, b.stride, pack [(b.insts, 0), (b.code, 8), (b2n vf.isNone, 16), (b2n vf.isSome, 17)], vf.getD 0]

/-- A directory entry of a VF view. -/
def dirVf (e : Nat) : List Nat :=
  let ent (base stride count code : Nat) : List Nat := [base, stride, pack [(count, 0), (code, 8), (1, 17)], 0]
  if e = 0 then ent 0 0 1 1 else if e = 1 then ent 0x1000 0x40 2 13 else if e = 2 then ent 0x2000 0x1000 2 20
  else if e = 3 then ent 0x10000 0 1 9 else [0, 0, 0, 0]

/-! ### Fields that follow the device -/

/-- Records of the deferral pool that are free (R61, R75): one more per cycle while the pool is built. (DEDUCED,
log entry 47) -/
def Die.isdFree (d : Die) : Nat :=
  (if d.building then min d.isdTotal (d.cycles - d.buildFrom) else d.isdTotal) + d.isdRet.length - d.isdFresh

/-- A D2D link is fenced (R43). -/
def State.linkFenced (s : State) (l : Nat) : Bool :=
  if l < 6 then bitOf s.start.dies l
  else bitOf s.start.ring (l - 6) || bitOf s.start.dies (l - 6) || bitOf s.start.dies ((l - 5) % 6)

/-- The queue that SQ_SEL names. -/
def State.sqSel (s : State) : Nat := s.fld (sqOff 0x80) 0 13

/-- SQ_STATUS of a queue (R204). -/
def State.sqStatus (s : State) (q : Nat) : Nat :=
  match siltClass q with
  | some c =>
    let x := s.queue q
    pack [(b2n (x.visible (s.cutThr c) == 0), 0), (b2n x.underrun, 1), (b2n (x.full c), 2), (b2n x.diag, 3),
          (b2n (x.head.isEmpty && x.refill), 4), (b2n x.packetOpen, 5)]
  | none => match laneOfQueue q with
    | none => 1
    | some k =>
      let l := s.lane k
      pack [(b2n l.head.isEmpty, 0), (b2n l.underrun, 1), (b2n (s.laneFull (k / 8) (k % 8)), 2), (b2n l.diag, 3),
            (b2n (l.head.isEmpty && l.refill), 4)]

/-- Stored entries of a queue. -/
def State.sqStored (s : State) (q : Nat) : Nat :=
  match siltClass q with
  | some _ => (s.queue q).stored
  | none => match laneOfQueue q with
    | some k => (s.lane k).size
    | none => 0

def State.sqDiag (s : State) (q : Nat) : Bool :=
  match siltClass q with
  | some _ => (s.queue q).diag
  | none => match laneOfQueue q with
    | some k => (s.lane k).diag
    | none => false

/-- A bank's control and repair registers (R250, R251). -/
def State.bankCtrl (s : State) (b : Nat) : Nat :=
  pack [((s.bank b).req, 0), (b2n (s.autoWake b), 2), (s.bankState b, 3)]
def State.bankRep (s : State) (b : Nat) : Nat :=
  let x := s.bank b
  pack [(x.fuseUsed, 0), (x.fieldUsed, 8), (b2n x.skipped, 16)]

def PState.code : PState → Nat
  | .disabled => 0 | .training => 1 | .idle => 2 | .armed => 3 | .running => 4

/-- Ticks of the current or last run (R309). -/
def Port.tickCount (x : Port) : Nat := if x.state = .armed || x.state = .running then x.run.ticks else x.ticksShown

/-- The value of a pending activation, its basis and settings outcome (R430). -/
def Blend.pendingAct (b : Blend) : Nat × Nat × Nat :=
  match b.act with
  | some (basis, out, v) => (basis, out, v.toNat)
  | none => (0, 0, 0)

/-- Severities of the unacknowledged records. -/
def Erq.sevMask (q : Erq) : Nat := maskOf 5 (fun k => q.open.any (fun e => e.r.sev == k))

/-- Live fields of the FAB, D2D_LNK, SQ, TMP and LTB blocks. -/
def State.regValFab (s : State) (l : Loc) : Nat :=
  let k := l.idx
  let n := l.inst
  match l.row.id with
  | .fabGraphStatus => if k = 0 then 0 else pack [((s.graph k).state.code, 0), ((s.graph k).active, 3)]
  | .d2dLnkStatus =>
    pack [(b2n (s.link n).up, 0), (b2n (s.link n).half, 1), (b2n (s.linkFenced n), 2), (s.fld l.off 3 1, 3),
          ((s.dir (2 * n)).replay.length, 4)]
  | .sqStatus => s.sqStatus s.sqSel
  | .sqDepth => s.sqStored s.sqSel
  | .sqCtrl => b2n (s.sqDiag s.sqSel)
  | .sqDbgPopLo => 0
  | .tmpLevel => s.pkgLevel + (List.range 6).foldl (fun a i => a + (s.die i).level * 2 ^ (3 * i + 3)) 0
  | .hmemBankCtrl => s.bankCtrl (0x600 + k)
  | .hmemBankRep => s.bankRep (0x600 + k)
  | .ltbPeek => (s.latchPeek (s.fld (ltbOff 0x100) 0 12)).toNat
  | .ltbWait =>
    let x := s.latch (s.fld (ltbOff 0x100) 0 12)
    pack [(if x.waiter then x.wcls.toNat else 0, 0), (b2n x.waiter, 3), (b2n x.lifted.isSome, 4)]
  | _ => s.reg l.off

/-- Live fields of an LM instance. -/
def State.regValLm (s : State) (l : Loc) : Nat :=
  let k := l.idx
  let n := l.inst
  let d := s.die n
  match l.row.id with
  | .lmIsdFree => pack [(d.isdFree, 0), (b2n d.building, 31)]
  | .lmMsOcc => d.occ
  | .lmMsOccHwm => d.hwm
  | .lmMsChain => d.chainUsed
  | .lmMsOvfSets => pack [(d.ovfSets, 0), (b2n d.sweeping, 31)]
  | .lmMsFill => pack [(d.occ / 4096, 0), ((d.chainUsed + 32768) / 65536, 16), (b2n d.regionFull, 27)]
  | .lmDispDepth =>
    pack [(s.onchip (peKey n k), 0), (maskOf 8 (fun c => decide (0 < (s.lane (laneKey n k c)).size)), 13)]
  | .lmDispMid => (s.lanesOf (peKey n k)).foldl (fun a x => a + x.mid.length) 0
  | .lmTmpLevel =>
    pack [(d.level, 0), (s.effLevel n, 3),
          (maskOf 8 (fun c => (List.range 64).any (fun j => decide (s.credit n j c < 1))), 6)]
  | .lmBankCtrl => s.bankCtrl (256 * n + k)
  | .lmBankRep => s.bankRep (256 * n + k)
  | _ => s.reg l.off

/-- Live fields of the BMV, PFP, KAO, QP, HOST and EPOCH blocks. -/
def State.regValIo (s : State) (l : Loc) : Nat :=
  let k := l.idx
  let p := s.port k
  let c := s.chan k
  let t := s.twk k
  let q := s.qp l.inst
  match l.row.id with
  | .bmvChDbell => 0
  | .bmvChStatus =>
    pack [(b2n c.active, 0), (b2n c.stopping.isSome, 1), (s.fld l.off 2 1, 2), (c.last, 4), (c.entry, 12)]
  | .bmvChDone => c.doneWords
  | .bmvChBufs => c.bursts.length
  | .bmvPool => 256 - s.bmvHeld
  | .pfpState =>
    pack [(p.state.code, 0), (p.endReason, 3), (b2n p.run.creditWait, 7), (b2n p.run.holding, 8), (b2n p.fl.reversed, 9),
          (p.fl.inverted, 10)]
  | .pfpNextLo => p.run.next
  | .pfpTicksLo => p.tickCount
  | .pfpStartLo => p.s0Time
  | .pfpVcredit => (BitVec.ofInt 32 p.avail).toNat
  | .kaoStatus =>
    pack [(b2n s.sealPort.up, 0), (s.sealPort.rep.toNat, 1),
      ((s.sealPort.waitingR.filter (fun r => r.ty == 1)).length, 16)]
  | .qpSqTail => q.tail
  | .qpSqHead => q.head
  | .qpCqTail => pack [(q.cqTail, 0), (b2n q.phase, 12)]
  | .qpCqHead => q.cqHead
  | .qpStatus =>
    pack [(s.fld l.off 0 2, 0), (b2n (s.cqFull l.inst), 2), (b2n (s.stalled l.inst), 3)]
  | .hostDefer => s.ce.deferred.length + s.ce.due.length
  | .twkStatus =>
    pack [(b2n t.up, 0), (b2n t.fl.reversed, 1), (t.fl.inverted, 2), (s.fld l.off 10 2, 10)]
  | .twkPeerEpochLo => t.peerEpoch.toNat
  | .twkPeerEpochHi => pack [(s.fld l.off 0 16, 0), (b2n t.peerValid, 16)]
  | .epochCntLo => s.clk.epoch.toNat
  | .epochLastLo => s.clk.last.toNat
  | .epochStat => pack [(s.clk.src.toNat, 0), (s.fld l.off 8 8, 8), (b2n s.clk.sched.isSome, 16)]
  | _ => s.reg l.off

/-- Live fields of the PWR, ERQ, START and MC blocks. -/
def State.regValSys (s : State) (l : Loc) : Nat :=
  let k := l.idx
  let b := s.blend
  match l.row.id with
  | .pwrFreq => pack [(if s.fenced k then 0 else (s.die k).target, 0), ((s.die k).therm, 8)]
  | .pwrLimits => pack [(s.gov.cur, 0), (s.gov.cap, 8)]
  | .pwrVin => pack [(s.gov.vin, 0), (s.gov.iin, 16)]
  | .pwrDomCtrl =>
    pack [(b2n (s.dom k).req, 0), ((s.dom k).state, 1), (b2n (!domSwitched k), 3), (tget 0 s.gov.volts k, 16)]
  | .pwrDomCur => tget 0 s.gov.currents k
  | .erqStatus => pack [(s.erq.pending, 0), (s.fld l.off 9 1, 9), (s.erq.sevMask, 10)]
  | .erqRd => s.erq.rd.toNat
  | .erqWr => s.erq.wr.toNat
  | .erqRec =>
    match tfind s.erq.slots (k / 8) with
    | some e => leAt (errBytes e) (4 * (k % 8)) 4
    | none => 0
  | .startStatus =>
    pack [(s.start.state, 0), (s.start.step, 2), (b2n s.start.degraded, 7), (s.start.number.toNat % 2 ^ 24, 8)]
  | .startCtrl => 0
  | .fenceStatus =>
    pack [(s.start.dies, 0), (s.start.ddr, 6), (s.start.groups, 14), (s.start.twikel, 18), (s.start.ring, 20)]
  | .ledgerWin =>
    match s.start.ledger[k / 16]? with
    | some e => leAt e.bytes (4 * (k % 16)) 4
    | none => 0
  | .mcBlendStatus =>
    pack [(b.active, 0), (b2n b.settingsFb, 1), (b2n b.slotFb, 2), (maskOf 2 (fun i => (s.bslot i).verified), 3),
          (b2n b.act.isSome, 5), (b2n b.revert.isSome, 6), (b2n b.burning.isSome, 7), (b.lastAct, 8)]
  | .mcBlendVer =>
    let x := s.bslot k
    if x.verified then pack [(x.version.toNat, 0), (x.rollback, 24)] else 0
  | .mcBlendActLo => b.pendingAct.2.2
  | .mcBlendActCfg => pack [(b.pendingAct.1, 0), (b.pendingAct.2.1, 1)]
  | .mcRb => pack [(b.counter, 0), (b2n b.burning.isSome, 7)]
  | .mcRbBurn => 0
  | .mcPssCtrl => 0
  | .mcPssStatus =>
    pack [(match b.inForce with | some (sch, _, _) => sch | none => 0, 0), (b2n b.empty, 16), (b2n b.corrupt, 17),
          (min b.ignored 8191, 19)]
  | .mcLogNext => s.logNext.toNat
  | .mcPeerVer => pack [((s.twk k).peerVer.toNat, 0), (b2n (s.twk k).verValid, 24), (b2n (s.twk k).compat, 25)]
  | .mcPeerFloor => (s.twk k).peerFloor.toNat
  | .mcTemp => pack [((BitVec.ofInt 16 (tget 0 s.gov.temps k)).toNat, 0), (b2n (bitOf s.gov.faults k), 16)]
  | _ => s.reg l.off

/-- The ID block of a view (R456-R458). -/
def State.regValId (s : State) (view : Nat) (l : Loc) : Nat :=
  match l.row.id with
  | .idDuidLo => duid.toNat
  | .idDuidHi => duid.toNat / 2 ^ 32
  | .idOrder => lget 0 [0x38385A53, 0x462D3031, 0x00353843] l.idx
  | .idPresent => pack [(s.presentMask, 0), (s.ownPkg, 7)]
  | .idBlend => pack [(s.activeSlot.ver, 0), (s.blend.active, 24)]
  | .idFn => if view = 0 then pack [(32, 11)] else pack [(view, 0), (32 + 2 * (view - 1), 5), (2, 11)]
  | .idDirUsed => if view = 0 then 19 else 4
  | .idCfgReject => tget 0 s.cfgReject view
  | .idDir => lget 0 (if view = 0 then dirPf (l.idx / 4) else dirVf (l.idx / 4)) (l.idx % 4)
  | _ => s.reg l.off

/-- The value that a register reads in a function's view, without side effects. (DEDUCED, log entry 47) -/
def State.regVal (s : State) (view : Nat) (l : Loc) : Nat :=
  (match l.row.code with
   | 1 => s.regValId view l
   | 4 => if (s.die l.inst).up then s.regValLm l else 0
   | 2 | 3 | 5 | 6 | 7 | 8 => s.regValFab l
   | 10 | 11 | 12 | 13 | 14 | 15 => s.regValIo l
   | _ => s.regValSys l) % 2 ^ 32

/-! ### Read side effects -/

/-- A DIAG read of the selected queue (R201): the state, and the word with its flags as SQ_DBG_POP_HI shows them. -/
def State.diagTake (s : State) : State × PWord × Nat :=
  let q := s.sqSel
  let hi (w : SWord) (under : Bool) : Nat :=
    pack [(fieldOf w.w.v 32 4, 0), (b2n w.w.p, 4), (b2n w.eop, 5), (b2n under, 6)]
  match siltClass q with
  | some c =>
    match s.siltTake q c with
    | some (w, s1) => (s1, w.w, hi w false)
    | none =>
      let x := s.queue q
      (s.setQueue q { x with underrun := true }, x.last.w, hi x.last true)
  | none => match laneOfQueue q with
    | none => (s, PWord.zero, 0)
    | some k =>
      let l := s.lane k
      match l.head with
      | [] => (s.setLane k { l with underrun := true }, l.last, hi { w := l.last, eop := false } true)
      | i :: _ =>
        let w := lget PWord.zero i.words l.diagPos
        let s1 := s.setLane k { l with diagPos := l.diagPos + 1, last := w }
        (if l.diagPos = 7 then s1.lanePop (k / 8) (k % 8) else s1, w, hi { w := w, eop := false } false)

/-- Fields whose upper part a read of the low half captures: the register that holds it and its value (R7, R309, R386,
R430, R33). -/
def State.captured (s : State) (l : Loc) : Option (Nat × Nat) :=
  let k := l.idx
  match l.row.id with
  | .twkPeerEpochLo => some (twkOff k 0x10, (s.twk k).peerEpoch.toNat / 2 ^ 32)
  | .pfpNextLo => some (pfpOff k 0x28, (s.port k).run.next / 2 ^ 32 % 16)
  | .pfpTicksLo => some (pfpOff k 0x30, (s.port k).tickCount / 2 ^ 32 % 65536)
  | .pfpStartLo => some (pfpOff k 0x38, (s.port k).s0Time / 2 ^ 32)
  | .epochCntLo => some (epochOff 0x08, s.clk.epoch.toNat / 2 ^ 32)
  | .epochLastLo => some (epochOff 0x10, s.clk.last.toNat / 2 ^ 32)
  | .mcBlendActLo => some (mcOff 0x24, s.blend.pendingAct.2.2 / 2 ^ 32)
  | _ => none

/-- The RC fields of a register within a mask are cleared (R9). -/
def State.clearRc (s : State) (l : Loc) (mask : Nat) : State :=
  (l.row.fields.filter (fun f => f.acc == .rc && Nat.land mask f.mask != 0)).foldl
    (fun t f => t.setFld l.off f.lsb f.width 0) s

/-- A read of a register by a function: its value, and the side effects on the fields within a mask (R8, R9, R359). -/
def State.readReg (s : State) (fn : Nat) (l : Loc) (mask : Nat) : State × Nat :=
  let v := s.regVal fn l
  if l.row.code = 4 && !(s.die l.inst).up then (s, 0)
  else match l.row.id with
    | .lmMsOccHwm => (s.updDie l.inst (fun d => { d with hwm := d.occ }), v)
    | .sqDbgPopLo =>
      if s.sqDiag s.sqSel then
        let r := s.diagTake
        (r.1.setReg (sqOff 0x94) r.2.2, fieldOf r.2.1.v 0 32)
      else (s, 0)
    | _ =>
      match s.captured l with
      | some (off, hi) => (s.setReg off hi, v)
      | none => (s.clearRc l mask, v)

/-! ### The BAR0 of a function (R448-R452) -/

/-- What an offset of a function's BAR0 holds. -/
inductive Target where
  | reg (l : Loc)
  | latch (k : Nat)
  /-- a doubleword of a VF's MSI-X table, and of its PBA -/
  | vector (vec dw : Nat)
  | pba (w : Nat)
  | none
deriving DecidableEq, Repr

def regTarget (o : Option Loc) : Target := match o with | some l => .reg l | none => .none

/-- The PF's BAR0 (R448), and the 256 KiB subset of a VF (R451). -/
def busTarget (fn off : Nat) : Target :=
  let o := off / 4 * 4
  if fn = 0 then
    (if 0x240000 ≤ o ∧ o < 0x244000 then .latch ((o - 0x240000) / 4) else regTarget (locate o))
  else if o < 0x400 then regTarget (locate o)
  else if 0x1000 ≤ o ∧ o < 0x102C then regTarget (locate (qpOff (32 + 2 * (fn - 1)) (o - 0x1000)))
  else if 0x1040 ≤ o ∧ o < 0x106C then regTarget (locate (qpOff (33 + 2 * (fn - 1)) (o - 0x1040)))
  else if 0x2000 ≤ o ∧ o < 0x2400 then .vector ((o - 0x2000) / 16) (o / 4 % 4)
  else if 0x3000 ≤ o ∧ o < 0x3008 then .pba ((o - 0x3000) / 4)
  else if 0x10000 ≤ o ∧ o < 0x14000 then .latch ((o - 0x10000) / 4)
  else .none

/-- A target answers: in every state the START and ERQ blocks, the others while the device is ready (R390, R397).
(DEDUCED, log entry 48) -/
def State.answers (s : State) (t : Target) : Bool :=
  s.pcieUp && (s.ready || (match t with | .reg l => l.row.code == 17 || l.row.code == 18 | _ => false))

/-- The bytes of a value that byte enables request (R8). -/
def enabled (be v : Nat) : Nat :=
  (List.range 4).foldl (fun a i => if bitOf be i then a + bitsOf v (8 * i) 8 * 2 ^ (8 * i) else a) 0

/-- A doubleword of an MSI-X table, or of a PBA, as it reads (R340). -/
def State.vectorRd (s : State) (fn vec dw : Nat) : Nat :=
  let key := fn * 2048 + vec
  if dw = 3 then b2n (!tget false s.msix.unmasked key) else (tget 0 s.msix.table (key * 4 + dw)).toNat
def State.pbaRd (s : State) (fn w : Nat) : Nat := maskOf 32 (fun i => tget false s.msix.pba (fn * 2048 + 32 * w + i))

/-- A BAR0 read by a function: the state and the data (R8, R249, R397, R449-R451). (DEDUCED, log entry 48) -/
def State.busRead (s : State) (fn off : Nat) : State × Nat :=
  let t := busTarget fn off
  if !s.answers t then (s, 0)
  else match t with
    | .reg l => s.readReg fn l 0xFFFFFFFF
    | .latch k =>
      let r := s.latchAcquire k fn 0 0 0
      (r.1, r.2.toNat)
    | .vector v dw => (s, s.vectorRd fn v dw)
    | .pba w => (s, s.pbaRd fn w)
    | .none => (s, 0)

/-! ### BAR4 and configuration space (R2, R338, R340) -/

/-- A doubleword of the PF's BAR4: the MSI-X table at 0x0000 and the PBA at 0x8000 (R338). Outside them, and in a VF, which
has no BAR4, it reads zero. (PRESUMED, log entry 64) -/
def State.bar4Read (s : State) (fn off : Nat) : Nat :=
  if fn ≠ 0 then 0
  else if off < 0x8000 then s.vectorRd 0 (off / 16) (off / 4 % 4)
  else if off < 0x8100 then s.pbaRd 0 ((off - 0x8000) / 4)
  else 0

/-- The address bits of a base address register that hold no address, by its offset in a type 0 header: 64 MiB, 16 GiB,
64 KiB (R338). (PRESUMED, log entry 64) -/
def barSize (off : Nat) : Nat :=
  if off = 0x10 then 2 ^ 26 else if off = 0x18 then 2 ^ 34 else if off = 0x20 then 2 ^ 16 else 0

/-- The type bits of a base address register: 64-bit, and prefetchable for BAR2. (PRESUMED, log entry 64) -/
def barType (off : Nat) : Nat := if off = 0x18 then 0xC else 0x4

/-- A doubleword of a function's configuration space (R2, R338, R339). (PRESUMED, log entry 64) -/
def State.cfgVal (s : State) (fn off : Nat) : BitVec 32 :=
  let o := off / 4 * 4
  let base := tget 0 s.cfg.bars (fn * 4096 + o)
  if o = 0x00 then (if fn = 0 then 0x88101F3C else 0xFFFFFFFF)
  else if o = 0x08 then 0x12000001
  else if fn = 0 ∧ (o = 0x10 ∨ o = 0x18 ∨ o = 0x20) then base ||| BitVec.ofNat 32 (barType o)
  else if fn = 0 ∧ (o = 0x14 ∨ o = 0x1C ∨ o = 0x24) then base
  else if fn = 0 ∧ o = Config.pcieCap + 8 then BitVec.ofNat 32 (s.cfg.mps.toNat * 2 ^ 5 + s.cfg.mrrs.toNat * 2 ^ 12)
  else if fn = 0 ∧ o = Config.pcieCap + 0x10 then BitVec.ofNat 32 (s.cfg.gen * 2 ^ 16 + s.cfg.width * 2 ^ 20)
  else if fn = 0 ∧ o = Config.sriovCap + 0x0C then 0x00100010
  else if fn = 0 ∧ o = Config.sriovCap + 0x14 then 0x00010001
  else if fn = 0 ∧ o = Config.sriovCap + 0x18 then 0x88110000
  else Config.cfgSpace (fn * 4096 + o)

/-! ### Host reads -/

/-- One doubleword of a host read (R8, R338). (DESIGN CHOICE, log entry 58) -/
def State.spaceRead (s : State) (sp : HostSpace) (fn off : Nat) : State × Nat :=
  match sp with
  | .bar0 => s.busRead fn off
  | .bar4 => (s, if s.ready then s.bar4Read fn off else 0)
  | .cfg => (s, (s.cfgVal fn off).toNat)

/-- A host read of one doubleword with byte enables; without a link nothing arrives. -/
def State.hostRead (s : State) (sp : HostSpace) (fn off be : Nat) : State :=
  if s.pcieUp then
    let r := s.spaceRead sp fn off
    r.1.emit (.regData (BitVec.ofNat 32 (enabled be r.2)))
  else s

/-- Reads of doublewords in ascending address order (R7, R449). -/
def State.hostReadAll : List (BitVec 4) → HostSpace → Nat → Nat → State → State
  | [], _, _, _, s => s
  | be :: bes, sp, fn, off, s => State.hostReadAll bes sp fn (off + 4) (s.hostRead sp fn off be.toNat)

/-- A host read: one of n doublewords is n 32-bit reads, the lowest address first (R7, R449). -/
def State.hostReadForm (s : State) (fn off : Nat) (form : ReadForm) : State :=
  State.hostReadAll form.more form.space fn (off + 4) (s.hostRead form.space fn off form.be.toNat)

/-! ### Commands -/

/-- REGISTER_READ (R7, R9). -/
def execRegisterRead (fn : Fin 17) (off : BitVec 26) (form : ReadForm) (s : State) : Host.Outcome State Fault Refusal :=
  .next (s.hostReadForm fn.val off.toNat form).finish

/-- DIAG_POP (R201). -/
def execDiagPop (be : BitVec 4) (s : State) : Host.Outcome State Fault Refusal :=
  .next (s.hostRead .bar0 0 (sqOff 0x90) be.toNat).finish

/-- LTB_WIN_READ (R249). -/
def execLtbWinRead (fn : Fin 17) (latch : Fin 4096) (s : State) : Host.Outcome State Fault Refusal :=
  .next (s.hostRead .bar0 fn.val ((if fn.val = 0 then 0x240000 else 0x10000) + 4 * latch.val) 15).finish

end Sys2Proof.Machine
end

