-- ==== Sys2Proof/Machine/RegWrite.lean ====
section
/-! DEFINITION. Register writes (R8-R12, R376, R449-R452, R457): which values are refused, when a block runs, how each
field takes a write, what a write sets going; and the rows that are writes of one register. -/

namespace Sys2Proof.Machine

/-! ### Running blocks -/

/-- A Silt queue's using block runs (R204). -/
def State.sqRunning (s : State) (q : Nat) : Bool :=
  match siltClass q with
  | some 1 => s.dirUp (q / 8)
  | some 2 => s.qpOn (q - 192)
  | some 3 => s.pfpOn (q - 256)
  | some 4 => s.qpOn (q - 272)
  | _ => s.anyGraph

/-- Some queue of a class runs. -/
def State.classRunning (s : State) (c : Nat) : Bool :=
  if c = 0 then s.anyGraph
  else if c = 1 then s.links.any (fun l => l.up)
  else if c = 3 then (List.range 16).any s.pfpOn
  else (List.range 64).any s.qpOn

/-- A port is armed or running. -/
def State.pfpBusy (s : State) (p : Nat) : Bool := (s.port p).state == .armed || (s.port p).state == .running

/-- The using block of a Locked or Boundary field runs (R378 where a chapter gives no condition). (DEDUCED, log
entry 47) -/
def State.running (s : State) (l : Loc) (lsb : Nat) : Bool :=
  let k := l.idx
  match l.row.id with
  | .fabHomeMap | .fabCdtBase | .lmFreelistBase | .lmIsdBase | .lmIsdCount | .lmMsHashSeedLo | .lmMsHashSeedHi => s.anyGraph
  | .sqClsCfg => s.classRunning k
  | .sqCtrl => s.sqRunning s.sqSel
  | .tmpRptBaseLo | .tmpRptBaseHi => s.flag (tmpOff 0x68) 0
  | .tmpParkBase | .tmpParkSize => (s.graph k).state == .parked || (s.graph k).parking
  | .bmvChCtrl | .bmvChOwner | .bmvChDlistLo | .bmvChDlistHi => (s.chan k).active
  | .pfpOwner | .pfpGraph | .pfpHandlerLo | .pfpHandlerHi => s.pfpOn k
  | .pfpTiming | .pfpUnderrun => s.pfpBusy k
  | .pfpCfg => if lsb = 3 then s.pfpBusy k else s.pfpOn k
  | .pfpBurst => if lsb = 0 then s.pfpBusy k else s.pfpOn k
  | .qpSqBaseLo | .qpSqBaseHi | .qpCqBaseLo | .qpCqBaseHi | .qpSize | .qpCtrl => s.qpOn l.inst
  | .twkCtrl => (s.twk k).up
  | .hostPkgId => s.tws.any (fun t => t.up)
  | .tbLoadLo | .tbLoadHi => s.flag (epochOff 0) 2
  | .pwrGov => !s.fenced k
  | _ => s.ready

/-! ### Refused writes (R10) -/

/-- A vector at or above the count of the function that owns the object (R340). -/
def State.vectorBad (s : State) (l : Loc) (p : Nat) : Bool :=
  match l.row.id with
  | .bmvChCtrl => decide (vecCount (s.bmvOwner l.idx) ≤ bitsOf p 8 11)
  | .pfpGraph => decide (vecCount (s.pfpOwner l.idx) ≤ bitsOf p 8 11)
  | .qpCtrl => decide (vecCount (qpFn l.inst) ≤ bitsOf p 5 11)
  | _ => false

/-- A second error ring of a function (R367). -/
def State.secondErrRing (s : State) (q p : Nat) : Bool :=
  bitOf p 4 && (List.range 64).any (fun r => r != q && qpFn r == qpFn q && s.flag (Sys2Proof.Machine.qpOff r 0x14) 4)

/-- A value refused in the present state; `p` is the value that the register would hold, `mask` the bits written. -/
def State.dynBad (s : State) (l : Loc) (p mask : Nat) : Bool :=
  let k := l.idx
  let on (i : Nat) : Bool := bitOf mask i && bitOf p i
  match l.row.id with
  | .fabHomeMap => s.fenced (bitsOf p 0 3)
  | .lmIsdCount => decide (8388608 < s.fld (lmOff l.inst 0x204) 0 23 + 8 * bitsOf p 0 20)
  | .lmBankCtrl => bitOf mask 0 && (s.bankRefused (256 * l.inst + k) (bitsOf p 0 2)).isSome
  | .hmemBankCtrl => bitOf mask 0 && (s.bankRefused (0x600 + k) (bitsOf p 0 2)).isSome
  | .qpCtrl => s.vectorBad l p || s.secondErrRing l.inst p
  | .qpCqHead => decide (s.cqSize l.inst ≤ bitsOf p 0 12)
  | .epochCfg => on 2 && s.armRefused
  | .pwrDomCtrl => bitOf mask 0 && s.domRefused k (bitOf p 0)
  | .erqRd => decide (s.erq.pending < (bitsOf p 0 8 + 256 - s.erq.rd.toNat) % 256)
  | .startCtrl => on 0 && s.start.state != 2 && s.start.state != 3
  | .mcRbBurn => s.burnRefused (bitsOf p 0 7)
  | .mcPssCtrl => on 0 && s.blend.revert.isSome
  | _ => s.vectorBad l p

/-! ### Fields (R9, R12, R376) -/

/-- Fields that a structure of the device holds, or that act when written: the generic write leaves them to `act`. -/
def ownField (id : RegId) (lsb : Nat) : Bool :=
  match id with
  | .sqCtrl | .sqStatus | .lmBankCtrl | .hmemBankCtrl | .qpSqTail | .qpCqHead | .pwrDomCtrl | .erqRd | .idCfgReject => true
  | .pfpCfg => lsb == 0
  | .qpCtrl => lsb == 0
  | _ => false

/-- The value in effect of a register with its pending shadow over it: what a further write of one field joins. -/
def State.merged (s : State) (l : Loc) : Nat :=
  match tfind s.shadows l.off with
  | some x => ((BitVec.ofNat 32 (s.regVal 0 l) &&& ~~~x.mask) ||| (x.val &&& x.mask)).toNat
  | none => s.regVal 0 l

/-- A pending shadow loses a field that is written at once (R376). -/
def State.dropShadow (s : State) (off mask : Nat) : State :=
  match tfind s.shadows off with
  | none => s
  | some x =>
    let m := x.mask &&& ~~~(BitVec.ofNat 32 mask)
    { s with shadows := if m = 0 then tdel s.shadows off else tins s.shadows off { x with mask := m } }

/-- A Boundary write while the block runs goes to the shadow. -/
def State.addShadow (s : State) (off mask v : Nat) : State :=
  let n : Shadow := { val := BitVec.ofNat 32 v, mask := BitVec.ofNat 32 mask }
  { s with shadows := tins s.shadows off (match tfind s.shadows off with | some o => n.over o | none => n) }

/-- A field of a write is discarded as Locked: `s0` is the state that the write is judged in (R12). -/
def State.lockedOut (s0 : State) (l : Loc) (v : Nat) (f : Field) : Bool :=
  f.acc == .rw && f.cls == .locked && bitsOf v f.lsb f.width != bitsOf (s0.regVal 0 l) f.lsb f.width && s0.running l f.lsb

/-- One field takes its part of a write. -/
def State.putField (s0 : State) (l : Loc) (v : Nat) (s : State) (f : Field) : State :=
  if ownField l.row.id f.lsb || s0.lockedOut l v f then s
  else match f.acc, f.cls with
    | .rw, .boundary =>
      if s0.running l f.lsb then s.addShadow l.off f.mask v
      else (s.setFld l.off f.lsb f.width (bitsOf v f.lsb f.width)).dropShadow l.off f.mask
    | .rw, _ => s.setFld l.off f.lsb f.width (bitsOf v f.lsb f.width)
    | .w1c, _ => s.setFld l.off f.lsb f.width
        (Nat.land (s.fld l.off f.lsb f.width) (2 ^ f.width - 1 - bitsOf v f.lsb f.width))
    | _, _ => s

/-! ### What a write sets going -/

/-- A word queue enters or leaves DIAG mode (R201): its Drip timer stops, or starts again while an entry is visible.
(DEDUCED, log entry 63) -/
def State.queueDiag (s : State) (q cls : Nat) (on : Bool) : State :=
  let x := s.queue q
  let start := !on && decide (0 < x.visible (s.cutThr cls)) && decide (s.dripNs cls ≠ 0)
  if on = x.diag then s
  else s.setQueue q { x with diag := on, drip := if start then some (s.clk.edges + s.dripNs cls) else none,
                             dripTaken := false }

/-- The queue that SQ_SEL names takes a write of SQ_CTRL (R200, R201): lanes are never flushed. -/
def State.sqControl (s : State) (v : Nat) (diagOk : Bool) : State :=
  let q := s.sqSel
  match siltClass q with
  | some c =>
    let s1 := if diagOk then s.queueDiag q c (bitOf v 0) else s
    if bitOf v 1 then (if c = 3 then s1.flushFail (q - 256) else s1.siltFlush q c) else s1
  | none => match laneOfQueue q with
    | some k => if diagOk then s.setLane k { s.lane k with diag := bitOf v 0 } else s
    | none => s

/-- underrun of the selected queue is cleared. -/
def State.clearUnderrun (s : State) : State :=
  let q := s.sqSel
  match siltClass q with
  | some _ => s.setQueue q { s.queue q with underrun := false }
  | none => match laneOfQueue q with
    | some k => s.setLane k { s.lane k with underrun := false }
    | none => s

/-- A write of a bank's control register: auto_wake where the bank has it, and the request (R228, R229, R250, R251). -/
def State.bankWrite (s : State) (b p mask : Nat) : State :=
  let aw := match bankKind b with | some .frame => true | some .scratch => true | _ => false
  let s1 := if aw && bitOf mask 2 then s.setBank b { s.bank b with autoWake := bitOf p 2 } else s
  if bitOf mask 0 then s1.bankAsk b (bitsOf p 0 2) else s1

/-- A doorbell (R346). (DEDUCED, log entry 33) -/
def State.doorbell (s : State) (q v : Nat) : State :=
  if s.qpOn q && decide (v < s.sqSize q) then s.setQp q { s.qp q with tail := v }
  else (s.setFld (Sys2Proof.Machine.qpOff q 0x28) 0 1 1).err 0 0 6 (Sys2Proof.Machine.qpOff q 0x28) 0 0 (qpFn q) q v

/-- A write of ERQ_RD acknowledges records (R405). -/
def State.ackErrors (s : State) (v : Nat) : State :=
  { s with erq := { s.erq with rd := BitVec.ofNat 8 v, pending := s.erq.pending - (v + 256 - s.erq.rd.toNat) % 256 } }

/-- A handler register that takes effect at once begins a new record numbering (R305). -/
def State.handlerWritten (s : State) (p : Nat) : State := s.updPort p (fun x => { x with recSeq := 0 })

/-- The port's enable bit (R278, R301); that of a bond member other than the lowest has no effect (R309). -/
def State.pfpEnable (s : State) (p : Nat) (on was : Bool) : State :=
  let s1 := s.setFld (pfpOff p 0x04) 0 1 (b2n on)
  if on == was || s1.pfpLead p != p then s1
  else if on then s1.portEnable p else s1.portDisable p

/-- The pair's enable bit (R349). -/
def State.pairEnable (s : State) (q : Nat) (on was : Bool) : State :=
  let s1 := s.setFld (Sys2Proof.Machine.qpOff q 0x14) 0 1 (b2n on)
  if on == was then s1 else if on then s1.qpEnable q else s1.qpDisable q

/-- A burn of the rollback counter begins (R419). -/
def State.burn (s : State) (t : Nat) : State := { s with blend := { s.blend with burning := some t } }

/-- START_CTRL (R402, R406). -/
def State.startControl (s : State) (v mask : Nat) : State :=
  let s1 := if bitOf mask 0 && bitOf v 0 then { s with start := { s.start with due := some 5 } } else s
  if bitOf mask 1 && bitOf v 1 then { s1 with start := s1.start.clear } else s1

/-- What the write of a register does beyond its stored fields; `s0` is the state that the write is judged in, `mask` the
bits written, `rej` the mask of its discarded Locked fields. -/
def State.act (s s0 : State) (l : Loc) (v mask rej fn : Nat) : State :=
  let k := l.idx
  match l.row.id with
  | .d2dLnkCtrl =>
    if bitOf mask 1 && bitOf v 1 then
      let a := s.setDir (2 * l.inst) { s.dir (2 * l.inst) with inject := true }
      a.setDir (2 * l.inst + 1) { a.dir (2 * l.inst + 1) with inject := true }
    else s
  | .lmIsdCount => if s0.anyGraph then s else s.updDie l.inst (Die.buildPool (bitsOf v 0 20))
  | .lmBankCtrl => s.bankWrite (256 * l.inst + k) v mask
  | .hmemBankCtrl => s.bankWrite (0x600 + k) v mask
  | .sqCtrl => s.sqControl v (bitOf mask 0 && !bitOf rej 0)
  | .sqStatus => if bitOf mask 1 && bitOf v 1 then s.clearUnderrun else s
  | .tmpClass => s.syncAll
  | .bmvChDbell => s.bmvRing k (bitsOf v 0 13)
  | .pfpCfg => if bitOf mask 0 then s.pfpEnable k (bitOf v 0) (s0.pfpOn k) else s
  | .pfpHandlerLo => if s0.pfpOn k then s else s.handlerWritten k
  | .qpCtrl => if bitOf mask 0 then s.pairEnable l.inst (bitOf v 0) (s0.qpOn l.inst) else s
  | .qpSqTail => s.doorbell l.inst (bitsOf v 0 12)
  | .qpCqHead =>
    let s1 := s.setQp l.inst { s.qp l.inst with cqHead := bitsOf v 0 12 }
    if (s1.qp l.inst).writing then s1.ringWrite l.inst else s1
  | .pwrDomCtrl => if bitOf mask 0 then (s.setDom k { s.dom k with req := bitOf v 0 }).domFollow k else s
  | .erqRd => s.ackErrors (bitsOf v 0 8)
  | .startCtrl => s.startControl v mask
  | .mcRbBurn => s.burn (bitsOf v 0 7)
  | .mcPssCtrl => if bitOf mask 0 && bitOf v 0 then s.pssCommit else s
  | .idCfgReject =>
    let bits := Nat.land (Nat.land v mask) 0xFFFFE
    { s with cfgReject := tput 0 s.cfgReject fn (tget 0 s.cfgReject fn - Nat.land (tget 0 s.cfgReject fn) bits) }
  | _ => s

/-! ### A write -/

/-- The outcome of a register write. -/
inductive WriteAns where
  | done | refused | locked
deriving DecidableEq, Repr

/-- cfg_reject of a block in the PF view, and in the view of a VF that wrote (R457). -/
def State.rejectBit (s : State) (fn code : Nat) : State :=
  let set (t : State) (view : Nat) : State :=
    { t with cfgReject := tput 0 t.cfgReject view (Nat.lor (tget 0 t.cfgReject view) (2 ^ code)) }
  let s1 := set s 0
  if fn = 0 then s1 else set s1 fn

/-- A write of the bits of a mask of a register by a function. A refused value has no effect; the caller records it. -/
def State.writeReg (s : State) (fn : Nat) (l : Loc) (v mask : Nat) : State × WriteAns :=
  let p := Nat.lor (Nat.land v mask) (s.merged l - Nat.land (s.merged l) mask)
  if Nat.land (Nat.land v mask) l.row.refused != 0 || staticBad l p || s.dynBad l p mask then (s, .refused)
  else
    let fs := l.row.fields.filter (fun f => Nat.land mask f.mask != 0)
    let rej := (fs.filter (s.lockedOut l v)).foldl (fun a f => a + f.mask) 0
    let s1 := fs.foldl (State.putField s l v) s
    let s2 := s1.act s l v mask rej fn
    if rej = 0 then (s2, .done) else ((s2.rejectBit fn l.row.code).refuseWrite fn l.off, .locked)

/-- The register is closed to writes of a function: a VF's pairs to the PF (R452), a downed die's block (R450). -/
def State.closed (s : State) (fn : Nat) (l : Loc) : Bool :=
  (fn == 0 && l.row.code == 13 && decide (32 ≤ l.inst)) || (l.row.code == 4 && !(s.die l.inst).up)

/-- A vector is unmasked: what its PBA bit holds is sent (R340). -/
def State.unmask (s : State) (fn vec : Nat) : State :=
  let key := fn * 2048 + vec
  let s1 := { s with msix := { s.msix with unmasked := tput false s.msix.unmasked key true } }
  if tget false s.msix.pba key then
    { s1 with msix := { s1.msix with pba := tput false s1.msix.pba key false } }.emit (.msix fn vec)
  else s1

/-- A doubleword of an MSI-X table is written (R340, R451): doubleword 3 masks or unmasks. (DESIGN CHOICE, log entry 52) -/
def State.writeVector (s : State) (fn vec dw v : Nat) : State :=
  let key := fn * 2048 + vec
  if dw = 3 then
    (if bitOf v 0 then { s with msix := { s.msix with unmasked := tput false s.msix.unmasked key false } }
     else s.unmask fn vec)
  else { s with msix := { s.msix with table := tput 0 s.msix.table (key * 4 + dw) (BitVec.ofNat 32 v) } }

/-- The bytes of a value that byte enables carry, over an old value. -/
def overlay (be old v : Nat) : Nat := enabled be v + enabled (15 - be) old

/-- A doubleword of an MSI-X table takes the bytes that byte enables carry. That a partial write merges, and queues no
record, is the model's choice: R8 speaks of registers. (DESIGN CHOICE, log entry 52) -/
def State.vectorWr (s : State) (fn vec dw v be : Nat) : State :=
  s.writeVector fn vec dw (overlay be (s.vectorRd fn vec dw) v)

/-- A BAR0 write by a function (R8, R10, R249, R397, R449-R452). (DEDUCED, log entry 48) (DESIGN CHOICE, log entry
52) -/
def State.busWrite (s : State) (fn off v be : Nat) : State :=
  let t := busTarget fn off
  let o := off / 4 * 4
  if !s.answers t then s
  else match t with
    | .none => s.refuseWrite fn o
    | .pba _ => s
    | .vector vec dw => s.vectorWr fn vec dw v be
    | .latch k => if be = 15 then (s.latchRelease k fn).1 else s.err 0 2 6 (0x240000 + 4 * k) 0 0 fn 0 0
    | .reg l =>
      if be ≠ 15 then s.err 0 2 (if l.row.code = 4 then l.inst else 6) l.off 0 0 fn 0 0
      else if s.closed fn l then s.refuseWrite fn l.off
      else match s.writeReg fn l v 0xFFFFFFFF with
        | (_, .refused) => s.refuseWrite fn l.off
        | (s1, _) => s1

/-- A write of the PF's BAR4: its MSI-X table (R338, R340). (DESIGN CHOICE, log entry 52) -/
def State.bar4Write (s : State) (fn off v be : Nat) : State :=
  if fn = 0 && s.ready && decide (off < 0x8000) then s.vectorWr 0 (off / 16) (off / 4 % 4) v be else s

/-- A write of configuration space: the base addresses, and the sizes programmed in Device Control (R338, R339).
(PRESUMED, log entry 64) -/
def State.cfgWrite (s : State) (fn off v be : Nat) : State :=
  let o := off / 4 * 4
  let w := overlay be (s.cfgVal fn o).toNat v
  let put (x : Nat) : State := { s with cfg := { s.cfg with bars := tput 0 s.cfg.bars (fn * 4096 + o) (BitVec.ofNat 32 x) } }
  if fn ≠ 0 then s
  else if o = 0x10 ∨ o = 0x18 ∨ o = 0x20 then put (w / barSize o * barSize o)
  else if o = 0x14 ∨ o = 0x1C ∨ o = 0x24 then put (w / (barSize (o - 4) / 2 ^ 32 + 1) * (barSize (o - 4) / 2 ^ 32 + 1))
  else if o = Config.pcieCap + 8 then
    { s with cfg := { s.cfg with mps := BitVec.ofNat 3 (w / 2 ^ 5), mrrs := BitVec.ofNat 3 (w / 2 ^ 12) } }
  else s

/-- One doubleword of a host write (R8, R338); without a link nothing arrives. (DESIGN CHOICE, log entry 58) -/
def State.spaceWrite (s : State) (sp : HostSpace) (fn off v be : Nat) : State :=
  match sp with
  | .bar0 => s.busWrite fn off v be
  | .bar4 => if s.pcieUp then s.bar4Write fn off v be else s
  | .cfg => if s.pcieUp then s.cfgWrite fn off v be else s

/-- Writes of doublewords in ascending address order (R7, R449). -/
def State.hostWriteAll : List (BitVec 32 × BitVec 4) → HostSpace → Nat → Nat → State → State
  | [], _, _, _, s => s
  | (v, be) :: xs, sp, fn, off, s => State.hostWriteAll xs sp fn (off + 4) (s.spaceWrite sp fn off v.toNat be.toNat)

/-- A host write: one of n doublewords is n 32-bit writes, the lowest address first (R7, R449), and a poisoned one is
discarded (R341). -/
def State.hostWriteForm (s : State) (fn off v : Nat) (form : WriteForm) : State :=
  if form.ep then (if s.pcieUp then s.aer aerPoison else s)
  else
    State.hostWriteAll form.more form.space fn (off + 4) (s.spaceWrite form.space fn off v form.be.toNat)

/-- A full-width write of a register by the PF. -/
def State.pfWrite (s : State) (off v : Nat) : State := s.busWrite 0 off v 15

/-- A full-width write of a register of a queue pair by a function; the PF names it in its own map, a VF in its subset. -/
def State.qpWrite (s : State) (fn q o v : Nat) : State :=
  if fn = 0 then s.busWrite 0 (Sys2Proof.Machine.qpOff q o) v 15
  else if qpFn q = fn then s.busWrite fn (0x1000 + 0x40 * (q % 2) + o) v 15
  else s

/-! ### Commands -/

/-- REGISTER_WRITE (R7, R12, R341). -/
def execRegisterWrite (fn : Fin 17) (off : BitVec 26) (v : BitVec 32) (form : WriteForm) (s : State) :
    Host.Outcome State Fault Refusal := .next (s.hostWriteForm fn.val off.toNat v.toNat form).finish

/-- CRC_INJECT (R43). (DEDUCED, log entry 31) -/
def execCrcInject (link : Fin 12) (v : BitVec 32) (s : State) : Host.Outcome State Fault Refusal :=
  .next (s.pfWrite (lnkOff link.val 4) v.toNat).finish

/-- FLUSH (R200). -/
def execFlush (v : BitVec 32) (s : State) : Host.Outcome State Fault Refusal := .next (s.pfWrite (sqOff 0x8C) v.toNat).finish

/-- LTB_WIN_WRITE (R249). -/
def execLtbWinWrite (fn : Fin 17) (latch : Fin 4096) (be : BitVec 4) (s : State) : Host.Outcome State Fault Refusal :=
  .next (s.busWrite fn.val ((if fn.val = 0 then 0x240000 else 0x10000) + 4 * latch.val) 0 be.toNat).finish

/-- BANK_REQUEST (R228). -/
def execBankRequest (bank : Nat) (v : BitVec 32) (s : State) : Host.Outcome State Fault Refusal :=
  .next (if (bankKind bank).isSome then s.pfWrite (bankReg bank) v.toNat else s).finish

/-- ISD_POOL_BUILD (R61). -/
def execIsdPoolBuild (die : Fin 6) (v : BitVec 32) (s : State) : Host.Outcome State Fault Refusal :=
  .next (s.pfWrite (lmOff die.val 0x208) v.toNat).finish

/-- BMV_DOORBELL (R260). -/
def execBmvDoorbell (ch : Fin 32) (v : BitVec 32) (s : State) : Host.Outcome State Fault Refusal :=
  .next (s.pfWrite (bmvOff ch.val 0x10) v.toNat).finish

/-- QP_SQ_TAIL (R346). -/
def execQpSqTail (fn : Fin 17) (qp : Fin 64) (v : BitVec 32) (s : State) : Host.Outcome State Fault Refusal :=
  .next (s.qpWrite fn.val qp.val 0x18 v.toNat).finish

/-- QP_CQ_HEAD (R348). -/
def execQpCqHead (fn : Fin 17) (qp : Fin 64) (v : BitVec 32) (s : State) : Host.Outcome State Fault Refusal :=
  .next (s.qpWrite fn.val qp.val 0x24 v.toNat).finish

/-- QUEUE_PAIR_ENABLE (R349). -/
def execQueuePairEnable (fn : Fin 17) (qp : Fin 64) (v : BitVec 32) (s : State) : Host.Outcome State Fault Refusal :=
  .next (s.qpWrite fn.val qp.val 0x14 (v ||| 1).toNat).finish

/-- QUEUE_PAIR_DISABLE (R349). -/
def execQueuePairDisable (fn : Fin 17) (qp : Fin 64) (v : BitVec 32) (s : State) : Host.Outcome State Fault Refusal :=
  .next (s.qpWrite fn.val qp.val 0x14 (v &&& ~~~1).toNat).finish

/-- ERQ_RD (R405). -/
def execErqRd (v : BitVec 32) (s : State) : Host.Outcome State Fault Refusal := .next (s.pfWrite (erqOff 4) v.toNat).finish

/-- TB_ARM (R371). -/
def execTbArm (v : BitVec 32) (s : State) : Host.Outcome State Fault Refusal := .next (s.pfWrite (epochOff 0) v.toNat).finish

/-- RB_BURN (R419). -/
def execRbBurn (v : BitVec 32) (s : State) : Host.Outcome State Fault Refusal := .next (s.pfWrite (mcOff 0x34) v.toNat).finish

/-- PSS_COMMIT (R426). -/
def execPssCommit (v : BitVec 32) (s : State) : Host.Outcome State Fault Refusal := .next (s.pfWrite (mcOff 0x40) v.toNat).finish

/-- DOMAIN_REQUEST (R383). -/
def execDomainRequest (dom : Fin 80) (v : BitVec 32) (s : State) : Host.Outcome State Fault Refusal :=
  .next (s.pfWrite (pwrOff (0x100 + 4 * dom.val)) v.toNat).finish

/-- PORT_ENABLE (R278). -/
def execPortEnable (port : Fin 16) (v : BitVec 32) (s : State) : Host.Outcome State Fault Refusal :=
  .next (s.pfWrite (pfpOff port.val 4) (v ||| 1).toNat).finish

/-- PORT_DISABLE (R301). -/
def execPortDisable (port : Fin 16) (v : BitVec 32) (s : State) : Host.Outcome State Fault Refusal :=
  .next (s.pfWrite (pfpOff port.val 4) (v &&& ~~~1).toNat).finish

/-- START_CTRL_RESTART (R406). -/
def execStartCtrlRestart (v : BitVec 32) (s : State) : Host.Outcome State Fault Refusal :=
  .next (s.pfWrite (startOff 4) (v ||| 1).toNat).finish

/-- MSI_X_UNMASK (R340). -/
def execMsiXUnmask (fn : Fin 17) (vec : Nat) (s : State) : Host.Outcome State Fault Refusal :=
  .next (if vec < vecCount fn.val then s.unmask fn.val vec else s).finish

end Sys2Proof.Machine
end

