-- ==== Sys2Proof/Machine/Bars.lean ====
section
/-! DEFINITION. The BAR2 window of the global word space (R36, R38, R40, R235, R238, R293, R344), and the rows of the
Block Mover (R260-R270). -/

namespace Sys2Proof.Machine

/-! ### The BAR2 window -/

/-- The bytes that BAR2 maps (R40). -/
def bar2Size : Nat := 2 ^ 34

/-- The global word of a BAR2 byte offset (R344). -/
def State.bar2Word (s : State) (off : Nat) : Nat := s.fld (hostOff 0) 0 5 * 2 ^ 31 + off / 8

/-- A host read of a word is refused (R36). -/
def State.bar2RdRefused (s : State) (a : Nat) : Bool :=
  match s.kindOf a with
  | .reserved => true
  | .frame n _ => s.fenced n || !(s.die n).up
  | _ => false

/-- A host write of a word is refused (R36, R38, R238, R293). -/
def State.bar2WrRefused (s : State) (a : Nat) : Bool :=
  match s.kindOf a with
  | .ddr x => decide (s.carve ≤ x)
  | .frame n _ => s.fenced n || !(s.die n).up
  | .scratch _ => false
  | .pour o => (s.port (o / 0x40000)).state != .disabled && (s.port (o / 0x40000)).state != .idle
  | _ => true

/-- The host reads one word (R238). -/
def State.bar2RdWord (s : State) (a : Nat) : State × PWord :=
  if s.bar2RdRefused a then (s.unreported 2 0 6 0 0 a, PWord.zero) else s.idleRd 0 a

/-- The host writes one word. -/
def State.bar2WrWord (s : State) (a : Nat) (w : PWord) : State :=
  if s.bar2WrRefused a then s.unreported 2 1 6 0 0 a else s.idleWr a w none

/-- The numbers of the containers that a byte range touches, relative to its first. -/
def containers (off len : Nat) : List Nat := if len = 0 then [] else List.range ((off % 8 + len - 1) / 8 + 1)

/-- The words of a read, in address order. -/
def State.bar2Words (s : State) (off len : Nat) : State × List PWord :=
  (containers off len).foldl (fun r k =>
    let x := r.1.bar2RdWord (s.bar2Word off + k)
    (x.1, r.2 ++ [x.2])) (s, [])

/-- A read of a byte range: the container bytes, with the EP bit when a word is poisoned (R40, R344); zeros while the
device is not ready (R397). (DEDUCED, log entry 48) -/
def State.bar2Read (s : State) (off len : Nat) : State :=
  if !s.pcieUp || decide (bar2Size < off + len) then s
  else if !s.ready then s.emit (.bar2Data (List.replicate len 0) false)
  else
    let r := s.bar2Words off len
    let bs := (r.2.map (fun w => leBytes 8 w.v.toNat)).flatten
    (r.1.emit (.bar2Data (slice bs (off % 8) len) (r.2.any (fun w => w.p)))).bmvGoOn

/-- Bytes 0-4 of the container k of a write; none where its byte enable is 0. -/
def laneBytes (off : Nat) (data : List (Option Byte)) (k : Nat) : List (Option Byte) :=
  (List.range 5).map (fun i => if 8 * k + i < off % 8 then none else lget none data (8 * k + i - off % 8))

/-- One container of a write (R344). -/
def State.bar2WrLanes (s : State) (a : Nat) (ls : List (Option Byte)) (ep : Bool) : State :=
  if ls.all (fun b => b.isSome) then
    s.bar2WrWord a { v := BitVec.ofNat 36 (leNat (ls.map (fun b => b.getD 0))), p := ep }
  else if ls.all (fun b => b.isNone) then s
  else s.unreported 3 1 6 0 0 a

/-- A write of a byte range; one that arrives poisoned stores poisoned words (R341). (DEDUCED, log entry 48) -/
def State.bar2Write (s : State) (off : Nat) (data : List (Option Byte)) (ep : Bool) : State :=
  if !s.pcieUp || !s.ready || decide (bar2Size < off + data.length) then s
  else
    (containers off data.length).foldl
      (fun t k => t.bar2WrLanes (s.bar2Word off + k) (laneBytes off data k) ep)
      (if ep then s.aer aerPoison else s)

/-! ### Commands -/

/-- BAR2_READ (R344). -/
def execBar2Read (off : Nat) (len : Nat) (s : State) : Host.Outcome State Fault Refusal := .next (s.bar2Read off len).finish

/-- BAR2_WRITE (R344). -/
def execBar2Write (off : Nat) (data : List (Option Byte)) (ep : Bool) (s : State) : Host.Outcome State Fault Refusal :=
  .next (s.bar2Write off data ep).finish

/-- LIST_ENTRY_FETCH (R260). -/
def execListEntryFetch (ch : Fin 32) (data : HostData) (s : State) : Host.Outcome State Fault Refusal :=
  .next (s.bmvFetch ch.val data).finish

/-- BURST_GRANT (R263). -/
def execBurstGrant (s : State) : Host.Outcome State Fault Refusal := .next s.bmvGrant.finish

/-- BURST_READ_DONE (R262). -/
def execBurstReadDone (ch : Fin 32) (data : HostData) (s : State) : Host.Outcome State Fault Refusal :=
  .next (s.bmvBurst ch.val data).finish

/-- DESCRIPTOR_END (R265). -/
def execDescriptorEnd (ch : Fin 32) (s : State) : Host.Outcome State Fault Refusal := .next (s.bmvEnd ch.val).finish

end Sys2Proof.Machine
end

