-- ==== Sys2Proof/Machine/CmdCheck.lean ====
section
/-! DEFINITION. The Command Engine: packets (R350, R351), the checks of a command that need only its bytes, its sender and
the objects it names (R354 checks 1-7, R355, R356), and the fetch of a command (R347, R349). -/

namespace Sys2Proof.Machine

/-! ### Packets -/

def Cmd.op (c : Cmd) : Nat := fieldOf c.pkt 0 16
def Cmd.atBoundary (c : Cmd) : Bool := bitOf c.pkt.toNat 16
def Cmd.fence (c : Cmd) : Bool := bitOf c.pkt.toNat 17
def Cmd.tag (c : Cmd) : Nat := fieldOf c.pkt 32 16
def Cmd.scope (c : Cmd) : Nat := fieldOf c.pkt 48 16
def Cmd.kind (c : Cmd) : Nat := fieldOf c.pkt 48 4
def Cmd.index (c : Cmd) : Nat := fieldOf c.pkt 52 12

/-- Bits of the parameter bytes 0-47. -/
def Cmd.par (c : Cmd) (lo w : Nat) : Nat := fieldOf c.pkt (128 + lo) w

/-- The parameter bytes. -/
def Cmd.bytes (c : Cmd) : List Byte := leBytes 48 (c.par 0 384)

/-- A command's reply without a place among the open ones: a rejection, or DEFERRED_TO_BOUNDARY. -/
def State.answer (s : State) (c : Cmd) (status w0 w1 : Nat) : State :=
  s.pushReply c.qp (replyBytes status c.tag 0 c.op (.clean (BitVec.ofNat 36 w0)) (.clean (BitVec.ofNat 36 w1)) PWord.zero)

/-! ### The opcode table (R357) -/

/-- An opcode: code, PF only, AT_BOUNDARY allowed, and its named parameter fields (bit offset, width). -/
structure OpInfo where
  code : Nat
  pf : Bool
  boundary : Bool
  fields : List (Nat × Nat)
deriving DecidableEq, Repr

/-- An image or buffer source: address, length, No Snoop. -/
def srcFields : List (Nat × Nat) := [(0, 64), (64, 32), (96, 1)]

def opInfos : List OpInfo := [
  ⟨0x0001, false, false, []⟩, ⟨0x0002, false, false, [(0, 8)]⟩, ⟨0x0003, true, false, []⟩,
  ⟨0x0010, false, true, [(0, 32), (32, 8), (40, 8), (64, 32)]⟩, ⟨0x0011, false, false, [(0, 32), (32, 8), (40, 8)]⟩,
  ⟨0x0100, false, false, srcFields⟩,
  ⟨0x0101, false, true, [(0, 8), (8, 8), (16, 3), (32, 24), (64, 12), (80, 12), (96, 20), (128, 36), (192, 36), (255, 1),
    (256, 36), (319, 1), (320, 36), (383, 1)]⟩,
  ⟨0x0102, false, true, [(0, 8), (8, 1)]⟩, ⟨0x0103, false, true, [(0, 8)]⟩, ⟨0x0104, false, true, [(0, 8)]⟩,
  ⟨0x0105, false, false, [(0, 8), (8, 8), (64, 64), (128, 32)]⟩,
  ⟨0x0106, false, true, [(0, 8), (16, 16), (64, 64), (128, 256)]⟩,
  ⟨0x0200, false, false, [(0, 384)]⟩, ⟨0x0201, false, false, [(0, 8)]⟩,
  ⟨0x0202, true, true, [(0, 16), (16, 8)]⟩, ⟨0x0203, true, false, [(0, 16), (16, 16)]⟩,
  ⟨0x0300, false, true, [(0, 8), (16, 7), (32, 224)]⟩,
  ⟨0x0301, false, false, [(0, 8), (8, 8), (16, 8), (32, 32), (64, 36), (128, 48), (192, 64)]⟩,
  ⟨0x0302, true, false, [(0, 64), (64, 8)]⟩,
  ⟨0x0400, true, false, [(0, 192)]⟩, ⟨0x0401, true, false, [(0, 8), (64, 64), (128, 32), (192, 64), (256, 32)]⟩,
  ⟨0x0402, true, false, [(0, 96)]⟩,
  ⟨0x0500, true, false, srcFields⟩, ⟨0x0501, true, false, [(0, 8)]⟩, ⟨0x0502, true, false, [(0, 8), (8, 8), (64, 64)]⟩,
  ⟨0x0503, true, false, []⟩, ⟨0x0504, true, false, [(0, 64), (64, 32)]⟩, ⟨0x0505, true, false, []⟩,
  ⟨0x0506, true, false, [(0, 64), (64, 32), (96, 32)]⟩,
  ⟨0x0600, true, false, [(0, 8), (8, 8), (32, 32), (64, 32), (128, 64)]⟩]

def Cmd.info (c : Cmd) : Option OpInfo := opInfos.find? (fun o => o.code == c.op)

/-! ### Reserved parameter bits (R357) -/

/-- A parameter with the bits of some fields cleared. -/
def clearFields (x : Nat) (fs : List (Nat × Nat)) : Nat := fs.foldl (fun a f => setField a f.1 f.2 0) x

/-- The reserved bits of the k-th inline token (R363). -/
def tokenReserved (c : Cmd) (k : Nat) : Bool := c.par (128 * (k + 1) + 61) 3 != 0 || c.par (128 * (k + 1) + 104) 23 != 0

/-- Zero fields of KAO_MEASURE that depend on the type (R318). -/
def measureReserved (c : Cmd) : Bool :=
  if c.par 0 8 = 3 then c.par 11 5 != 0 || c.par 18 6 != 0 || c.par 24 8 != 0 || c.par 64 32 != 0
  else if c.par 0 8 = 1 ∨ c.par 0 8 = 2 then c.par 13 2 != 0 || c.par 21 2 != 0
  else false

/-- Zero fields of KAO_READ_RECORDS that depend on the mode (R326). -/
def recordsReserved (c : Cmd) : Bool :=
  let m := c.par 0 8
  ((m == 3 || m == 4 || m == 6) && c.par 64 64 != 0) || (decide (3 ≤ m) && decide (m ≤ 6) && c.par 128 32 != 0) ||
    ((m == 5 || m == 6) && c.par 192 64 != 0)

/-- A reserved parameter bit of an opcode is set. (DEDUCED, log entry 38) -/
def Cmd.reserved (c : Cmd) (o : OpInfo) : Bool :=
  clearFields (c.par 0 384) o.fields != 0 ||
  (c.op == 0x0106 && c.par 0 8 == 0 && (List.range (min 2 (c.par 16 16))).any (tokenReserved c)) ||
  (c.op == 0x0400 && measureReserved c) || (c.op == 0x0401 && recordsReserved c)

/-! ### Parameter values -/

/-- A register field that a command names in its function's BAR0 (R359, R451). -/
def fieldNamed (fn off lsb w : Nat) : Option (Loc × Field) :=
  if off % 4 ≠ 0 then none
  else match busTarget fn off with
    | .reg l => match l.row.fields.filter (fun f => f.lsb == lsb && f.width == w) with
      | [f] => some (l, f)
      | _ => none
    | _ => none

def Cmd.field (c : Cmd) : Option (Loc × Field) := fieldNamed c.fn (c.par 0 32) (c.par 32 8) (c.par 40 8)

/-- The register that image i of PORT_CONFIG names (R295). -/
def portImages : List Nat := [0x04, 0x08, 0x0C, 0x10, 0x14, 0x18, 0x1C]

/-- The images that a PORT_CONFIG writes: register and value, in mask bit order. -/
def Cmd.images (c : Cmd) : List (Loc × Nat) :=
  (portImages.zipIdx.filter (fun p => bitOf (c.par 16 7) p.2)).filterMap (fun p =>
    (locate (pfpOff (c.par 0 8) p.1)).map (fun l => (l, c.par (32 + 32 * p.2) 32)))

/-- The token that 16 bytes hold (R363). -/
def tokenOf (x : Nat) : Token :=
  { cid := BitVec.ofNat 24 (bitsOf x 0 24), ip := BitVec.ofNat 20 (bitsOf x 24 20), colour := BitVec.ofNat 12 (bitsOf x 44 12),
    port := BitVec.ofNat 2 (bitsOf x 56 2), cls := BitVec.ofNat 3 (bitsOf x 58 3), pkg := BitVec.ofNat 4 (bitsOf x 100 4),
    val := { v := BitVec.ofNat 36 (bitsOf x 64 36), p := bitOf x 127 } }

/-- A token that INJECT_TOKENS refuses (R45, R363). -/
def tokenBad (t : Token) : Bool := t.port == 3 || t.cid == BitVec.allOnes 24

/-- The inline tokens. -/
def Cmd.inline (c : Cmd) : List Token := (List.range (c.par 16 16)).map (fun k => tokenOf (c.par (128 * (k + 1)) 128))

/-- The parameter values of KAO_MEASURE are in their ranges (R318). -/
def measureOk (c : Cmd) : Bool :=
  let ty := c.par 0 8
  let n := c.par 32 32
  decide (1 ≤ ty) && decide (ty ≤ 3) &&
    (if ty = 3 then decide (1 ≤ n) && decide (n ≤ 65536)
     else decide (1 ≤ c.par 24 8) && decide (1 ≤ c.par 64 32) && decide (c.par 64 32 ≤ 1000000) &&
       (if ty = 1 then n == 1 else decide (2 ≤ n) && decide (n ≤ 65536)))

/-- A parameter value that depends on the command's bytes alone does not fit: status and result words 0 and 1
(R356). (DEDUCED, log entry 40) -/
def Cmd.badValue (c : Cmd) : Option (Nat × Nat × Nat) :=
  let bad (b : Bool) : Option (Nat × Nat × Nat) := if b then some (0x12, 0, 0) else none
  let op := c.op
  if op = 0x0002 then bad (decide (2 < c.par 0 8))
  else if op = 0x0010 then
    bad (match c.field with
      | some (_, f) => f.acc == .ro || decide (2 ^ f.width ≤ c.par 64 32) || (c.atBoundary && f.cls == .boundary)
      | none => true)
  else if op = 0x0011 then bad c.field.isNone
  else if op = 0x0100 then
    (if c.par 0 64 % 8 ≠ 0 then some (0x12, 0, 0)
     else if c.par 64 32 < 72 ∨ c.par 64 32 % 8 ≠ 0 then some (0x12, 4, 6) else none)
  else if op = 0x0101 then
    (if 7 < c.par 8 8 then some (0x12, 2, 0) else if c.par 16 3 = 0 then some (0x12, 5, 0) else none)
  else if op = 0x0105 then bad (decide (3 < c.par 8 8) || c.par 64 64 % 16 != 0)
  else if op = 0x0106 then
    (if c.par 0 8 = 0 then bad (c.par 16 16 == 0 || decide (2 < c.par 16 16) || c.inline.any tokenBad)
     else bad (decide (1 < c.par 0 8) || c.par 16 16 == 0 || c.par 64 64 % 16 != 0))
  else if op = 0x0201 then bad (decide (1 < c.par 0 8))
  else if op = 0x0202 then bad ((bankKind (c.par 0 16)).isNone || decide (2 < c.par 16 8))
  else if op = 0x0300 then
    bad (decide (15 < c.par 0 8) || c.images.any (fun p => Nat.land p.2 p.1.row.refused != 0 || staticBad p.1 p.2))
  else if op = 0x0301 then
    bad (decide (15 < c.par 0 8) || decide (2 < c.par 8 8) || decide (2 < c.par 16 8) ||
      (c.par 8 8 == 0 && c.par 16 8 == 0 &&
        (decide (65536 < c.par 32 32) || (c.par 128 48 != 0 && decide (c.par 128 48 < c.par 32 32)))))
  else if op = 0x0302 then bad (decide (1 < c.par 64 8))
  else if op = 0x0400 then bad (!measureOk c)
  else if op = 0x0401 then
    bad (decide (6 < c.par 0 8) || (decide (c.par 0 8 ≤ 2) && (c.par 128 32 == 0 || decide (65536 < c.par 128 32))) ||
      c.par 192 64 % 64 != 0)
  else if op = 0x0402 then bad (c.par 0 64 % 64 != 0)
  else if op = 0x0500 then
    bad (c.par 0 64 % 64 != 0 || c.par 64 32 % 4 != 0 || decide (c.par 64 32 < 1024) || decide (2 ^ 24 < c.par 64 32))
  else if op = 0x0501 then (if 1 < c.par 0 8 then some (0x12, 1, 0) else none)
  else if op = 0x0502 then (if 1 < c.par 0 8 ∨ 2 < c.par 8 8 then some (0x12, 1, 0) else none)
  else if op = 0x0506 then bad (c.par 96 32 == 0 || decide (131072 < c.par 96 32))
  else if op = 0x0600 then
    bad (decide (1 < c.par 0 8) || decide (1 < c.par 8 8) || c.par 64 32 == 0 || decide (65536 < c.par 64 32) ||
      decide (262144 < c.par 32 32 + c.par 64 32) || c.par 128 64 % 64 != 0)
  else none

/-! ### Rights, scope and fences (R351, R354, R355) -/

/-- The owner of the object that a command names, where it names one that has an owner. -/
def State.cmdOwner (s : State) (c : Cmd) : Option Nat :=
  if 0x0101 ≤ c.op ∧ c.op ≤ 0x0105 then
    (if (s.graph (c.par 0 8)).state = .free then none else some (s.graph (c.par 0 8)).owner)
  else if c.op = 0x0200 ∨ c.op = 0x0201 then
    (if c.kind = 7 ∧ c.index < 32 then some (s.bmvOwner c.index) else none)
  else if c.op = 0x0300 ∨ c.op = 0x0301 then (if c.par 0 8 < 16 then some (s.pfpOwner (c.par 0 8)) else none)
  else none

/-- The scope suits the opcode. -/
def Cmd.scopeOk (c : Cmd) : Bool :=
  if c.op = 0x0003 then
    (match c.kind with
     | 1 => decide (c.index < 6) | 2 => decide (c.index < 8) | 3 => decide (c.index < 16) | 4 => decide (c.index < 2)
     | 5 => decide (c.index < 17) | 6 => decide (c.index < 64) | 8 => c.index == 0
     | _ => false)
  else if c.op = 0x0200 ∨ c.op = 0x0201 then c.kind == 7 && decide (c.index < 32)
  else if c.op = 0x0600 then c.kind == 1 && decide (c.index < 6)
  else c.scope == 0

/-- The named die, channel, port group or link is fenced (check 6). -/
def State.cmdFenced (s : State) (c : Cmd) : Bool :=
  if c.op = 0x0003 then
    (match c.kind with
     | 1 => s.fenced c.index | 2 => bitOf s.start.ddr c.index | 3 => s.pfpFenced c.index | 4 => bitOf s.start.twikel c.index
     | _ => false)
  else if c.op = 0x0600 then s.fenced c.index
  else if c.op = 0x0300 ∨ c.op = 0x0301 then decide (c.par 0 8 < 16) && s.pfpFenced (c.par 0 8)
  else if c.op = 0x0202 ∨ c.op = 0x0203 then decide (c.par 0 16 < 0x600) && s.fenced (c.par 0 16 / 256)
  else false

/-- Checks 2 to 7 of R354 that a command meets when it is fetched: the status and result words 0 and 1 of the first that
fails. -/
def State.cmdRefused (s : State) (c : Cmd) : Option (Nat × Nat × Nat) :=
  match c.info with
  | none => some (0x11, 0, 0)
  | some o =>
    if fieldOf c.pkt 18 14 ≠ 0 ∨ fieldOf c.pkt 64 64 ≠ 0 then some (0x13, 0, 0)
    else if (o.pf && c.fn != 0) || (match s.cmdOwner c with | some f => f != c.fn | none => false) then some (0x20, 0, 0)
    else if !c.scopeOk || (c.atBoundary && !o.boundary) then some (0x12, 0, 0)
    else if s.cmdFenced c then some (0x40, 0, 0)
    else if c.reserved o && c.op != 0x0200 then some (0x13, 0, 0)
    else c.badValue

/-! ### The fetch of a command (R347, R356) -/

/-- Commands of a pair that have not sent their final reply. -/
def State.outstanding (s : State) (q : Nat) : Bool :=
  (s.ce.begun ++ s.ce.deferred ++ s.ce.due ++ s.ce.open_).any (fun c => c.qp == q && !c.mute)

/-- A pair can be served: it has a pending command, and room for replies, and its next command waits for no FENCE.
(DEDUCED, log entry 37) -/
def State.servable (s : State) (q : Nat) : Bool :=
  s.qpOn q && (s.qp q).head != (s.qp q).tail && !s.stalled q && !(s.ce.fenceWait.contains q && s.outstanding q)

/-- The pair that is served next (R347). (DEDUCED, log entry 38) -/
def State.fetchPick (s : State) : Option Nat :=
  let qs := (List.range 64).filter s.servable
  match qs.find? (fun q => decide (s.ce.cmdRr < q)) with
  | some q => some q
  | none => qs.head?

/-- The Command Engine begins commands (R337, R390). -/
def State.engineOn (s : State) : Bool := s.ready && !s.d3hot

/-- The pair is visited; its head passes the command. -/
def State.visited (s : State) (q : Nat) : State := { s with ce := { s.ce with cmdRr := q } }
def State.passHead (s : State) (q : Nat) : State :=
  let x := s.qp q
  let s1 := { s with ce := { s.ce with fenceWait := s.ce.fenceWait.filter (fun k => k != q) } }
  s1.setQp q { x with head := (x.head + 1) % s.sqSize q, ahead := x.ahead - 1 }

/-- The read of a pair's pending commands (R236, R347): at most 8, and none past the end of the ring; a new one once the
commands of the last are taken. -/
def State.ringRead (s : State) (q : Nat) : State :=
  let x := s.qp q
  if 0 < x.ahead then s
  else
    let k := min 8 (min ((x.tail + s.sqSize q - x.head) % s.sqSize q) (s.sqSize q - x.head))
    (s.setQp q { x with ahead := k }).readHost (s.sqBase q + 64 * x.head) (64 * k)
      (s.flag (Sys2Proof.Machine.qpOff q 0x14) 1) (qpFn q)

/-- A checked command begins, or is held for the boundary (R356). The host's BAR2 writes have landed (R238). -/
def State.beginCmd (s0 : State) (c : Cmd) : State :=
  let s := if c.fn = 0 then s0.landBar2.bmvGoOn else s0
  match s.cmdRefused c with
  | some (status, w0, w1) => s.answer c status w0 w1
  | none =>
    if c.atBoundary then
      (if 64 ≤ s.ce.deferred.length + s.ce.due.length then s.answer c 0x30 0 0
       else { s with ce := { s.ce with deferred := s.ce.deferred ++ [c] } }.answer c 1 0 0)
    else { s with ce := { s.ce with begun := s.ce.begun ++ [c] } }.bump (hostOff 0x88) 0 32 1

/-- A fetch that gave no command (R354 check 1). -/
def State.badPacket (s : State) (q : Nat) : State :=
  let slot := (s.qp q).head
  ((s.setFld (Sys2Proof.Machine.qpOff q 0x28) 1 1 1).passHead q).pushReply q
    (replyBytes 0x10 0xFFFF 0 0 (.clean (BitVec.ofNat 36 slot)) PWord.zero PWord.zero)

/-- The read of a pair's next command ends. (DEDUCED, log entry 38) -/
def State.fetchCmd (s : State) (q : Nat) (r : Fetch) : State :=
  if !s.engineOn || s.fetchPick != some q then s
  else
    let s1 := (s.visited q).ringRead q
    match r with
    | .poisoned => (s1.aer aerPoison).badPacket q
    | .failed => (s1.aer aerAbort).badPacket q
    | .ok pkt =>
      let c : Cmd := { id := s.ce.nextId, qp := q, fn := qpFn q, pkt := pkt, beganAt := s.clk.tb, res := [], mute := false }
      if c.fence && s.outstanding q then { s1 with ce := { s1.ce with fenceWait := s1.ce.fenceWait ++ [q] } }
      else ({ s1 with ce := { s1.ce with nextId := s.ce.nextId + 1 } }.passHead q).beginCmd c

/-- A command read gets no completion (R339). -/
def State.fetchLost (s : State) (q : Nat) : State :=
  if !s.engineOn || s.fetchPick != some q then s
  else (((s.visited q).ringRead q).aer aerTimeout).badPacket q

/-! ### Command rows -/

/-- The kinds of objects that commands act on, for the order of R366. -/
inductive Obj where
  | graph (g : Nat)
  | chan (n : Nat)
  | port (p : Nat)
  | reg (off : Nat)
  | die (n : Nat)
  | ddr (n : Nat)
  | twk (n : Nat)
  | pair (q : Nat)
  | blend | ledger | kaolin
  /-- the package, or the objects that a function owns -/
  | whole
  | opcode (op : Nat)
deriving DecidableEq, Repr

/-- The object that a reset names. -/
def resetObj (kind index : Nat) : Obj :=
  if kind = 1 then .die index else if kind = 2 then .ddr index else if kind = 3 then .port index
  else if kind = 4 then .twk index else if kind = 6 then .pair index else .whole

/-- The objects that a register belongs to: itself, and its port or channel. -/
def regObjs (l : Loc) : List Obj :=
  .reg l.off :: (if l.row.code = 11 then [.port l.idx] else if l.row.code = 10 then [.chan l.idx] else [])

/-- The objects that a command acts on, for the order of R366. (DEDUCED, log entry 65) -/
def Cmd.objects (c : Cmd) : List Obj :=
  if 0x0101 ≤ c.op ∧ c.op ≤ 0x0105 then [.graph (c.par 0 8)]
  else if c.op = 0x0200 ∨ c.op = 0x0201 then [.chan c.index]
  else if c.op = 0x0300 ∨ c.op = 0x0301 then [.port (c.par 0 8)]
  else if c.op = 0x0010 ∨ c.op = 0x0011 then (match c.field with | some (l, _) => regObjs l | none => [])
  else if c.op = 0x0003 then [resetObj c.kind c.index]
  else if c.op = 0x0202 ∨ c.op = 0x0203 then [.die (c.par 0 16 / 256)]
  else if c.op = 0x0600 then [.die c.index]
  else if 0x0400 ≤ c.op ∧ c.op ≤ 0x0402 then [.kaolin]
  else if 0x0500 ≤ c.op ∧ c.op ≤ 0x0503 then [.blend]
  else if c.op = 0x0504 ∨ c.op = 0x0505 then [.ledger]
  else [.opcode c.op]

/-- Two commands act on one object. -/
def Cmd.meets (c x : Cmd) : Bool :=
  c.objects.any (fun o => x.objects.contains o || o == .whole) || x.objects.contains .whole

/-- The next command row of an opcode: the oldest begun command of it takes effect, once no older command on its object
waits (R366). (DEDUCED, log entry 65) -/
def State.withCmd (s : State) (op : Nat) (f : State → Cmd → State) : State :=
  if !s.ready then s
  else match takeFirst (fun c => c.op == op) s.ce.begun with
    | none => s
    | some (c, rest) =>
      if (s.ce.begun.takeWhile (fun x => x.id != c.id)).any (fun x => x.meets c) then s
      else f { s with ce := { s.ce with begun := rest, open_ := s.ce.open_ ++ [c] } } c

/-- COMMAND_FETCH (R347). -/
def execCommandFetch (qp : Fin 64) (r : Fetch) (s : State) : Host.Outcome State Fault Refusal :=
  .next (s.fetchCmd qp.val r).finish

end Sys2Proof.Machine
end

