-- ==== Sys2Proof/Machine/Firings.lean ====
section
/-! DEFINITION. The firings (chapters 03-05): one meaning per opcode, each the firing of the item that the PE selects, when
its opcode is that one (R103, R107). -/

namespace Sys2Proof.Machine

/-- ADD (R108). -/
def execAdd (die : Fin 6) (pe : Fin 64) (s : State) : Host.Outcome State Fault Refusal :=
  .next (s.fireOp die.val pe.val .add).finish

/-- SUB (R108). -/
def execSub (die : Fin 6) (pe : Fin 64) (s : State) : Host.Outcome State Fault Refusal :=
  .next (s.fireOp die.val pe.val .sub).finish

/-- ADC (R109). -/
def execAdc (die : Fin 6) (pe : Fin 64) (s : State) : Host.Outcome State Fault Refusal :=
  .next (s.fireOp die.val pe.val .adc).finish

/-- SBC (R109). -/
def execSbc (die : Fin 6) (pe : Fin 64) (s : State) : Host.Outcome State Fault Refusal :=
  .next (s.fireOp die.val pe.val .sbc).finish

/-- NEG (R110). -/
def execNeg (die : Fin 6) (pe : Fin 64) (s : State) : Host.Outcome State Fault Refusal :=
  .next (s.fireOp die.val pe.val .neg).finish

/-- MUL (R110). -/
def execMul (die : Fin 6) (pe : Fin 64) (s : State) : Host.Outcome State Fault Refusal :=
  .next (s.fireOp die.val pe.val .mul).finish

/-- MULW (R110). -/
def execMulw (die : Fin 6) (pe : Fin 64) (s : State) : Host.Outcome State Fault Refusal :=
  .next (s.fireOp die.val pe.val .mulw).finish

/-- MULWU (R110). -/
def execMulwu (die : Fin 6) (pe : Fin 64) (s : State) : Host.Outcome State Fault Refusal :=
  .next (s.fireOp die.val pe.val .mulwu).finish

/-- DIV (R138). -/
def execDiv (die : Fin 6) (pe : Fin 64) (s : State) : Host.Outcome State Fault Refusal :=
  .next (s.fireOp die.val pe.val .div).finish

/-- DIVU (R138). -/
def execDivu (die : Fin 6) (pe : Fin 64) (s : State) : Host.Outcome State Fault Refusal :=
  .next (s.fireOp die.val pe.val .divu).finish

/-- MIN (R108). -/
def execMin (die : Fin 6) (pe : Fin 64) (s : State) : Host.Outcome State Fault Refusal :=
  .next (s.fireOp die.val pe.val .min).finish

/-- MAX (R108). -/
def execMax (die : Fin 6) (pe : Fin 64) (s : State) : Host.Outcome State Fault Refusal :=
  .next (s.fireOp die.val pe.val .max).finish

/-- MINU (R108). -/
def execMinu (die : Fin 6) (pe : Fin 64) (s : State) : Host.Outcome State Fault Refusal :=
  .next (s.fireOp die.val pe.val .minu).finish

/-- MAXU (R108). -/
def execMaxu (die : Fin 6) (pe : Fin 64) (s : State) : Host.Outcome State Fault Refusal :=
  .next (s.fireOp die.val pe.val .maxu).finish

/-- AND (R111). -/
def execAnd (die : Fin 6) (pe : Fin 64) (s : State) : Host.Outcome State Fault Refusal :=
  .next (s.fireOp die.val pe.val .and).finish

/-- OR (R111). -/
def execOr (die : Fin 6) (pe : Fin 64) (s : State) : Host.Outcome State Fault Refusal :=
  .next (s.fireOp die.val pe.val .or).finish

/-- XOR (R111). -/
def execXor (die : Fin 6) (pe : Fin 64) (s : State) : Host.Outcome State Fault Refusal :=
  .next (s.fireOp die.val pe.val .xor).finish

/-- ANDN (R111). -/
def execAndn (die : Fin 6) (pe : Fin 64) (s : State) : Host.Outcome State Fault Refusal :=
  .next (s.fireOp die.val pe.val .andn).finish

/-- NOT (R111). -/
def execNot (die : Fin 6) (pe : Fin 64) (s : State) : Host.Outcome State Fault Refusal :=
  .next (s.fireOp die.val pe.val .not).finish

/-- SHL (R111). -/
def execShl (die : Fin 6) (pe : Fin 64) (s : State) : Host.Outcome State Fault Refusal :=
  .next (s.fireOp die.val pe.val .shl).finish

/-- SHR (R111). -/
def execShr (die : Fin 6) (pe : Fin 64) (s : State) : Host.Outcome State Fault Refusal :=
  .next (s.fireOp die.val pe.val .shr).finish

/-- SAR (R111). -/
def execSar (die : Fin 6) (pe : Fin 64) (s : State) : Host.Outcome State Fault Refusal :=
  .next (s.fireOp die.val pe.val .sar).finish

/-- ROL (R111). -/
def execRol (die : Fin 6) (pe : Fin 64) (s : State) : Host.Outcome State Fault Refusal :=
  .next (s.fireOp die.val pe.val .rol).finish

/-- ROR (R111). -/
def execRor (die : Fin 6) (pe : Fin 64) (s : State) : Host.Outcome State Fault Refusal :=
  .next (s.fireOp die.val pe.val .ror).finish

/-- POPC (R111). -/
def execPopc (die : Fin 6) (pe : Fin 64) (s : State) : Host.Outcome State Fault Refusal :=
  .next (s.fireOp die.val pe.val .popc).finish

/-- CLZ (R111). -/
def execClz (die : Fin 6) (pe : Fin 64) (s : State) : Host.Outcome State Fault Refusal :=
  .next (s.fireOp die.val pe.val .clz).finish

/-- CEQ (R112). -/
def execCeq (die : Fin 6) (pe : Fin 64) (s : State) : Host.Outcome State Fault Refusal :=
  .next (s.fireOp die.val pe.val .ceq).finish

/-- CNE (R112). -/
def execCne (die : Fin 6) (pe : Fin 64) (s : State) : Host.Outcome State Fault Refusal :=
  .next (s.fireOp die.val pe.val .cne).finish

/-- CLT (R112). -/
def execClt (die : Fin 6) (pe : Fin 64) (s : State) : Host.Outcome State Fault Refusal :=
  .next (s.fireOp die.val pe.val .clt).finish

/-- CLE (R112). -/
def execCle (die : Fin 6) (pe : Fin 64) (s : State) : Host.Outcome State Fault Refusal :=
  .next (s.fireOp die.val pe.val .cle).finish

/-- CLTU (R112). -/
def execCltu (die : Fin 6) (pe : Fin 64) (s : State) : Host.Outcome State Fault Refusal :=
  .next (s.fireOp die.val pe.val .cltu).finish

/-- CLEU (R112). -/
def execCleu (die : Fin 6) (pe : Fin 64) (s : State) : Host.Outcome State Fault Refusal :=
  .next (s.fireOp die.val pe.val .cleu).finish

/-- STEER (R113). -/
def execSteer (die : Fin 6) (pe : Fin 64) (s : State) : Host.Outcome State Fault Refusal :=
  .next (s.fireOp die.val pe.val .steer).finish

/-- SELECT (R114). -/
def execSelect (die : Fin 6) (pe : Fin 64) (s : State) : Host.Outcome State Fault Refusal :=
  .next (s.fireOp die.val pe.val .select).finish

/-- MOV (R112). -/
def execMov (die : Fin 6) (pe : Fin 64) (s : State) : Host.Outcome State Fault Refusal :=
  .next (s.fireOp die.val pe.val .mov).finish

/-- GATE (R112). -/
def execGate (die : Fin 6) (pe : Fin 64) (s : State) : Host.Outcome State Fault Refusal :=
  .next (s.fireOp die.val pe.val .gate).finish

/-- FADD (R149). -/
def execFadd (die : Fin 6) (pe : Fin 64) (s : State) : Host.Outcome State Fault Refusal :=
  .next (s.fireOp die.val pe.val .fadd).finish

/-- FSUB (R149). -/
def execFsub (die : Fin 6) (pe : Fin 64) (s : State) : Host.Outcome State Fault Refusal :=
  .next (s.fireOp die.val pe.val .fsub).finish

/-- FMUL (R150). -/
def execFmul (die : Fin 6) (pe : Fin 64) (s : State) : Host.Outcome State Fault Refusal :=
  .next (s.fireOp die.val pe.val .fmul).finish

/-- FFMA (R152). -/
def execFfma (die : Fin 6) (pe : Fin 64) (s : State) : Host.Outcome State Fault Refusal :=
  .next (s.fireOp die.val pe.val .ffma).finish

/-- FDIV (R151). -/
def execFdiv (die : Fin 6) (pe : Fin 64) (s : State) : Host.Outcome State Fault Refusal :=
  .next (s.fireOp die.val pe.val .fdiv).finish

/-- FSQRT (R153). -/
def execFsqrt (die : Fin 6) (pe : Fin 64) (s : State) : Host.Outcome State Fault Refusal :=
  .next (s.fireOp die.val pe.val .fsqrt).finish

/-- FMIN (R154). -/
def execFmin (die : Fin 6) (pe : Fin 64) (s : State) : Host.Outcome State Fault Refusal :=
  .next (s.fireOp die.val pe.val .fmin).finish

/-- FMAX (R154). -/
def execFmax (die : Fin 6) (pe : Fin 64) (s : State) : Host.Outcome State Fault Refusal :=
  .next (s.fireOp die.val pe.val .fmax).finish

/-- FCEQ (R154). -/
def execFceq (die : Fin 6) (pe : Fin 64) (s : State) : Host.Outcome State Fault Refusal :=
  .next (s.fireOp die.val pe.val .fceq).finish

/-- FCLT (R154). -/
def execFclt (die : Fin 6) (pe : Fin 64) (s : State) : Host.Outcome State Fault Refusal :=
  .next (s.fireOp die.val pe.val .fclt).finish

/-- FCLE (R154). -/
def execFcle (die : Fin 6) (pe : Fin 64) (s : State) : Host.Outcome State Fault Refusal :=
  .next (s.fireOp die.val pe.val .fcle).finish

/-- FCUN (R154). -/
def execFcun (die : Fin 6) (pe : Fin 64) (s : State) : Host.Outcome State Fault Refusal :=
  .next (s.fireOp die.val pe.val .fcun).finish

/-- CVTFI (R155). -/
def execCvtfi (die : Fin 6) (pe : Fin 64) (s : State) : Host.Outcome State Fault Refusal :=
  .next (s.fireOp die.val pe.val .cvtfi).finish

/-- CVTFU (R155). -/
def execCvtfu (die : Fin 6) (pe : Fin 64) (s : State) : Host.Outcome State Fault Refusal :=
  .next (s.fireOp die.val pe.val .cvtfu).finish

/-- CVTIF (R156). -/
def execCvtif (die : Fin 6) (pe : Fin 64) (s : State) : Host.Outcome State Fault Refusal :=
  .next (s.fireOp die.val pe.val .cvtif).finish

/-- CVTUF (R156). -/
def execCvtuf (die : Fin 6) (pe : Fin 64) (s : State) : Host.Outcome State Fault Refusal :=
  .next (s.fireOp die.val pe.val .cvtuf).finish

/-- FNEG (R153). -/
def execFneg (die : Fin 6) (pe : Fin 64) (s : State) : Host.Outcome State Fault Refusal :=
  .next (s.fireOp die.val pe.val .fneg).finish

/-- FABS (R153). -/
def execFabs (die : Fin 6) (pe : Fin 64) (s : State) : Host.Outcome State Fault Refusal :=
  .next (s.fireOp die.val pe.val .fabs).finish

/-- CVT_X_S (R157). -/
def execCvtXS (die : Fin 6) (pe : Fin 64) (s : State) : Host.Outcome State Fault Refusal :=
  .next (s.fireOp die.val pe.val .cvtXS).finish

/-- CVT_S_X (R157). -/
def execCvtSX (die : Fin 6) (pe : Fin 64) (s : State) : Host.Outcome State Fault Refusal :=
  .next (s.fireOp die.val pe.val .cvtSX).finish

/-- CALL (R118). -/
def execCall (die : Fin 6) (pe : Fin 64) (s : State) : Host.Outcome State Fault Refusal :=
  .next (s.fireOp die.val pe.val .call).finish

/-- RET (R119). -/
def execRet (die : Fin 6) (pe : Fin 64) (s : State) : Host.Outcome State Fault Refusal :=
  .next (s.fireOp die.val pe.val .ret).finish

/-- SEND (R120). -/
def execSend (die : Fin 6) (pe : Fin 64) (s : State) : Host.Outcome State Fault Refusal :=
  .next (s.fireOp die.val pe.val .send).finish

/-- FALLOC (R122). -/
def execFalloc (die : Fin 6) (pe : Fin 64) (s : State) : Host.Outcome State Fault Refusal :=
  .next (s.fireOp die.val pe.val .falloc).finish

/-- FFREE (R123). -/
def execFfree (die : Fin 6) (pe : Fin 64) (s : State) : Host.Outcome State Fault Refusal :=
  .next (s.fireOp die.val pe.val .ffree).finish

/-- SELF (R121). -/
def execSelf (die : Fin 6) (pe : Fin 64) (s : State) : Host.Outcome State Fault Refusal :=
  .next (s.fireOp die.val pe.val .self).finish

/-- PRIO (R121). -/
def execPrio (die : Fin 6) (pe : Fin 64) (s : State) : Host.Outcome State Fault Refusal :=
  .next (s.fireOp die.val pe.val .prio).finish

/-- EMIT (R124). -/
def execEmit (die : Fin 6) (pe : Fin 64) (s : State) : Host.Outcome State Fault Refusal :=
  .next (s.fireOp die.val pe.val .emit).finish

/-- LTB_ACQ (R125). -/
def execLtbAcq (die : Fin 6) (pe : Fin 64) (s : State) : Host.Outcome State Fault Refusal :=
  .next (s.fireOp die.val pe.val .ltbAcq).finish

/-- LTB_REL (R126). -/
def execLtbRel (die : Fin 6) (pe : Fin 64) (s : State) : Host.Outcome State Fault Refusal :=
  .next (s.fireOp die.val pe.val .ltbRel).finish

/-- BRK (R130). -/
def execBrk (die : Fin 6) (pe : Fin 64) (s : State) : Host.Outcome State Fault Refusal :=
  .next (s.fireOp die.val pe.val .brk).finish

/-- REP_I (R128): the pair is decoded and runs `reps` repetitions before a suspension by the scheduler. -/
def execRepI (die : Fin 6) (pe : Fin 64) (reps : Nat) (s : State) : Host.Outcome State Fault Refusal :=
  .next (s.fireRep die.val pe.val false reps).finish

/-- REP_U (R127). -/
def execRepU (die : Fin 6) (pe : Fin 64) (reps : Nat) (s : State) : Host.Outcome State Fault Refusal :=
  .next (s.fireRep die.val pe.val true reps).finish

/-- RESUME_ITEM (R129). -/
def execResumeItem (die : Fin 6) (pe : Fin 64) (reps : Nat) (s : State) : Host.Outcome State Fault Refusal :=
  .next (s.fireResume die.val pe.val reps).finish

/-- DUPLICATE (R57). -/
def execDuplicate (die : Fin 6) (pe : Fin 64) (s : State) : Host.Outcome State Fault Refusal :=
  .next (s.fireDuplicate die.val pe.val).finish

/-- FROZEN_ITEM_DISCARD (R218). -/
def execFrozenItemDiscard (die : Fin 6) (pe : Fin 64) (s : State) : Host.Outcome State Fault Refusal :=
  .next (s.fireDiscard die.val pe.val).finish

/-- UNDEFINED_OPCODE (R107). -/
def execUndefinedOpcode (die : Fin 6) (pe : Fin 64) (s : State) : Host.Outcome State Fault Refusal :=
  .next (s.fireUndefined die.val pe.val).finish

end Sys2Proof.Machine
end

