-- ==== Sys2Proof/Machine/GraphCmds.lean ====
section
/-! DEFINITION. The commands that act on graphs: GRAPH_LOAD (R69, R71-R73, R360), GRAPH_START (R70, R361), GRAPH_ABORT
(R362), GRAPH_PARK and GRAPH_RESUME (R219, R221), ORPHAN_SWEEP (R177-R179), INJECT_TOKENS (R363). -/

namespace Sys2Proof.Machine

/-- A command's parameter byte 0 as a graph handle. -/
def Cmd.graph (c : Cmd) : Nat := c.par 0 8

/-- The result words that a command's reply will carry are decided. -/
def State.setRes (s : State) (id : Nat) (res : List Nat) : State :=
  { s with ce := { s.ce with open_ := s.ce.open_.map (fun c => if c.id = id then { c with res := res } else c) } }

/-- A data read for a command did not complete successfully, or was poisoned. -/
def dataBad (d : HostData) : Bool := d.errAt.isSome || !d.ep.isEmpty

/-- The errors that a command's host read shows; `late` tells that no completion came (R339, R341). -/
def State.noteRead (s : State) (late : Bool) (d : HostData) : State := if late then s.aer aerTimeout else s.noteData d

/-- The No Snoop bit of a source that a command names in its parameters (R357): bit [96], where the opcode has one. (DEDUCED,
log entry 64) -/
def Cmd.noSnoop (c : Cmd) : Bool := (fieldOf c.pkt 0 16 == 0x0100 || fieldOf c.pkt 0 16 == 0x0500) && bitOf (c.par 96 1) 0

/-- The read of a command's host source (R236, R357), and the errors that it shows. -/
def State.readSource (s : State) (c : Cmd) (addr len : Nat) (late : Bool) (d : HostData) : State :=
  (s.readHost addr len c.noSnoop c.fn).noteRead late d

/-- A pool of some die is being built (R61, R75). (DEDUCED, log entry 39) -/
def State.building (s : State) : Bool := s.upDies.any (fun n => (s.die n).building)

/-- The state check of a command on a graph: BUSY for a graph in ABORTING or with a procedure running (R68, R366), else
BAD_PARAM for a state that does not accept the command. (DEDUCED, log entry 24) -/
def State.graphRefused (s : State) (g : Nat) (ok : List GState) : Option Nat :=
  let x := s.graph g
  if x.state = .aborting || x.proc != .none then some 0x30
  else if ok.contains x.state then none else some 0x12

/-! ### GRAPH_LOAD (R69, R71-R73) -/

/-- Word w of an image. -/
def imgWord (b : List Byte) (w : Nat) : Nat := (containerWord b (8 * w)).toNat
def imgSlots (b : List Byte) : Nat := bitsOf (imgWord b 3) 0 20
def imgBlocks (b : List Byte) : Nat := bitsOf (imgWord b 4) 0 12

/-- The block of a block table entry (R72). -/
def imgBlock (b : List Byte) (k : Nat) : Block :=
  let w (j : Nat) : Nat := imgWord b (8 + 4 * k + j)
  { entry := bitsOf (w 0) 0 20, len := bitsOf (w 1) 0 20, pool := bitsOf (w 2) 0 20, poolLen := bitsOf (w 2) 20 13,
    frame := bitsOf (w 3) 0 16 }

/-- Reserved bits of a word of the header, block table or trailer that must be zero: the lowest such bit. -/
def imgReservedFrom (blocks total w : Nat) : Nat :=
  if w = 1 then 8 else if w = 3 then 20 else if w = 4 ∨ w = 5 then 12 else if w = 7 then 0
  else if w + 1 = total then 32
  else if 8 ≤ w ∧ w < 8 + 4 * blocks then lget 36 [20, 20, 33, 16] (w % 4)
  else 36

/-- The first word whose reserved bits are not zero. -/
def imgReserved (b : List Byte) : Option Nat :=
  let n := imgBlocks b
  let total := b.length / 8
  ((List.range (8 + 4 * n)) ++ [total - 1]).find? (fun w => imgWord b w / 2 ^ imgReservedFrom n total w != 0)

/-- The first word of the header or block table that is out of range (R71, R72). -/
def imgRange (b : List Byte) : Option Nat :=
  let s := imgSlots b
  let n := imgBlocks b
  if s = 0 then some 3 else if n = 0 then some 4 else if n ≤ imgWord b 5 then some 5
  else ((List.range n).map (fun k =>
    let x := imgBlock b k
    let at_ := 8 + 4 * k
    (if s ≤ x.entry then [at_] else []) ++ (if x.len = 0 ∨ s < x.entry + x.len then [at_ + 1] else []) ++
      (if 4096 < x.poolLen ∨ 2 * s < 2 * x.pool + x.poolLen then [at_ + 2] else []) ++
      (if x.frame < 16 then [at_ + 3] else []))).flatten.head?

/-- The lowest IP base with a number of consecutive free slots (R69). -/
def State.freeBase (s : State) (n : Nat) : Option Nat :=
  let gs := (s.graphs.map (fun p => p.2)).filter (fun g => g.state != .free)
  let ok (b : Nat) : Bool := decide (b + n ≤ 2 ^ 20) &&
    gs.all (fun g => decide (b + n ≤ g.base) || decide (g.base + g.slots ≤ b))
  match (1 :: gs.map (fun g => g.base + g.slots)).filter ok with
  | [] => none
  | x :: xs => some (xs.foldl min x)

/-- The lowest free handle. -/
def State.freeHandle (s : State) : Option Nat :=
  ((List.range 255).map (fun k => k + 1)).find? (fun g => (s.graph g).state == .free)

/-- The first check of R73 that an image fails: reason and word index. (DEDUCED, log entry 39) -/
def State.imageRefused (s : State) (b : List Byte) : Option (Nat × Nat) :=
  let total := b.length / 8
  if imgWord b 0 ≠ 0x37A9C51E2 then some (1, 0)
  else if bitsOf (imgWord b 1) 0 8 ≠ 1 then some (2, 1)
  else if imgWord b 2 ≠ 0x05A880001 then some (3, 2)
  else if imgWord b 6 ≠ 9 + 4 * imgBlocks b + 2 * imgSlots b ∨ imgWord b 6 ≠ total then some (4, 6)
  else if bitsOf (imgWord b (total - 1)) 0 32 ≠ crc32 (b.take (8 * (total - 1))) then some (5, total - 1)
  else match imgReserved b with
    | some w => some (6, w)
    | none => match imgRange b with
      | some w => some (7, w)
      | none =>
        if (s.freeBase (imgSlots b)).isNone then some (8, 0)
        else if s.freeHandle.isNone then some (9, 0)
        else if !s.cdtOn then some (10, 0)
        else none

/-- The code section is written at an IP base of a die; the banks that hold it are awake (R69, R229). -/
def State.loadSlots (s : State) (b : List Byte) (base : Nat) (n : Nat) : State :=
  let first := 8 + 4 * imgBlocks b
  let k := imgSlots b
  let s1 := ((List.range 16).filter (fun j => decide (j * 65536 < base + k) && decide (base < (j + 1) * 65536))).foldl
    (fun t j => (t.accessNow (n * 256 + 64 + j)).1) s
  (List.range k).foldl (fun t i =>
    t.setSlot n (base + i) (mkSlot (containerWord b (8 * (first + 2 * i))) (containerWord b (8 * (first + 2 * i + 1))))) s1

/-- GRAPH_LOAD of an image that the host read gives; it is read once for the checks and once more for the slots
(R360). (DEDUCED, log entry 39) -/
def State.graphLoad (late : Bool) (data : HostData) (s0 : State) (c : Cmd) : State :=
  let s := s0.readSource c (c.par 0 64) (c.par 64 32) late data
  let b := slice data.bytes 0 (c.par 64 32)
  if dataBad data then s.reply c 0x12 0 0 0
  else match s.imageRefused b with
    | some (r, w) => s.reply c 0x12 r w 0
    | none =>
      if s.building then s.reply c 0x30 0 0 0
      else match s.freeBase (imgSlots b), s.freeHandle with
        | some base, some g =>
          let s0 := s.readHost (c.par 0 64) (c.par 64 32) c.noSnoop c.fn
          let s1 := s.upDies.foldl (fun t n => t.loadSlots b base n) s0
          let s2 := (s1.upDies.foldl (fun t n => t.updDie n (Die.forget base (imgSlots b))) s1).setFld
            (tmpOff (0x400 + 4 * g)) 0 25 0
          (s2.setGraph g { Graph.reset with state := .loaded, base := base, slots := imgSlots b,
                                            blocks := (List.range (imgBlocks b)).map (imgBlock b), owner := c.fn }).reply c 0 g
            base 0
        | _, _ => s

/-! ### GRAPH_START (R70, R361) -/

/-- The state checks of GRAPH_START in their order: status and reason. (DEDUCED, log entry 39) -/
def State.startRefused (s : State) (c : Cmd) : Option (Nat × Nat) :=
  let x := s.graph c.graph
  if !s.cdtOn then some (0x12, 6)
  else if x.state = .aborting then some (0x30, 0)
  else if x.state ≠ .loaded ∧ x.state ≠ .running then some (0x12, 1)
  else if x.blocks.length ≤ c.par 64 12 then some (0x12, 3)
  else if c.par 32 24 = 0xFFFFFF ∨ (s.readHdr (c.par 32 24)).2.st ≠ 0 then some (0x12, 4)
  else if s.building then some (0x30, 0)
  else none

/-- The start context: header, G12, G13 and the host-sink link (R70 steps 1 and 2). -/
def State.startContext (s : State) (c : Cmd) : State :=
  let cid := c.par 32 24
  let num (k : Nat) : PWord := .clean (BitVec.ofNat 36 k)
  ((((s.setHdr cid { aff := cid % 64, cls := c.par 8 8, st := 1, graph := c.graph, block := c.par 64 12 }).setG cid 12
    (num (c.par 96 20))).setG cid 13 (num (c.par 128 36))).setG cid 14 (num (0xFFFFFF + c.qp * 2 ^ 24))).setG cid 15 (num c.tag)

/-- The start tokens (R361). -/
def startTokens (c : Cmd) (ip own : Nat) : List Token :=
  (bitsSet 3 (c.par 16 3)).map (fun p =>
    { cid := BitVec.ofNat 24 (c.par 32 24), ip := BitVec.ofNat 20 ip, colour := BitVec.ofNat 12 (c.par 80 12),
      port := BitVec.ofNat 2 p, cls := BitVec.ofNat 3 (c.par 8 8), pkg := BitVec.ofNat 4 own,
      val := { v := BitVec.ofNat 36 (c.par (192 + 64 * p) 36), p := bitOf (c.par (192 + 64 * p) 64) 63 } })

/-- GRAPH_START. -/
def State.graphStart (s0 : State) (c : Cmd) : State :=
  let s := (s0.readHdr (c.par 32 24)).1
  match s0.startRefused c with
  | some (status, r) => (if status = 0x12 ∧ r = 4 then s else s0).reply c status r 0 0
  | none =>
    let g := c.graph
    let x := s.graph g
    let ip := x.base + (match x.blocks[c.par 64 12]? with | some b => b.entry | none => 0)
    let s1 := ((s.startContext c).incActive g).updGraph g (fun y => { y with ceil := max y.ceil (c.par 8 8) })
    let s2 := if x.state = .loaded then s1.enterRunning g else s1
    ((s2.injectCharge (c.par 8 8)).setRes c.id [ip, (s2.graph g).active]).injectTokens c.qp (startTokens c ip s.ownPkg)

/-! ### GRAPH_ABORT, GRAPH_PARK, GRAPH_RESUME -/

/-- GRAPH_ABORT (R362): its reply comes at its end. -/
def State.graphAbort (s : State) (c : Cmd) : State :=
  match s.graphRefused c.graph [.loaded, .running, .parked, .frozen] with
  | some e => s.reply c e 0 0 0
  | none => s.beginAbort c.graph (bitOf (c.par 8 1) 0) []

/-- GRAPH_PARK (R219), with its report (R223): the reply and the report come at its end. (DEDUCED, log entry 24) -/
def State.graphPark (s : State) (c : Cmd) : State :=
  match s.graphRefused c.graph [.running] with
  | some e => s.reply c e 0 0 0
  | none =>
    let r := s.declare 3 c.graph 1 0 0xFF 0
    r.1.beginPark c.graph r.2

/-- GRAPH_RESUME (R221). -/
def State.graphResume (s : State) (c : Cmd) : State :=
  match s.graphRefused c.graph [.parked] with
  | some e => s.reply c e 0 0 0
  | none =>
    let r := s.resumeGraph c.graph
    r.1.reply c 0 (lget 0 r.2 0) (lget 0 r.2 1) (lget 0 r.2 2)

/-! ### ORPHAN_SWEEP (R177-R179) -/

/-- ORPHAN_SWEEP: it begins unless one runs, and goes on to its end unless a set blocks it (R179). -/
def State.orphanSweep (s : State) (c : Cmd) : State :=
  match s.graphRefused c.graph (if c.par 8 8 = 3 then [.frozen] else [.running, .frozen]) with
  | some e => s.reply c e 0 0 0
  | none =>
    if s.sweep.isSome then s.reply c 0x30 0 0 0
    else
      ({ s with sweep := some { cmd := c, pos := 0, found := 0, listed := [] },
                dies := s.dies.map (fun d => { d with sweeping := d.up }) } : State).runSweep

/-! ### INJECT_TOKENS (R363) -/

/-- INJECT_TOKENS: every token of a buffer is checked before any is pushed. -/
def State.injectCmd (late : Bool) (data : HostData) (s0 : State) (c : Cmd) : State :=
  let n := c.par 16 16
  let go (s : State) (ts : List Token) : State := (s.setRes c.id [n, 0]).injectTokens c.qp ts
  if c.par 0 8 = 0 then go s0 c.inline
  else
    let s := s0.readSource c (c.par 64 64) (16 * n) late data
    let xs := (List.range n).map (fun k => leAt data.bytes (16 * k) 16)
    if dataBad data then s.reply c 0x12 0 0 0
    else if xs.any (fun x => bitsOf x 61 3 != 0 || bitsOf x 104 23 != 0) then s.reply c 0x13 0 0 0
    else if (xs.map tokenOf).any tokenBad then s.reply c 0x12 0 0 0
    else go s (xs.map tokenOf)

/-! ### Commands -/

/-- GRAPH_LOAD (R360). -/
def execGraphLoad (data : HostData) (s : State) : Host.Outcome State Fault Refusal :=
  .next (s.withCmd 0x0100 (State.graphLoad false data)).finish

/-- GRAPH_START (R361). -/
def execGraphStart (s : State) : Host.Outcome State Fault Refusal := .next (s.withCmd 0x0101 State.graphStart).finish

/-- GRAPH_ABORT (R362). -/
def execGraphAbort (s : State) : Host.Outcome State Fault Refusal := .next (s.withCmd 0x0102 State.graphAbort).finish

/-- GRAPH_PARK (R219). -/
def execGraphPark (s : State) : Host.Outcome State Fault Refusal := .next (s.withCmd 0x0103 State.graphPark).finish

/-- GRAPH_RESUME (R221). -/
def execGraphResume (s : State) : Host.Outcome State Fault Refusal := .next (s.withCmd 0x0104 State.graphResume).finish

/-- ORPHAN_SWEEP (R177). (DESIGN CHOICE, log entry 14) -/
def execOrphanSweep (s : State) : Host.Outcome State Fault Refusal := .next (s.withCmd 0x0105 State.orphanSweep).finish

/-- INJECT_TOKENS (R363). -/
def execInjectTokens (data : HostData) (s : State) : Host.Outcome State Fault Refusal :=
  .next (s.withCmd 0x0106 (State.injectCmd false data)).finish

end Sys2Proof.Machine
end

