-- ==== Sys2Proof/Machine/HostCmds.lean ====
section
/-! DEFINITION. The commands on the package, registers, channels, banks, ports, Blends, ledger, log and raw rows: NOP,
IDENTIFY (R358), SET_FIELD and GET_FIELD (R359), BMV_START and BMV_STOP (R260, R261, R270), BANK_POWER and EPOCH_SCHEDULE
(R364), REPAIR_ADD (R242), PORT_CONFIG and POUR_ARM (R295, R296), BLEND_ (R418-R421), LEDGER_ (R402), LOG_READ (R410),
SNAPSHOT (R365). -/

namespace Sys2Proof.Machine

/-! ### NOP, IDENTIFY, fields -/

/-- A 64-bit value as the result words [35:0] and [63:36]. -/
def State.reply64 (s : State) (c : Cmd) (v : Nat) : State := s.reply c 0 (v % 2 ^ 36) (v / 2 ^ 36) 0

def State.nop (s : State) (c : Cmd) : State := s.reply64 c c.beganAt.toNat

/-- The words of an IDENTIFY page (R358). -/
def State.identity (s : State) (fn page : Nat) : Nat × Nat × Nat :=
  let id := duid.toNat
  if page = 0 then (0x05A880001, id % 2 ^ 36, id / 2 ^ 36 + 0x01 * 2 ^ 28)
  else if page = 1 then (0x038385A53, 0x0462D3031, 0x000353843)
  else
    (pack [(s.ownPkg, 0), (s.presentMask, 4), (s.start.dies, 11), (s.start.ddr, 17), (s.start.groups, 25), (s.start.twikel, 29)],
     pack [(s.activeSlot.ver, 0), (s.blend.active, 24), (b2n s.blend.settingsFb, 25)],
     if fn = 0 then pack [(32, 11)] else pack [(fn, 0), (32 + 2 * (fn - 1), 5), (2, 11)])

def State.identify (s : State) (c : Cmd) : State :=
  let w := s.identity c.fn (c.par 0 8)
  s.reply c 0 w.1 w.2.1 w.2.2

/-- SET_FIELD: a write of one field (R359). -/
def State.setFieldCmd (s : State) (c : Cmd) : State :=
  match c.field with
  | none => s.reply c 0x12 0 0 0
  | some (l, f) =>
    if s.closed c.fn l then s.reply c 0x12 0 0 0
    else match s.writeReg c.fn l (c.par 64 32 * 2 ^ f.lsb) f.mask with
      | (_, .refused) => s.reply c 0x12 0 0 0
      | (s1, .locked) => s1.reply c 0x31 0 0 0
      | (s1, .done) => s1.reply c 0 0 0 0

/-- The pending shadow of a register (R12): one that waits for a port's boundary tick too (R303). -/
def State.shadowAt (s : State) (off : Nat) : Option Shadow :=
  match tfind s.shadows off, tfind s.shadows (dueKey off) with
  | some n, some o => some (n.over o)
  | some n, none => some n
  | none, o => o

def Acc.code : Acc → Nat
  | .rw => 0 | .ro => 1 | .wo => 2 | .w1c => 3 | .rc => 5

def FCls.code : FCls → Nat
  | .boundary => 0 | .live => 1 | .locked => 2

/-- GET_FIELD: a read of one field, and its shadow (R359). -/
def State.getFieldCmd (s : State) (c : Cmd) : State :=
  match c.field with
  | none => s.reply c 0x12 0 0 0
  | some (l, f) =>
    let sh := match s.shadowAt l.off with
      | some x => if Nat.land x.mask.toNat f.mask = 0 then none else some (fieldOf x.val f.lsb f.width)
      | none => none
    let r := s.readReg c.fn l f.mask
    r.1.reply c 0 (bitsOf r.2 f.lsb f.width) (sh.getD 0) (pack [(b2n sh.isSome, 0), (f.cls.code, 1), (f.acc.code, 3)])

/-! ### Block Mover channels -/

/-- BMV_START: its reply comes at the descriptor's end (R260, R261). -/
def State.bmvStartCmd (s : State) (c : Cmd) : State :=
  let ch := c.index
  if (s.chan ch).active then s.reply c 0x30 0 0 0
  else match s.descCheck ch c.fn c.bytes with
    | some (e, _) => s.reply c e 0 0 0
    | none =>
      s.setChan ch { (s.chan ch).run c.bytes with byList := false, starter := c.fn, stopping := none, ahead := none }

/-- BMV_STOP (R270): its reply comes when the channel is idle; a channel that is stopping is BUSY (R366). -/
def State.bmvStopCmd (s : State) (c : Cmd) : State :=
  let ch := c.index
  if !(s.chan ch).active then s.reply c 0 0xFF 0 0
  else if (s.chan ch).stopping.isSome then s.reply c 0x30 0 0 0
  else s.bmvStop ch (c.par 0 8 == 1)

/-! ### Banks and repairs -/

/-- BANK_POWER (R364): its reply comes when the bank has reached the state; a bank that another command waits for is BUSY
(R366). -/
def State.bankCmd (s : State) (c : Cmd) : State :=
  let b := c.par 0 16
  let req := c.par 16 8
  if b < 0x600 && !(s.die (b / 256)).up then s.reply c 0x12 0 0 0
  else if s.ce.open_.any (fun x => x.id != c.id && x.op == 0x0202 && lget 0 x.res 0 == b) then s.reply c 0x30 0 0 0
  else match s.bankRefused b req with
    | some e => s.reply c e 0 0 0
    | none => ((s.setRes c.id [b, req]).bankAsk b req).bankReplies b

/-- Slots of the field repair table (R241). -/
def repairSlots : Nat := 4096

/-- The reason for which REPAIR_ADD refuses (R242). -/
def State.repairRefused (s : State) (b col : Nat) : Option Nat :=
  let mine := s.repairs.filter (fun r => r.1 == b)
  if (bankKind b).isNone then some 1
  else if bankCols b ≤ col then some 2
  else if (s.bank b).cols.contains col || mine.any (fun r => r.2.1 == col) then some 3
  else if 8 ≤ (bitsSet 8 (s.bank b).fuseUsed).length + mine.length then some 4
  else if repairSlots ≤ s.repairs.length then some 5
  else none

/-- REPAIR_ADD. -/
def State.repairCmd (s : State) (c : Cmd) : State :=
  match s.repairRefused (c.par 0 16) (c.par 16 16) with
  | some r => s.reply c 0x12 r 0 0
  | none =>
    let seq := s.repairs.length + 1
    { s with repairs := s.repairs ++ [(c.par 0 16, c.par 16 16, seq, s.now % 2 ^ 32)] }.reply c 0 seq 0 0

/-! ### Ports -/

/-- A graph that an image of PFP_GRAPH binds and another function owns (R295). -/
def State.foreignGraph (s : State) (fn : Nat) (l : Loc) (v : Nat) : Bool :=
  l.row.id == .pfpGraph && (s.graph (bitsOf v 0 8)).state != .free && (s.graph (bitsOf v 0 8)).owner != fn

/-- PORT_CONFIG: every image judged in the state before, the enable bit last (R295); a change to a Locked field that it
carries is a rejected write (R12, R457). (DEDUCED, log entry 40) -/
def State.portConfig (s : State) (c : Cmd) : State :=
  let all := 2 ^ 32 - 1
  let xs := c.images
  let locked (p : Loc × Nat) : Bool := p.1.row.fields.any (s.lockedOut p.1 p.2)
  if xs.any (fun p => s.dynBad p.1 p.2 all || s.foreignGraph c.fn p.1 p.2) then s.reply c 0x12 0 0 0
  else if xs.any locked then
    ((xs.filter locked).foldl (fun t p => (t.rejectBit c.fn p.1.row.code).refuseWrite c.fn p.1.off) s).reply c 0x31 0 0 0
  else
    let s1 := xs.foldl (fun t p => p.1.row.fields.foldl (State.putField s p.1 p.2) t) s
    let cfg (p : Loc × Nat) : Bool := p.1.row.id == .pfpCfg
    let s2 := (xs.filter (fun p => !cfg p)).foldl (fun t p => t.act s p.1 p.2 all 0 c.fn) s1
    ((xs.filter cfg).foldl (fun t p => t.act s p.1 p.2 all 0 c.fn) s2).reply c 0 0 0 0

/-- The run that POUR_ARM mode 0 prepares. -/
def State.armedRun (s : State) (c : Cmd) : Run :=
  { Run.reset with holding := (s.port (c.par 0 8)).run.holding, base := c.par 64 36, next := c.par 64 36, prefill := c.par 32 32, endCount := c.par 128 48,
                   trigger := c.par 16 8, trigT := c.par 192 64, clearing := true,
                   clearEnd := s.clk.edges + 256 }

/-- POUR_ARM (R296): an arm is answered when its presence clear is complete, a stop when the port is IDLE. -/
def State.pourArm (s : State) (c : Cmd) : State :=
  let p := c.par 0 8
  let x := s.port p
  if c.par 8 8 = 0 then
    (if x.run.clearing then s.reply c 0x30 0 0 0
     else if x.state ≠ .idle then s.reply c 0x12 0 0 0
     else s.setPort p { x with run := s.armedRun c })
  else if x.state ≠ .armed ∧ x.state ≠ .running then s.reply c 0x12 0 0 0
  else if x.run.stop.isSome then s.reply c 0x30 0 0 0
  else s.requestStop p (c.par 8 8 + 1) c.beganAt.toNat

/-! ### Epoch, Blends -/

/-- EPOCH_SCHEDULE (R364). -/
def State.epochSchedule (s : State) (c : Cmd) : State :=
  let t := c.par 0 64
  if c.par 64 8 = 1 then
    { s with clk := { s.clk with sched := none, jumped := false } }.reply64 c (match s.clk.sched with | some x => x.toNat | none => 0)
  else if t < c.beganAt.toNat + 1000 then s.reply c 0x12 0 0 0
  else { s with clk := { s.clk with sched := some (BitVec.ofNat 64 t), jumped := false } }.reply64 c t

/-- BLEND_STAGE (R420): the inactive slot takes the image that the host read gives. -/
def State.blendStage (late : Bool) (data : HostData) (s0 : State) (c : Cmd) : State :=
  if s0.blend.act.isSome || s0.blend.revert.isSome then s0.reply c 0x30 0 0 0
  else
    let s := s0.readSource c (c.par 0 64) (c.par 64 32) late data
    let k := s.otherSlot
    let slot (ok : Bool) : BSlot :=
      { written := ok, factory := false, image := if ok then slice data.bytes 0 (c.par 64 32) else [], verified := false,
        version := 0, rollback := 0 }
    if dataBad data then (s.setBslot k (slot false)).reply c 0x12 0 0 0
    else ((s.setBslot k (slot true)).blendLog 16 k 0).reply c 0 k 0 0

/-- BLEND_VERIFY (R418). -/
def State.blendVerify (s : State) (c : Cmd) : State :=
  match s.verifySlot (c.par 0 8) with
  | (s1, none) => s1.reply c 0 (s1.bslot (c.par 0 8)).ver 0 0
  | (s1, some (e, w)) => s1.reply c e w 0 0

/-- The checks 2 to 5 of BLEND_ACTIVATE_AT (R421): status and reason. -/
def State.activateRefused (s : State) (basis v : Nat) : Option (Nat × Nat) :=
  let x := s.bslot s.otherSlot
  let ahead := (v + 2 ^ 48 - s.clk.epoch.toNat) % 2 ^ 48
  if !x.verified then some (0x12, 2)
  else if s.blend.act.isSome || s.blend.revert.isSome then some (0x30, 0)
  else if basis = 0 ∧ v < s.now + 1000 then some (0x12, 3)
  else if basis = 1 ∧ (2 ^ 48 ≤ v ∨ ahead = 0 ∨ 2 ^ 47 < ahead) then some (0x12, 3)
  else if s.compatRefused x then some (0x53, 0)
  else none

/-- BLEND_ACTIVATE_AT. -/
def State.activateAt (s : State) (c : Cmd) : State :=
  match s.activateRefused (c.par 0 8) (c.par 64 64) with
  | some (e, w) => s.reply c e w 0 0
  | none =>
    { s with blend := { s.blend with act := some (c.par 0 8, c.par 8 8, BitVec.ofNat 64 (c.par 64 64)) } }.reply c 0 0 0 0

/-- BLEND_CANCEL. -/
def State.cancelCmd (s : State) (c : Cmd) : State :=
  match s.blendCancel with
  | (s1, had) => s1.reply c 0 (b2n had) 0 0

/-! ### Ledger and log -/

/-- LEDGER_READ: whole entries, oldest first (R402). -/
def State.ledgerRead (s : State) (c : Cmd) : State :=
  let es := s.start.ledger.reverse.take (c.par 64 32 / 64)
  (s.toHost c (c.par 0 64) (es.map LedgerEntry.bytes).flatten).reply c 0 (64 * es.length) 0 0

/-- LEDGER_CLEAR. -/
def State.ledgerClear (s : State) (c : Cmd) : State := { s with start := s.start.clear }.reply c 0 0 0 0

/-- The first entry that a read from f gives, and how many entries follow from it (R410): entry numbers wrap. -/
def logRange (next held f : Nat) : Nat × Nat :=
  if held ≤ next then
    (if next ≤ f then (f, 0) else if f < next - held then (next - held, held) else (f, next - f))
  else
    let oldest := next + 2 ^ 32 - held
    if f < next then (f, next - f) else if oldest ≤ f then (f, next + 2 ^ 32 - f) else (f, 0)

/-- LOG_READ. -/
def State.logRead (s : State) (c : Cmd) : State :=
  let r := logRange s.logNext.toNat s.log.length (c.par 64 32)
  let n := min r.2 (c.par 96 32)
  let bs := ((List.range n).map (fun k => match tfind s.log ((r.1 + k) % 131072) with
    | some e => logBytes e
    | none => List.replicate 64 0)).flatten
  (s.toHost c (c.par 0 64) bs).reply c 0 n ((r.1 + n) % 2 ^ 32) 0

/-! ### SNAPSHOT (R365) -/

/-- The columns of a slot (R239). -/
def slotCols (x : Slot) : Nat := x.bits + x.par.toNat * 2 ^ 72
def slotFrom (v : Nat) : Slot :=
  { w0 := BitVec.ofNat 36 (bitsOf v 36 36), w1 := BitVec.ofNat 36 (bitsOf v 0 36), par := BitVec.ofNat 4 (bitsOf v 72 4) }

/-- The columns of a way: the fields of R160 from valid upward. -/
def wayCols (e : MsEntry) : Nat :=
  pack [(b2n e.valid, 0), (e.cid.toNat, 1), (e.ip.toNat, 25), (e.colour.toNat, 45), (e.pmask.toNat, 57), (b2n e.acc, 60),
        (e.fop.toNat, 61), (b2n e.sgn, 64), (e.rem.toNat, 65), (b2n e.ovf, 96), (e.val.v.toNat, 97), (b2n e.val.p, 133),
        (e.par.toNat, 134)]
def wayFrom (v : Nat) : MsEntry :=
  { valid := bitOf v 0, cid := BitVec.ofNat 24 (bitsOf v 1 24), ip := BitVec.ofNat 20 (bitsOf v 25 20),
    colour := BitVec.ofNat 12 (bitsOf v 45 12), pmask := BitVec.ofNat 3 (bitsOf v 57 3), acc := bitOf v 60,
    fop := BitVec.ofNat 3 (bitsOf v 61 3), sgn := bitOf v 64, rem := BitVec.ofNat 31 (bitsOf v 65 31), ovf := bitOf v 96,
    val := { v := BitVec.ofNat 36 (bitsOf v 97 36), p := bitOf v 133 }, par := BitVec.ofNat 5 (bitsOf v 134 5) }

/-- Bytes of one row. -/
def rowSize (store : Nat) : Nat := if store = 0 then 64 else 320

/-- The row of a store as bytes. -/
def State.rowBytes (s : State) (n store row : Nat) : List Byte :=
  if store = 0 then ((List.range 4).map (fun k => leBytes 16 (slotCols (s.slot n (4 * row + k))))).flatten
  else
    let x := s.mset n row
    (x.ways.map (fun e => leBytes 18 (wayCols e))).flatten ++ leBytes 32 (b2n x.ovf)

/-- A set replaced as a whole, with the counts that follow its ways and its overflow bit (R176). -/
def State.rawSet (s : State) (n set : Nat) (x : MsSet) : State :=
  let old := s.mset n set
  let used (y : MsSet) : Nat := (y.ways.filter (fun e => e.valid)).length
  (s.setMset n set x).updDie n (fun d =>
    { d with occ := d.occ + used x - used old, hwm := max d.hwm (d.occ + used x - used old),
             ovfSets := d.ovfSets + b2n x.ovf - b2n old.ovf })

/-- A row takes bytes, parity included. -/
def State.rowWrite (s : State) (n store row : Nat) (b : List Byte) : State :=
  if store = 0 then (List.range 4).foldl (fun t k => t.setSlot n (4 * row + k) (slotFrom (leAt b (16 * k) 16))) s
  else s.rawSet n row { ways := (List.range 16).map (fun k => wayFrom (leAt b (18 * k) 18)), ovf := bitOf (leAt b 288 1) 0 }

/-- The bank of a row. -/
def rowBank (n store row : Nat) : Nat := if store = 0 then isBank n (4 * row) else msBank n row

/-- SNAPSHOT. -/
def State.snapshot (late : Bool) (data : HostData) (s0 : State) (c : Cmd) : State :=
  let n := c.index
  let store := c.par 8 8
  let cnt := c.par 64 32
  let rows := (List.range cnt).map (fun k => c.par 32 32 + k)
  if !(s0.die n).up then s0.reply c 0x12 0 0 0
  else if c.par 0 8 = 0 then
    let s := rows.foldl (fun t r => (t.accessNow (rowBank n store r)).1) s0
    (s.toHost c (c.par 128 64) (rows.map (s.rowBytes n store)).flatten).reply c 0 cnt 0 0
  else if s0.anyGraph then s0.reply c 0x31 0 0 0
  else if (s0.die n).sweeping then s0.reply c 0x30 0 0 0
  else
    let s := s0.readSource c (c.par 128 64) (rowSize store * cnt) late data
    if dataBad data then s.reply c 0x12 0 0 0
    else
      let s1 := rows.foldl (fun t r => (t.accessNow (rowBank n store r)).1) s
      (rows.zipIdx.foldl (fun t p => t.rowWrite n store p.1 (slice data.bytes (rowSize store * p.2) (rowSize store))) s1).reply
        c 0 cnt 0 0

/-! ### Commands -/

/-- NOP (R357). -/
def execNop (s : State) : Host.Outcome State Fault Refusal := .next (s.withCmd 0x0001 State.nop).finish

/-- IDENTIFY (R358). -/
def execIdentify (s : State) : Host.Outcome State Fault Refusal := .next (s.withCmd 0x0002 State.identify).finish

/-- SET_FIELD (R359). (DEDUCED, log entry 40) -/
def execSetField (s : State) : Host.Outcome State Fault Refusal := .next (s.withCmd 0x0010 State.setFieldCmd).finish

/-- GET_FIELD (R359). -/
def execGetField (s : State) : Host.Outcome State Fault Refusal := .next (s.withCmd 0x0011 State.getFieldCmd).finish

/-- BMV_START (R260). -/
def execBmvStart (s : State) : Host.Outcome State Fault Refusal := .next (s.withCmd 0x0200 State.bmvStartCmd).finish

/-- BMV_STOP (R270). -/
def execBmvStop (s : State) : Host.Outcome State Fault Refusal := .next (s.withCmd 0x0201 State.bmvStopCmd).finish

/-- BANK_POWER (R364). -/
def execBankPower (s : State) : Host.Outcome State Fault Refusal := .next (s.withCmd 0x0202 State.bankCmd).finish

/-- REPAIR_ADD (R242). -/
def execRepairAdd (s : State) : Host.Outcome State Fault Refusal := .next (s.withCmd 0x0203 State.repairCmd).finish

/-- PORT_CONFIG (R295). -/
def execPortConfig (s : State) : Host.Outcome State Fault Refusal := .next (s.withCmd 0x0300 State.portConfig).finish

/-- POUR_ARM (R296). -/
def execPourArm (s : State) : Host.Outcome State Fault Refusal := .next (s.withCmd 0x0301 State.pourArm).finish

/-- EPOCH_SCHEDULE (R364). -/
def execEpochSchedule (s : State) : Host.Outcome State Fault Refusal := .next (s.withCmd 0x0302 State.epochSchedule).finish

/-- BLEND_STAGE (R420). -/
def execBlendStage (data : HostData) (s : State) : Host.Outcome State Fault Refusal :=
  .next (s.withCmd 0x0500 (State.blendStage false data)).finish

/-- BLEND_VERIFY (R418). -/
def execBlendVerify (s : State) : Host.Outcome State Fault Refusal := .next (s.withCmd 0x0501 State.blendVerify).finish

/-- BLEND_ACTIVATE_AT (R421). -/
def execBlendActivateAt (s : State) : Host.Outcome State Fault Refusal := .next (s.withCmd 0x0502 State.activateAt).finish

/-- BLEND_CANCEL (R421). -/
def execBlendCancel (s : State) : Host.Outcome State Fault Refusal := .next (s.withCmd 0x0503 State.cancelCmd).finish

/-- LEDGER_READ (R402). -/
def execLedgerRead (s : State) : Host.Outcome State Fault Refusal := .next (s.withCmd 0x0504 State.ledgerRead).finish

/-- LEDGER_CLEAR (R402). -/
def execLedgerClear (s : State) : Host.Outcome State Fault Refusal := .next (s.withCmd 0x0505 State.ledgerClear).finish

/-- LOG_READ (R410). -/
def execLogRead (s : State) : Host.Outcome State Fault Refusal := .next (s.withCmd 0x0506 State.logRead).finish

/-- SNAPSHOT (R365). -/
def execSnapshot (data : HostData) (s : State) : Host.Outcome State Fault Refusal :=
  .next (s.withCmd 0x0600 (State.snapshot false data)).finish

end Sys2Proof.Machine
end

