-- ==== Sys2Proof/Machine/Kaolin.lean ====
section
/-! DEFINITION. Kaolin, the measuring die (R311-R336): its commands at the Command Engine, the Seal Port requests it serves,
its measurements, records, signature blocks, seal, calibration and audit trail. -/

namespace Sys2Proof.Machine

/-! ### Values that Kaolin keeps -/

/-- The private key, in 1 to n - 1, and the public key X ‖ Y (R335). -/
def kaoPrivate : Nat := Config.kaoKey % (p256.n - 1) + 1
def kaoPublic : List Byte := p256.public kaoPrivate

/-- H(−1) of R323. -/
def kaoGenesis : List Byte := sha256 (leBytes 8 duid.toNat ++ kaoPublic)

/-- One step of a chain (R323). -/
def chainStep (h entry : List Byte) : List Byte := sha256 (h ++ entry)

/-- An audit entry (R334). -/
def auditEntry (i event kind mec calId : Nat) (time : List Byte) (seq : Nat) (digest : List Byte) : List Byte :=
  leBytes 4 i ++ leBytes 1 event ++ leBytes 1 kind ++ leBytes 2 0 ++ leBytes 4 mec ++ leBytes 4 calId ++ time ++
    leBytes 8 seq ++ slice digest 0 32

/-- The audit entries of manufacture: entry 0 KEY_GENERATED (R335), and those after it. Before its first seal break and its
first coefficient write the MEC and the calibration ID were 0 (R333). (UNVERIFIED, log entry 7) -/
def kaoMade : List (List Byte) :=
  auditEntry 0 1 0 0 0 (leBytes 8 Config.kaoMadeAt.toNat) 0 [] :: Config.kaoAudit.map (fun e => slice e 0 64)

/-- H of the newest committed record. -/
def Kao.head (k : Kao) : List Byte := if k.chain.isEmpty then kaoGenesis else k.chain

/-- A of the newest audit entry. -/
def Kao.auditHead (k : Kao) : List Byte :=
  if k.auditChain.isEmpty then kaoMade.foldl chainStep kaoGenesis else k.auditChain

/-- The audit trail. -/
def Kao.trail (k : Kao) : List (List Byte) := kaoMade ++ k.audit

/-- The coefficients that a stored body holds; empty stands for that of manufacture. -/
def kaoBody (b : List Byte) : List Byte := if b.isEmpty then slice Config.kaoBank 0 33424 else b

def Kao.bank (k : Kao) : List Byte := if k.active then k.bankB else k.bankA
def Kao.authority (k : Kao) : List Byte := if k.authKey.isEmpty then slice Config.kaoAuthority 0 64 else k.authKey

/-- Calibration writes are blocked (R329). -/
def Kao.blocked (k : Kao) : Bool := k.mec == BitVec.allOnes 32 || decide (4000 ≤ k.trail.length)

/-- The MEC after an event that increments it (R329). -/
def Kao.nextMec (k : Kao) : BitVec 32 := if k.mec = BitVec.allOnes 32 then k.mec else k.mec + 1

/-- Eight bytes of Kaolin time and start count (R322). -/
def Kao.time (k : Kao) : List Byte := leBytes 6 k.ns ++ leBytes 2 k.starts.toNat

/-- Kaolin time has reached a value; it does not fall. (DESIGN CHOICE, log entry 8) -/
def Kao.reach (k : Kao) (ns : Nat) : Kao := { k with ns := max k.ns ns }

/-- One ns in the unit of raw times, 1/2048 fs. -/
def rawNs : Nat := 1000000 * 2048

/-- Kaolin writes an audit entry for the state after an event, unless the trail is full (R334). -/
def Kao.note (k : Kao) (event kind : Nat) (digest : List Byte) : Kao :=
  let i := k.trail.length
  if 4096 ≤ i then { k with overflow := true }
  else
    let e := auditEntry i event kind k.mec.toNat k.calId.toNat k.time k.seqNext digest
    { k with audit := k.audit ++ [e], auditChain := chainStep k.auditHead e }

/-! ### Coefficients (R316, R317, R331) -/

/-- A two's complement little-endian field of a body. -/
def coefAt (b : List Byte) (off n : Nat) : Int := sextNat (8 * n) (leAt b off n)

/-- The body a request measures with; none for an uncalibrated part. -/
def KRun.body (r : KRun) : Option (List Byte) := if r.uncal then none else some (kaoBody r.coefs)

/-- A coefficient of a request's bank, zero for an uncalibrated part (R333). -/
def KRun.coef (r : KRun) (off n : Nat) : Int := match r.body with | none => 0 | some b => coefAt b off n

/-- Raw time of an edge in 1/2048 fs (R316). -/
def rawTime (coarse code : Nat) : Nat := (coarse * 2048 + code) * 500000

/-- corr(code) of R316 on channel c, in 1/2048 fs. -/
def KRun.corr (r : KRun) (c code : Nat) : Int :=
  let i := code / 8
  let t (j : Nat) : Int := r.coef (c * 1040 + 8 + 4 * j) 4
  if i < 255 then t i * 2048 + (t (i + 1) - t i) * (code - 8 * i : Nat) * 256 else t 255 * 2048

/-- t(e) + off of an edge on channel c, in 1/2048 fs. -/
def KRun.edgeTime (r : KRun) (c coarse code : Nat) : Int :=
  (rawTime coarse code : Int) + r.corr c code + r.coef (c * 1040) 4 * 2048

/-- An interval of R316 from the times of its edges, in 1/(2048 · 10⁹) fs. -/
def KRun.interval (r : KRun) (start stop : Int) : Int := (stop - start) * (1000000000 + r.coef 33280 4)

/-- The value of a DC code on channel d (R317), in 1/(2²³ · 10⁹) pV. -/
def KRun.dcValue (r : KRun) (d : Nat) (code : Int) : Int :=
  let o := 33296 + 16 * d
  (code * 2500000000000 - r.coef o 8 * 8388608) * (1000000000 + r.coef (o + 8) 4)

/-! ### Requests (R318, R320) -/

def KRun.ty (r : KRun) : Nat := leAt r.params 0 1
def KRun.byteA (r : KRun) : Nat := leAt r.params 1 1
def KRun.byteB (r : KRun) : Nat := leAt r.params 2 1
def KRun.q (r : KRun) : Nat := leAt r.params 3 1
def KRun.count (r : KRun) : Nat := leAt r.params 4 4
def KRun.isDc (r : KRun) : Bool := r.ty == 3
def KRun.chanA (r : KRun) : Nat := bitsOf r.byteA 0 5
def KRun.chanB (r : KRun) : Nat := bitsOf r.byteB 0 5

/-- The channel set of a request (R321): KT channels are 0-31, KD channels 32-39. -/
def KRun.chans (r : KRun) : List Nat := if r.isDc then [32 + bitsOf r.byteA 0 3] else [r.chanA, r.chanB]

/-- Started and not ended. -/
def KRun.running (r : KRun) : Bool := r.started && r.ended.isNone

/-- Nearest integer to x / d, with ties away from zero. -/
def roundDiv (x : Int) (d : Nat) : Int :=
  let m := (2 * x.natAbs + d) / (2 * d)
  if x < 0 then - (m : Int) else (m : Int)

/-- Samples are kept as integers in 1/scale of a unit. -/
def KRun.scale (r : KRun) : Nat := if r.isDc then 8388608 * 1000000000 else 2048 * 1000000000

/-- The mean of the samples in units (R320). (DEDUCED, log entry 41) -/
def KRun.mean (r : KRun) : Int := roundDiv (r.samples.foldl (· + ·) 0) (r.samples.length * r.scale)

/-- The root-mean-square spread of the samples about their exact mean (R320): with n samples of sum S and square sum Q it is
√(n·Q − S²) / n, rounded with ties away from zero. -/
def KRun.spread (r : KRun) : Nat :=
  let n := r.samples.length
  let sum := r.samples.foldl (· + ·) 0
  let sq := r.samples.foldl (fun a x => a + x * x) 0
  let v := ((n : Int) * sq - sum * sum).natAbs
  (isqrtAux 200 (4 * v) 0 / (n * r.scale) + 1) / 2

/-- A number as bytes of two's complement. -/
def intBytes (n : Nat) (x : Int) : List Byte := leBytes n (BitVec.ofInt (8 * n) x).toNat

/-! ### Records and blocks (R322-R325) -/

/-- Record flags (R322). -/
def Kao.flags (k : Kao) (r : KRun) : Nat :=
  b2n k.sealClosed + b2n k.kref100 * 2 + b2n r.uncal * 4 + b2n k.overflow * 8 + (if r.isDc then 0 else bitsOf r.q 0 4) * 16

/-- The CMR of an ended request. -/
def Kao.cmr (k : Kao) (r : KRun) (status : Nat) : List Byte :=
  let ok := status == 0
  leBytes 8 k.seqNext ++ leBytes 1 r.ty ++ leBytes 1 status ++ leBytes 1 r.byteA ++ leBytes 1 r.byteB ++
    leBytes 4 r.startMec.toNat ++ leBytes 4 r.startCal.toNat ++ leBytes 4 r.samples.length ++
    intBytes 8 (if ok then r.mean else 0) ++ intBytes 8 (if ok && r.ty != 1 then (r.spread : Int) else 0) ++ k.time ++
    leBytes 8 r.sentTb.toNat ++ leBytes 4 (leAt r.params 12 4) ++ leBytes 2 (k.flags r) ++ leBytes 2 0

/-- The message M of a signature block whose signing begins now (R324). -/
def Kao.message (k : Kao) (b : SigBlock) : List Byte :=
  leBytes 8 b.n ++ b.head ++ leBytes 4 k.trail.length ++ k.auditHead ++ leBytes 4 k.mec.toNat ++
    leBytes 4 k.calId.toNat ++ leBytes 8 duid.toNat ++ leBytes 4 (b2n b.bySign + b2n k.overflow * 2)

/-- The signing of the first block to be made begins, unless it has begun (R324). -/
def Kao.beginSign (k : Kao) : Kao :=
  match k.signing with
  | [] => k
  | b :: rest => if b.msg.isSome then k else { k with signing := { b with msg := some (k.message b) } :: rest }

/-- A block that covers the newest record is to be made (R324). -/
def Kao.queueSign (k : Kao) (bySign : Bool) : Kao :=
  let b : SigBlock := { n := k.seqNext - 1, head := k.head, bySign := bySign, msg := none }
  Kao.beginSign { k with signing := k.signing ++ [b] }

/-- n of a block or of its message. -/
def blockN (b : List Byte) : Nat := leAt b 0 8

/-- The blocks that Kaolin keeps: the newest whose n lies below the oldest unreleased sequence, and every later one (R325). -/
def Kao.prune (k : Kao) : Kao :=
  let old := k.blocks.filter (fun b => decide (blockN b < k.oldest))
  { k with blocks := (match old.getLast? with | none => [] | some b => [b]) ++
      k.blocks.filter (fun b => decide (k.oldest ≤ blockN b)) }

/-- The ring has room for a record. -/
def Kao.room (k : Kao) : Bool := decide (k.seqNext - k.oldest < 32768)

/-- An ended request's record is committed (R323); every 256th record is signed (R324). -/
def Kao.commit (k : Kao) (r : KRun) (status : Nat) : Kao :=
  let c := k.cmr r status
  let k1 := { k with cmrs := tput [] k.cmrs k.seqNext c, chain := chainStep k.head c, seqNext := k.seqNext + 1 }
  if k.seqNext % 256 = 255 then k1.queueSign false else k1

/-- A 64-bit number as the result words [31:0] and [63:32]. -/
def State.reply32 (s : State) (c : Option Cmd) (w0 : Nat) (v : Nat) : State :=
  match c with
  | none => s
  | some c => s.reply c 0 w0 (v % 2 ^ 32) (v / 2 ^ 32)

def State.replyTo (s : State) (c : Option Cmd) (status w0 w1 w2 : Nat) : State :=
  match c with | none => s | some c => s.reply c status w0 w1 w2

def State.updKao (s : State) (f : Kao → Kao) : State := { s with kao := f s.kao }

/-- The requests that can start do, in arrival order (R321). (DEDUCED, log entry 41) -/
def Kao.startRuns : Nat → Kao → List KRun → List KRun → Kao
  | _, k, done, [] => { k with held := done }
  | 0, k, done, rs => { k with held := done ++ rs }
  | f + 1, k, done, r :: rs =>
    if r.started then Kao.startRuns f k (done ++ [r]) rs
    else
      let busy := (done ++ rs).filter (fun x => x.started)
      if (busy.filter KRun.running).length < 8 && busy.all (fun x => x.chans.all (fun c => !r.chans.contains c)) then
        let r1 := { r with started := true, startMec := k.mec, startCal := k.calId, coefs := k.bank, uncal := k.uncal,
                           refFault := !k.refOk, sampleFrom := k.ns * rawNs }
        Kao.startRuns f k (done ++ [r1]) rs
      else { k with held := done ++ (r :: rs) }

def Kao.schedule (k : Kao) : Kao := Kao.startRuns k.held.length k [] k.held

/-- Ended requests are committed while the ring has room (R321, R323); the reply goes at the commit. -/
def State.commitAll : Nat → State → State
  | 0, s => s
  | f + 1, s =>
    match takeFirst (fun r => r.ended.isSome) s.kao.held with
    | none => s
    | some (r, rest) =>
      if !s.kao.room then s
      else
        let st := r.ended.getD 0
        let seq := s.kao.seqNext
        let s1 := s.updKao (fun k => { k.commit r st with held := rest })
        State.commitAll f (if s.sealPort.up then s1.replyTo r.cmd 0 (seq % 2 ^ 32) (seq / 2 ^ 32) (st + r.ty * 256) else s1)

/-- Commits that are possible happen, then starts. -/
def State.kaoSettle (s : State) : State := (State.commitAll s.kao.held.length s).updKao Kao.schedule

/-- A request ends (R320); a lost or unlocked reference decides its status. (DEDUCED, log entry 41) -/
def State.endRequest (s : State) (r : KRun) (rest : List KRun) (status : Nat) : State :=
  (s.updKao (fun k => { k with held := rest ++ [{ r with ended := some (if r.refFault then 4 else status) }] })).kaoSettle

/-- A request goes on. -/
def State.putRun (s : State) (old : KRun) (r : KRun) : State :=
  s.updKao (fun k => { k with held := k.held.map (fun x => if x = old then r else x) })

/-- A sample of a request is complete: the request ends after the N-th. -/
def State.addSample (s : State) (old r : KRun) (rest : List KRun) (v : Int) : State :=
  let r1 := { r with samples := r.samples ++ [v] }
  if r.count ≤ r1.samples.length then s.endRequest r1 rest 0 else s.putRun old r1

/-! ### Edges and conversions (R315, R319) -/

/-- 4.0 ns in 1/2048 fs. -/
def deadTime : Nat := 4000000 * 2048
/-- 10 µs in 1/2048 fs. -/
def stopLimit : Nat := 10000000000 * 2048

/-- The raw time until which the running sample waits for its start edge (R318, R319). (DEDUCED, log entry 41) -/
def KRun.startLimit (r : KRun) : Nat := r.sampleFrom + leAt r.params 8 4 * 1000 * rawNs

/-- An edge on channel c is within the dead time of the channel's previous timestamped edge. -/
def Kao.dead (k : Kao) (c t : Nat) : Bool :=
  match tfind k.lastEdge c with
  | none => false
  | some e => decide (t < e - 1 + deadTime)

def State.stamp (s : State) (c t : Nat) : State := s.updKao (fun k => { k with lastEdge := tput 0 k.lastEdge c (t + 1) })

/-- A running TDC request waits for an edge on a channel of a polarity: its start edge, or a stop edge. -/
def KRun.awaits (r : KRun) (c : Nat) (falling : Bool) : Bool :=
  r.running && !r.isDc &&
    (if r.startEdge.isNone then r.chanA == c && bitOf r.byteA 7 == falling else r.chanB == c && bitOf r.byteB 7 == falling)

/-- An edge on a KSENSE input (R319). (DEDUCED, log entry 41) -/
def State.sense (s0 : State) (c : Nat) (falling : Bool) (coarse code : Nat) : State :=
  let t := rawTime coarse code
  let s := if s0.kao.ready then s0.updKao (fun k => k.reach (t / rawNs)) else s0
  if !s.kao.ready || s.kao.dead c t then s
  else match takeFirst (fun r => KRun.awaits r c falling) s.kao.held with
    | none => s
    | some (r, rest) =>
      match r.startEdge with
      | none =>
        if t < r.sampleFrom then s
        else if r.startLimit < t then s.endRequest r rest 1
        else (s.putRun r { r with startEdge := some (r.edgeTime c coarse code, t), stops := 0 }).stamp c t
      | some (x, t0) =>
        if t0 + stopLimit < t then s.endRequest r rest 2
        else if r.stops + 1 < r.q then (s.putRun r { r with stops := r.stops + 1 }).stamp c t
        else
          (s.stamp c t).addSample r { r with startEdge := none, stops := 0, sampleFrom := t + deadTime } rest
            (r.interval x (r.edgeTime c coarse code))

/-- A DC conversion at a Kaolin time (R315, R317). -/
def State.convert (s0 : State) (d : Nat) (code : BitVec 24) (ns : Nat) : State :=
  let s := s0.updKao (fun k => k.reach ns)
  if !s0.kao.ready then s0
  else match takeFirst (fun r => r.running && r.isDc && bitsOf r.byteA 0 3 == d) s.kao.held with
    | none => s
    | some (r, rest) =>
      let r1 := { r with conv := r.conv + 1 }
      if r.conv < 5 then s.putRun r r1
      else if code = 0x800000 ∨ code = 0x7FFFFF then s.endRequest r1 rest 3
      else s.addSample r r1 rest (r1.dcValue d code.toInt)

/-- The raw time at which the running sample's wait ends: for its start edge, or 10 µs after it. -/
def KRun.limit (r : KRun) : Nat := match r.startEdge with | none => r.startLimit | some (_, t) => t + stopLimit

/-- A sample's start or stop edge does not come by its limit (R320). (DEDUCED, log entry 41) -/
def State.noEdge (s : State) (p : KRun → Bool) (status : Nat) : State :=
  if !s.kao.ready then s
  else match takeFirst (fun r => r.running && !r.isDc && p r) s.kao.held with
    | none => s
    | some (r, rest) => (s.updKao (fun k => k.reach (r.limit / rawNs))).endRequest r rest status

/-! ### Requests on the Seal Port (R313) -/

def State.updSeal (s : State) (f : SealEnd → SealEnd) : State := { s with sealPort := f s.sealPort }

/-- A request is taken from those that the Command Engine holds. -/
def State.dropReq (s : State) (r : SealReq) : State :=
  s.updSeal (fun e => { e with waitingR := e.waitingR.filter (fun x => x != r) })

/-- Kaolin serves the oldest request of a type: a frame with a bad integrity check is dropped, and its command stays without
an answer (R313, R314). -/
def State.serve (s : State) (ty : Nat) (good : Bool) (f : State → SealReq → State) : State :=
  if !s.sealPort.up || !s.kao.ready then s
  else match s.sealPort.waitingR.find? (fun r => r.ty == ty) with
    | none => s
    | some r =>
      let s1 := s.dropReq r
      if good then f s1 r
      else (s1.updKao (fun k => { k with dropped := k.dropped + 1 })).updSeal (fun e => { e with sent := e.sent ++ [r] })

/-- The request continues as one of the next type. -/
def State.nextReq (s : State) (r : SealReq) (ty : Nat) : State :=
  s.updSeal (fun e => { e with waitingR := { r with ty := ty } :: e.waitingR })

/-! ### MEASURE (R321) -/

/-- Requests that Kaolin holds and that have not ended. -/
def Kao.open_ (k : Kao) : Nat := (k.held.filter (fun r => r.ended.isNone)).length

/-- The request that the Command Engine sends next: the oldest that is due, else the one whose send time comes first. -/
def State.measurePick (s : State) : Option SealReq :=
  let rs := s.sealPort.waitingR.filter (fun r => r.ty == 1)
  match rs.find? (fun r => decide (r.sendAt.toNat ≤ s.now)) with
  | some r => some r
  | none => rs.foldl (fun a r => match a with
      | none => some r
      | some b => if r.sendAt.toNat < b.sendAt.toNat then some r else some b) none

/-- A MEASURE request that reaches Kaolin at a Kaolin time (R321). -/
def State.measure (s0 : State) (good : Bool) (ns : Nat) : State :=
  if !s0.sealPort.up || !s0.kao.ready || decide (16 ≤ s0.kao.open_) then s0
  else match s0.measurePick with
    | none => s0
    | some r =>
      let s := (s0.passUntil r.sendAt.toNat).dropReq r
      if !good then (s.updKao (fun k => { k with dropped := k.dropped + 1 })).updSeal (fun e => { e with sent := e.sent ++ [r] })
      else
        let run : KRun :=
          { params := r.body, cmd := r.cmd, sentTb := s.clk.tb, started := false, startMec := 0, startCal := 0, coefs := [],
            uncal := false, startEdge := none, stops := 0, conv := 0, sampleFrom := 0, samples := [], refFault := false,
            ended := none }
        s.updKao (fun k =>
          Kao.schedule { k.reach ns with held := k.held.filter (fun x => x.ended.isNone) ++ [run] ++
                                                 k.held.filter (fun x => x.ended.isSome) })

/-! ### READ (R326, R327) -/

/-- The identity block (R327). -/
def Kao.identity (k : Kao) : List Byte :=
  leBytes 2 0x0100 ++ leBytes 2 0 ++ leBytes 4 0x3E91C4B7 ++ leBytes 8 duid.toNat ++ kaoPublic ++
    leBytes 4 k.mec.toNat ++ leBytes 4 k.calId.toNat ++ leBytes 4 k.trail.length ++
    leBytes 4 (b2n k.sealClosed + b2n k.kref100 * 2 + b2n k.refOk * 4 + b2n k.uncal * 8 + b2n k.overflow * 16 +
      b2n k.blocked * 32) ++
    leBytes 8 k.seqNext ++ leBytes 8 k.oldest ++ leBytes 4 k.starts.toNat ++ leBytes 4 k.dropped.toNat ++
    leBytes 4 k.refusals.toNat ++ leBytes 4 0 ++ k.head ++ k.auditHead ++ sha256 (kaoBody k.bank) ++ List.replicate 32 0

/-- The items from `first` on in a mode, each with the number of the item after it. -/
def Kao.items (k : Kao) (mode first : Nat) : List (Nat × List Byte) :=
  if mode = 0 then
    (List.range (k.seqNext - first)).map (fun i => (first + i + 1, tget [] k.cmrs (first + i)))
  else if mode = 1 then (k.blocks.filter (fun b => decide (first ≤ blockN b))).map (fun b => (blockN b + 1, b))
  else if mode = 2 then (k.trail.zipIdx.drop first).map (fun p => (p.2 + 1, p.1))
  else if mode = 3 then [(1, k.identity)]
  else [(1, Config.kaoCert.take 2048)]

/-- The leading items that fit in a capacity. -/
def fitItems : Nat → List (Nat × List Byte) → List (Nat × List Byte)
  | _, [] => []
  | cap, x :: xs => if x.2.length ≤ cap then x :: fitItems (cap - x.2.length) xs else []

def State.readRecords (s : State) (r : SealReq) : State :=
  match r.cmd with
  | none => s
  | some c =>
    let mode := c.par 0 8
    let first := c.par 64 64
    if mode = 0 ∧ first < s.kao.oldest then s.reply c 0x12 0 0 0
    else
      let all := s.kao.items mode first
      let its := fitItems (c.par 256 32) (if mode ≤ 2 then all.take (c.par 128 32) else all)
      let bs := (its.map (fun x => x.2)).flatten
      let next := match its.getLast? with | none => first | some x => x.1
      (State.hostBytes (bs.length + 1) s (c.par 192 64) bs false c.fn).reply32 (some c) (if mode = 4 then bs.length else its.length)
        next

/-! ### RELEASE, SIGN (R324, R325) -/

/-- The sequence after the last one that a block covers. -/
def Kao.coveredEnd (k : Kao) : Nat := match k.blocks.getLast? with | none => 0 | some b => blockN b + 1

/-- RELEASE at a Kaolin time: a record that waited for the ring is committed (R321, R325). (DEDUCED, log entry 42) -/
def State.releaseReq (ns : Nat) (s0 : State) (r : SealReq) : State :=
  let s := s0.updKao (fun k => k.reach ns)
  match r.cmd with
  | none => s
  | some c =>
    let upto := c.par 64 64
    if upto < s.kao.oldest ∨ s.kao.coveredEnd < upto then s.reply c 0x12 0 0 0
    else ((s.updKao (fun k => { k with cmrs := tclear k.cmrs 0 upto, oldest := upto }.prune)).kaoSettle).reply32 (some c) 0 upto

def State.signReq (s : State) (r : SealReq) : State :=
  match r.cmd with
  | none => s
  | some c =>
    let k := s.kao
    if 256 < k.blocks.length + k.signing.length + 129 then s.reply c 0x30 0 0 0
    else if k.seqNext ≤ k.coveredEnd then s.reply c 0 0 0 0
    else if k.signing.any (fun b => b.n + 1 == k.seqNext) then
      s.updKao (fun k => { k with signCmd := k.signCmd ++ [(k.seqNext - 1, c)] })
    else s.updKao (fun k => { k.queueSign true with signCmd := k.signCmd ++ [(k.seqNext - 1, c)] })

/-- The block of 160 bytes that signing a message gives (R324). (UNVERIFIED, log entry 8) -/
def Kao.signed (k : Kao) (m : List Byte) : List Byte :=
  m ++ p256.sign kaoPrivate (Config.kaoNonce k.rnd % (p256.n - 1) + 1) (sha256 m)

/-- The signature block in progress is written, and the next is begun; the SIGN requests that it serves are answered. -/
def State.blockDone (s : State) : State :=
  if !s.kao.ready then s
  else match s.kao.signing with
    | [] => s
    | b :: bs =>
      let n := b.n
      let served := s.kao.signCmd.filter (fun p => decide (p.1 ≤ n))
      let s1 := s.updKao (fun k =>
        { k with signing := bs, blocks := k.blocks ++ [k.signed (b.msg.getD (k.message b))], rnd := k.rnd + 1,
                 signCmd := k.signCmd.filter (fun p => !decide (p.1 ≤ n)) }.prune.beginSign)
      if s.sealPort.up then served.foldl (fun t p => t.reply p.2 0 0 0 0) s1 else s1

/-! ### Calibration writes (R329-R333) -/

/-- A calibration write is refused from check 4 on. (DEDUCED, log entry 42) -/
def State.calRefuse (s : State) (r : SealReq) (status w0 : Nat) : State :=
  (s.updKao (fun k => { k with cal := none, refusals := k.refusals + 1 })).replyTo r.cmd status w0 0 0

def State.calStart (s : State) (r : SealReq) : State :=
  if s.kao.sealClosed then s.calRefuse r 0x60 0
  else if s.kao.blocked then s.calRefuse r 0x12 1
  else (s.updKao (fun k => { k with cal := some [] })).nextReq r 6

def State.calImage (s : State) (r : SealReq) : State :=
  if s.kao.cal.isNone then s.calRefuse r 0x12 2
  else (s.updKao (fun k => { k with cal := some r.body })).nextReq r 7

/-- The body length of a kind (R330). -/
def calBodyLen (kind : Nat) : Nat := if kind = 1 then 33424 else 64

/-- Check 6 of R332 on an image of a given length. -/
def calFormOk (b : List Byte) (len : Nat) : Bool :=
  let kind := leAt b 4 2
  leAt b 0 4 == 0x1C0A5E11 && (kind == 1 || kind == 2) && leAt b 6 2 == 0 && leAt b 24 40 == 0 &&
    leAt b 20 4 == calBodyLen kind && len == 128 + calBodyLen kind

/-- The length that a KAO_CAL_WRITE gives its image. -/
def SealReq.imageLen (r : SealReq) : Nat := match r.cmd with | none => r.body.length | some c => c.par 64 32

/-- The image is committed by the commit word (R333 steps 1 to 3): MEC + 1, and the new bank or key. -/
def Kao.applyCal (k : Kao) (b : List Byte) : Kao :=
  let kind := leAt b 4 2
  let body := slice b 64 (calBodyLen kind)
  let digest := sha256 body
  let k1 := { k with mec := k.nextMec, cal := none, word := some { mec := k.nextMec, kind := kind, digest := digest } }
  if kind = 1 then
    let k3 := { k1 with active := !k.active, calId := k.calId + 1, bankDigest := digest, uncal := false }
    if k.active then { k3 with bankA := body } else { k3 with bankB := body }
  else { k1 with authKey := body }

/-- The MEC that the last audit entry carries; at manufacture it is 2 (R333). -/
def Kao.lastMec (k : Kao) : Nat := match k.audit.getLast? with | some e => leAt e 8 4 | none => 2

/-- The audit entry of a calibration write whose commit word has a higher MEC than the last entry (R333 step 4). -/
def Kao.auditCal (k : Kao) : Kao :=
  match k.word with
  | some w => if k.lastMec < w.mec.toNat then k.note 4 w.kind w.digest else k
  | none => k

/-- Every measurement in progress ends without a record; what waits for a signature waits on (R312). (DESIGN
CHOICE, log entry 43) -/
def State.kaoReset (s : State) : State :=
  let lost := s.kao.held.map (fun r => r.cmd) ++ s.kao.signCmd.map (fun p => some p.2)
  let reqs := lost.map (fun c : Option Cmd => ({ ty := 1, cmd := c, body := [], since := s.clk.edges, sendAt := 0 } : SealReq))
  (s.updKao (fun k =>
    { k with rstLow := true, ready := false, refOk := false, held := [], signCmd := [], cal := none, lastEdge := [],
             signing := k.signing.map (fun b => { b with msg := none }) })).updSeal (fun e => { e with sent := e.sent ++ reqs })

/-- CAL_COMMIT at a Kaolin time; with `cut` power is lost after the commit word is written and before the audit entry is
(R333). (DESIGN CHOICE, log entry 43) -/
def State.calEnd (ns : Nat) (cut : Bool) (s0 : State) (r : SealReq) : State :=
  let s := s0.updKao (fun k => k.reach ns)
  let k := s.kao
  match k.cal with
  | none => s.calRefuse r 0x12 2
  | some b =>
    let signed := b.length - 64
    if !calFormOk b r.imageLen then s.calRefuse r 0x12 2
    else if leAt b 8 8 ≠ duid.toNat then s.calRefuse r 0x51 0
    else if leAt b 16 4 ≠ k.mec.toNat + 1 then s.calRefuse r 0x52 0
    else if !p256.verify k.authority (sha256 (b.take signed)) (slice b signed 64) then s.calRefuse r 0x50 0
    else if k.sealClosed then s.calRefuse r 0x60 0
    else if cut then ((s.updKao (fun k => k.applyCal b)).updSeal (fun e => { e with sent := e.sent ++ [r] })).kaoReset
    else (s.updKao (fun k => (k.applyCal b).auditCal)).replyTo r.cmd 0 0 0 0

/-! ### Seal, reference, reset and start (R312, R328, R333) -/

/-- The seal breaks. (DESIGN CHOICE, log entry 43) -/
def Kao.breakSeal (k : Kao) : Kao := { k with sealClosed := false, mec := k.nextMec }.note 2 0 []

/-- A bank whose digest does not match at start is not used (R333). -/
def Kao.bankBad (k : Kao) : Bool := !k.bankDigest.isEmpty && sha256 (kaoBody k.bank) != k.bankDigest

/-- Kaolin's start (R312): its time begins, a missing audit entry is written (R333), a seal opened meanwhile counts as
broken now (R328), and the signing that its reset cut begins again. -/
def Kao.begin_ (k : Kao) (sealHigh : Bool) : Kao :=
  let k1 := ({ k with ready := true, starts := k.starts + 1, uncal := k.bankBad, ns := 0 } : Kao).auditCal
  (if k.sealClosed && sealHigh then k1.breakSeal else k1).beginSign

def State.kaoRelease (s : State) (kref100 : Bool) : State :=
  if s.kao.rstLow then s.updKao (fun k => { k with rstLow := false, kref100 := kref100 }) else s

/-- VKAO becomes good or is lost: Kaolin's domains follow it (R382, R435). -/
def State.vkao (s : State) (good : Bool) : State :=
  { s with doms := s.doms.filter (fun p => !decide (75 ≤ p.1)) }.domsOn (if good then [75, 76, 77, 78, 79] else [])

/-! ### The Command Engine's side (R314, R332) -/

/-- A KAO_ command becomes a Seal Port request. -/
def State.ask (s : State) (c : Cmd) (ty : Nat) (body : List Byte) (sendAt : Nat) : State :=
  s.updSeal (fun e => { e with waitingR := e.waitingR ++
    [{ ty := ty, cmd := some c, body := body, since := s.clk.edges, sendAt := BitVec.ofNat 64 sendAt }] })

/-- KAO_MEASURE: 64 requests are held (R321). -/
def State.kaoMeasureCmd (s : State) (c : Cmd) : State :=
  if 64 ≤ (s.sealPort.waitingR.filter (fun r => r.ty == 1)).length then s.reply c 0x30 0 0 0
  else s.ask c 1 c.bytes (c.par 128 64)

def State.kaoReadCmd (s : State) (c : Cmd) : State :=
  s.ask c (if c.par 0 8 = 5 then 3 else if c.par 0 8 = 6 then 4 else 2) [] 0

/-- KAO_CAL_WRITE: check 3, and the read of the image. (DEDUCED, log entry 40) -/
def State.kaoCalCmd (late : Bool) (data : HostData) (s : State) (c : Cmd) : State :=
  if (s.sealPort.waitingR ++ s.sealPort.sent).any (fun r => decide (5 ≤ r.ty)) then s.reply c 0x30 0 0 0
  else
    let s1 := s.readSource c (c.par 0 64) (min (c.par 64 32) 33552) late data
    if dataBad data then s1.reply c 0x12 0 0 0
    else s1.ask c 5 (slice data.bytes 0 (min (c.par 64 32) 33552)) 0

/-- The request whose command gets no answer: one whose frame was lost, or any while Kaolin does not answer (R314). -/
def State.lateReq (s : State) : Option SealReq :=
  match s.sealPort.sent with
  | r :: _ => some r
  | [] => if s.sealPort.up && s.kao.ready then none else s.sealPort.waitingR.head?

/-- A KAO_ command returns TIMEOUT after 1 ms (R314). (DEDUCED, log entry 42) -/
def State.kaoTimeout (s0 : State) : State :=
  match s0.lateReq with
  | none => s0
  | some r =>
    let s := s0.passEdges (r.since + 1000000)
    let s1 := (s.dropReq r).updSeal (fun e => { e with sent := e.sent.filter (fun x => x != r) })
    let s2 := if 5 ≤ r.ty then s1.updKao (fun k => { k with cal := none }) else s1
    match r.cmd with
    | none => s2
    | some c => (s2.bump (kaoOff 4) 0 32 1).reply c 0x70 0 0 0

/-- What Kaolin reports to a poll (R336). -/
def Kao.report (k : Kao) : BitVec 5 :=
  BitVec.ofNat 5 (b2n k.ready + b2n k.sealClosed * 2 + b2n k.refOk * 4 + b2n k.uncal * 8 + b2n k.overflow * 16)

/-- The poll of KAO_STATUS (R313): Kaolin answers it while it is ready. (DEDUCED, log entry 42) -/
def State.poll (s : State) (good : Bool) : State :=
  if !s.sealPort.up then s
  else if !s.kao.ready then s.updSeal (fun e => { e with rep := e.rep &&& 0x1E })
  else if !good then s.updKao (fun k => { k with dropped := k.dropped + 1 })
  else s.updSeal (fun e => { e with rep := s.kao.report, repMec := some s.kao.mec })

/-! ### Commands -/

/-- KAO_MEASURE (R318, R321). -/
def execKaoMeasure (s : State) : Host.Outcome State Fault Refusal := .next (s.withCmd 0x0400 State.kaoMeasureCmd).finish

/-- KAO_READ_RECORDS (R326). -/
def execKaoReadRecords (s : State) : Host.Outcome State Fault Refusal := .next (s.withCmd 0x0401 State.kaoReadCmd).finish

/-- KAO_CAL_WRITE (R330, R332). -/
def execKaoCalWrite (data : HostData) (s : State) : Host.Outcome State Fault Refusal :=
  .next (s.withCmd 0x0402 (State.kaoCalCmd false data)).finish

/-- MEASURE (R321). -/
def execMeasure (frame : SealFrame) (s : State) : Host.Outcome State Fault Refusal :=
  .next (s.measure frame.good frame.ns).finish

/-- READ (R326). -/
def execRead (good : Bool) (s : State) : Host.Outcome State Fault Refusal := .next (s.serve 2 good State.readRecords).finish

/-- RELEASE (R325). -/
def execRelease (frame : SealFrame) (s : State) : Host.Outcome State Fault Refusal :=
  .next (s.serve 3 frame.good (State.releaseReq frame.ns)).finish

/-- SIGN (R324). -/
def execSign (good : Bool) (s : State) : Host.Outcome State Fault Refusal := .next (s.serve 4 good State.signReq).finish

/-- CAL_BEGIN (R332). -/
def execCalBegin (good : Bool) (s : State) : Host.Outcome State Fault Refusal := .next (s.serve 5 good State.calStart).finish

/-- CAL_DATA (R330). -/
def execCalData (good : Bool) (s : State) : Host.Outcome State Fault Refusal := .next (s.serve 6 good State.calImage).finish

/-- CAL_COMMIT (R333). -/
def execCalCommit (frame : CommitFrame) (s : State) : Host.Outcome State Fault Refusal :=
  .next (s.serve 7 frame.good (State.calEnd frame.ns frame.cut)).finish

/-- STATUS (R313). -/
def execStatus (good : Bool) (s : State) : Host.Outcome State Fault Refusal := .next (s.poll good).finish

/-- QUALIFYING_EDGE (R319). -/
def execQualifyingEdge (ch : Fin 32) (falling : Bool) (coarse : Nat) (code : Fin 2048) (s : State) :
    Host.Outcome State Fault Refusal := .next (s.sense ch.val falling coarse code.val).finish

/-- START_TIMEOUT (R320): the request whose start channel is named. -/
def execStartTimeout (ch : Fin 32) (s : State) : Host.Outcome State Fault Refusal :=
  .next (s.noEdge (fun r => r.chanA == ch.val && r.startEdge.isNone) 1).finish

/-- STOP_TIMEOUT (R320): the request whose stop channel is named. -/
def execStopTimeout (ch : Fin 32) (s : State) : Host.Outcome State Fault Refusal :=
  .next (s.noEdge (fun r => r.chanB == ch.val && r.startEdge.isSome) 2).finish

/-- DC_CONVERSION (R317). -/
def execDcConversion (ch : Fin 8) (conv : Conversion) (s : State) : Host.Outcome State Fault Refusal :=
  .next (s.convert ch.val conv.code conv.ns).finish

/-- SIGNATURE_BLOCK_DONE (R324). -/
def execSignatureBlockDone (s : State) : Host.Outcome State Fault Refusal := .next s.blockDone.finish

/-- KREF_LOST (R312): every request in progress has met a lost reference (R320). -/
def execKrefLost (s : State) : Host.Outcome State Fault Refusal :=
  .next (if s.kao.rstLow then s else s.updKao (fun k =>
    { k with refOk := false, held := k.held.map (fun r => if r.running then { r with refFault := true } else r) })).finish

/-- KREF_LOCKED (R312). -/
def execKrefLocked (s : State) : Host.Outcome State Fault Refusal :=
  .next (if s.kao.rstLow then s else s.updKao (fun k => { k with refOk := true })).finish

/-- SEAL_BROKEN (R328). -/
def execSealBroken (s : State) : Host.Outcome State Fault Refusal :=
  .next (if s.kao.ready && s.kao.sealClosed then s.updKao Kao.breakSeal else s).finish

/-- SEAL_CLOSED (R328). -/
def execSealClosed (s : State) : Host.Outcome State Fault Refusal :=
  .next (if s.kao.ready && !s.kao.sealClosed then
    s.updKao (fun k => { k with sealClosed := true }.note 3 0 []) else s).finish

/-- KRST_N, and the state of VKAO (R312): Kaolin is held in reset while either is low. -/
def execKrstN (level : Bool) (supply : KaoSupply) (s : State) : Host.Outcome State Fault Refusal :=
  .next ((if level && supply.vkao then s.kaoRelease supply.kref100 else s.kaoReset).vkao supply.vkao).finish

/-- KAOLIN_READY (R312, R328). -/
def execKaolinReady (sealHigh : Bool) (s : State) : Host.Outcome State Fault Refusal :=
  .next (if !s.kao.rstLow && !s.kao.ready then s.updKao (fun k => k.begin_ sealHigh) else s).finish

/-- KAO_COMMAND_TIMEOUT (R314). -/
def execKaoCommandTimeout (s : State) : Host.Outcome State Fault Refusal := .next s.kaoTimeout.finish

end Sys2Proof.Machine
end

