-- ==== Sys2Proof/Machine/Links.lean ====
section
/-! DEFINITION. The commands of tokens at their slices (R164-R170, R184), of the D2D links (R17-R24, R43) and of the Twikel
links (R25-R33). -/

namespace Sys2Proof.Machine

/-- A token of the die's own PEs reaches its slice (R164). -/
def State.localToken (s : State) (n : Nat) : State :=
  match (s.die n).arr with
  | [] => s
  | t :: rest => (s.updDie n (fun d => { d with arr := rest })).arrive n t

/-- A token arrives from its source. -/
def State.tokenRow (s : State) : TokSrc → State
  | .localPe n => s.localToken n.val
  | .link d err => (s.twkFlow.d2dTake d.val ftToken none err).twkFlow

/-- The walk in a slot ends (R169). -/
def State.walkRow (s : State) (n slot : Nat) : State :=
  match (s.die n).walks.find? (fun w => w.slot == slot && !w.held) with
  | some w => s.endWalk n w
  | none => s

/-- TOKEN (R164). -/
def execToken (src : TokSrc) (s : State) : Host.Outcome State Fault Refusal :=
  .next (s.tokenRow src).finish

/-- CHAIN_WALK_END (R169). -/
def execChainWalkEnd (die : Fin 6) (slot : Fin 64) (s : State) : Host.Outcome State Fault Refusal :=
  .next (s.walkRow die.val slot.val).finish

/-- REGION_FULL_RELEASE (R170). -/
def execRegionFullRelease (die : Fin 6) (s : State) : Host.Outcome State Fault Refusal :=
  .next (s.releaseHeld die.val).finish

/-- DISPATCH_PLACEMENT (R184). -/
def execDispatchPlacement (die : Fin 6) (s : State) : Host.Outcome State Fault Refusal :=
  .next (s.dispatchOne die.val).finish

/-- MEM_RD_REQ (R18). -/
def execMemRdReq (dir : Fin 24) (err : BitVec 128) (s : State) : Host.Outcome State Fault Refusal :=
  .next (s.d2dTake dir.val ftRdReq none err).finish

/-- MEM_WR (R106). -/
def execMemWr (dir : Fin 24) (err : BitVec 128) (s : State) : Host.Outcome State Fault Refusal :=
  .next (s.d2dTake dir.val ftWr none err).finish

/-- MEM_RD_RSP (R18). -/
def execMemRdRsp (dir : Fin 24) (err : BitVec 128) (s : State) : Host.Outcome State Fault Refusal :=
  .next (s.d2dTake dir.val ftRdRsp none err).finish

/-- POUR_WORD (R292). -/
def execPourWord (dir : Fin 24) (err : BitVec 128) (s : State) : Host.Outcome State Fault Refusal :=
  .next (s.d2dTake dir.val ftPour none err).finish

/-- D2D_CREDIT (R21). -/
def execD2dCredit (dir : Fin 24) (err : BitVec 128) (s : State) : Host.Outcome State Fault Refusal :=
  .next (s.d2dTake dir.val ftCredit none err).finish

/-- ACK (R20). -/
def execAck (dir : Fin 24) (err : BitVec 128) (s : State) : Host.Outcome State Fault Refusal :=
  .next (s.d2dTake dir.val ftCtrl (some 0) err).finish

/-- NAK (R20). -/
def execNak (dir : Fin 24) (err : BitVec 128) (s : State) : Host.Outcome State Fault Refusal :=
  .next (s.d2dTake dir.val ftCtrl (some 1) err).finish

/-- TRAIN_DONE (R17). -/
def execTrainDone (dir : Fin 24) (err : BitVec 128) (s : State) : Host.Outcome State Fault Refusal :=
  .next (s.d2dTake dir.val ftCtrl (some 2) err).finish

/-- D2D_ACK_DUE (R20). -/
def execD2dAckDue (dir : Fin 24) (s : State) : Host.Outcome State Fault Refusal :=
  .next (s.d2dAck dir.val).finish

/-! ### Twikel -/

/-- The 1 ms after a training failure has passed (R26). -/
def State.twkRestart (s0 : State) (n : Nat) : State :=
  let x := s0.twk n
  match x.fl.failedAt with
  | none => s0
  | some t =>
    if x.training && s0.twkUse n then
      (s0.passEdges (t + 1000000)).twkTrain n
    else s0

/-- Training has not completed within 10 ms (R26). -/
def State.twkLate (s0 : State) (n : Nat) : State :=
  let x := s0.twk n
  if x.training && x.fl.failedAt.isNone && s0.twkUse n && s0.twkPowered n then
    (s0.passEdges (x.fl.trainStart + 10000000)).twkFail n
  else s0

/-- The RETRY repeat timer, 256 slots after the last RETRY (R28, R287 item 4). -/
def State.twkRetryAgain (s0 : State) (n : Nat) : State :=
  let s := s0.passUntil (((s0.twk n).fl.retryAt + 256 * twkSlot + 63) / 64)
  if (s.twk n).fl.discarding then s.twkRetryOut n else s

/-- The acknowledgement limit: an IDLE frame waits for the last slot that keeps it (R28, R287 item 3). -/
def State.twkIdleOut (s : State) (n : Nat) : State :=
  let d := (s.twk n).fl.ackDue twkSlot
  (s.twkQueue n rankIdle d 0).passUntil ((d + 63) / 64)

/-- The acknowledgement limit or the RETRY repeat timer (R28), after which receive paths that wait are tried again. -/
def State.twkAckRow (s : State) (n : Nat) : State :=
  let x := s.twk n
  if !x.up then s
  else (if x.fl.discarding then s.twkRetryAgain n else if x.fl.owesAck then s.twkIdleOut n else s).twkFlow

/-- A CREDIT frame with every class's pending credits (R27). -/
def twkCredits (owed : List Nat) : Nat := owed.zipIdx.foldl (fun a p => a + (p.1 % 65536) * 2 ^ (32 + 16 * p.2)) 2

/-- When the CREDIT frame for the pending credits is due (R29): with sixteen of a class pending, or at the end of the 64th
slot after the slot in which the oldest arose; in 1/64 ns. -/
def State.twkCreditAt (s : State) (n : Nat) : Option Nat :=
  let x := s.twk n
  if !x.up || x.owed.all (· == 0) then none
  else if x.owed.any (fun k => decide (16 ≤ k)) then some s.now64
  else some ((x.owedAt / twkSlot + 65) * twkSlot)

/-- Pending credits are returned (R29). -/
def State.twkCreditRow (s0 : State) (n : Nat) : State :=
  match s0.twkCreditAt n with
  | none => s0
  | some d =>
    let s := s0.passUntil (d / 64)
    ((s.setTwk n { s.twk n with owed := List.replicate 8 0 }).twkQueue n rankCredit (max d s.now64)
      (twkCredits (s.twk n).owed)).twkFlow

/-- TWIKEL_TS1 (R26). -/
def execTwikelTs1 (tw : Fin 2) (lane : Fin 8) (head : BlockHead) (blk : BitVec 64) (s : State) :
    Host.Outcome State Fault Refusal :=
  .next (s.twkBlock tw.val lane.val head.sync head.skew blk.toNat false).finish

/-- TWIKEL_TS2 (R26). -/
def execTwikelTs2 (tw : Fin 2) (lane : Fin 8) (head : BlockHead) (blk : BitVec 64) (s : State) :
    Host.Outcome State Fault Refusal :=
  .next (s.twkBlock tw.val lane.val head.sync head.skew blk.toNat true).finish

/-- TWIKEL_RETRAIN (R26). -/
def execTwikelRetrain (tw : Fin 2) (s : State) : Host.Outcome State Fault Refusal :=
  .next (s.twkRestart tw.val).finish

/-- TWIKEL_TRAINING_TIMEOUT (R26). -/
def execTwikelTrainingTimeout (tw : Fin 2) (s : State) : Host.Outcome State Fault Refusal :=
  .next (s.twkLate tw.val).finish

/-- TOKENS (R30). -/
def execTokens (tw : Fin 2) (frame : BitVec 512) (s : State) : Host.Outcome State Fault Refusal :=
  .next (s.twkReceive tw.val frame.toNat).finish

/-- TWIKEL_CREDIT (R29). -/
def execTwikelCredit (tw : Fin 2) (frame : BitVec 512) (s : State) : Host.Outcome State Fault Refusal :=
  .next (s.twkReceive tw.val frame.toNat).finish

/-- VERSION (R32). -/
def execVersion (tw : Fin 2) (frame : BitVec 512) (s : State) : Host.Outcome State Fault Refusal :=
  .next (s.twkReceive tw.val frame.toNat).finish

/-- EPOCH (R32). -/
def execEpoch (tw : Fin 2) (frame : BitVec 512) (s : State) : Host.Outcome State Fault Refusal :=
  .next (s.twkReceive tw.val frame.toNat).finish

/-- EPOCH_CHECK (R32). -/
def execEpochCheck (tw : Fin 2) (s : State) : Host.Outcome State Fault Refusal :=
  .next (s.twkCheck tw.val).finish

/-- TWIKEL_RETRY (R28). -/
def execTwikelRetry (tw : Fin 2) (frame : BitVec 512) (s : State) : Host.Outcome State Fault Refusal :=
  .next (s.twkReceive tw.val frame.toNat).finish

/-- TWIKEL_IDLE (R28). -/
def execTwikelIdle (tw : Fin 2) (frame : BitVec 512) (s : State) : Host.Outcome State Fault Refusal :=
  .next (s.twkReceive tw.val frame.toNat).finish

/-- TWIKEL_ACK_DUE (R28). -/
def execTwikelAckDue (tw : Fin 2) (s : State) : Host.Outcome State Fault Refusal :=
  .next (s.twkAckRow tw.val).finish

/-- TWIKEL_CREDIT_DUE (R29). -/
def execTwikelCreditDue (tw : Fin 2) (s : State) : Host.Outcome State Fault Refusal :=
  .next (s.twkCreditRow tw.val).finish

/-- TWIKEL_LINK_DOWN (R28). -/
def execTwikelLinkDown (tw : Fin 2) (s : State) : Host.Outcome State Fault Refusal :=
  .next (s.twkDown tw.val).finish

end Sys2Proof.Machine
end

