-- ==== Sys2Proof/Machine/QueueRows.lean ====
section
/-! DEFINITION. The commands of the Silt queues and of fail ingest (R192-R202, R306), of the storage-pressure controller
(R205-R215), and of the steps of an activation (R419, R422, R428). -/

namespace Sys2Proof.Machine

/-- SILT_PUSH (R196). -/
def execSiltPush (q : Nat) (env : PushEnv) (s : State) : Host.Outcome State Fault Refusal :=
  .next (s.pushRow q env).finish

/-- SILT_POP (R194, R198). (DESIGN CHOICE, log entry 53) -/
def execSiltPop (pop : Pop) (s : State) : Host.Outcome State Fault Refusal :=
  .next ((s.upsetFront pop.queue pop.upset).popRow pop.queue).finish

/-- REFILL_DONE (R192). (DESIGN CHOICE, log entry 53) -/
def execRefillDone (q : Nat) (lost : List (Fin 32)) (s : State) : Host.Outcome State Fault Refusal :=
  .next (s.refillRow q lost).finish

/-- DRIP (R202). -/
def execDrip (q : Nat) (s : State) : Host.Outcome State Fault Refusal :=
  .next (s.dripRow q).finish

/-- FAIL_RECORD (R306). -/
def execFailRecord (port : Fin 16) (s : State) : Host.Outcome State Fault Refusal :=
  .next (s.failRow port.val).finish

/-- DIE_LEVEL_EVALUATION (R208). (DESIGN CHOICE, log entry 14) -/
def execDieLevelEvaluation (die : Fin 6) (s : State) : Host.Outcome State Fault Refusal :=
  .next (s.evalDie die.val).finish

/-- PACKAGE_FIGURE_SAMPLE (R208). -/
def execPackageFigureSample (s : State) : Host.Outcome State Fault Refusal :=
  .next s.sampleFigures.finish

/-- PACKAGE_LEVEL_EVALUATION (R208, R214). -/
def execPackageLevelEvaluation (s : State) : Host.Outcome State Fault Refusal :=
  .next s.evalPackage.finish

/-- PACKAGE_LEVEL_APPLY (R208). -/
def execPackageLevelApply (s : State) : Host.Outcome State Fault Refusal :=
  .next s.applyPackage.finish

/-- CREDIT_WINDOW_REFILL (R211). (DESIGN CHOICE, log entry 14) -/
def execCreditWindowRefill (die : Fin 6) (s : State) : Host.Outcome State Fault Refusal :=
  .next (s.refillWindow die.val).finish

/-- INJECT_CREDIT_REFILL (R212). -/
def execInjectCreditRefill (s : State) : Host.Outcome State Fault Refusal :=
  .next s.refillInject.finish

/-- FLOOR_HELD (R213). -/
def execFloorHeld (die : Fin 6) (cls : Fin 8) (s : State) : Host.Outcome State Fault Refusal :=
  .next (s.floorHeldFor die.val cls.val).finish

/-- STORAGE_DEADLOCK (R215). -/
def execStorageDeadlock (die : Fin 6) (region : Region) (s : State) : Host.Outcome State Fault Refusal :=
  .next (s.storageDeadlock die.val region).finish

/-- KBOUND_RESERVATION (R205). -/
def execKboundReservation (s : State) : Host.Outcome State Fault Refusal :=
  .next s.serveReserve.finish

/-- RESERVATION_RELEASE (R205). -/
def execReservationRelease (s : State) : Host.Outcome State Fault Refusal :=
  .next s.serveUnreserve.finish

/-- SELECTOR_WRITE (R422). -/
def execSelectorWrite (s : State) : Host.Outcome State Fault Refusal := .next s.selectorWrite.finish

/-- PSS_READ_DONE (R428). -/
def execPssReadDone (s : State) : Host.Outcome State Fault Refusal := .next s.pssRead.finish

/-- BURN_STEP_DONE (R419). -/
def execBurnStepDone (s : State) : Host.Outcome State Fault Refusal := .next s.burnStep.finish

end Sys2Proof.Machine
end

