-- ==== Sys2Proof/Machine/Resets.lean ====
section
/-! DEFINITION. The resets of a part (R343, R403, R404, R455): RESET_SCOPE, FLR, Hot Reset; the PCI Express power state
(R337); and host reads that get no completion (R339). -/

namespace Sys2Proof.Machine

/-! ### Kind 1: a Loam die -/

/-- The settings records in force (R428). -/
def State.settingsRecs (s : State) : List RegRec :=
  if s.blend.settingsFb then []
  else match s.blend.read s.activeSlot with | .ok (recs, _) => recs | .error _ => []

/-- The stores of a die are emptied: its PEs, lanes and their middles, slice, overflow region (R403). (DEDUCED,
log entry 57) -/
def State.emptyDie (s : State) (n : Nat) : State :=
  let o := s.carve + n * 2 ^ 29
  { s with
    pes := s.pes.filter (fun p => p.1 / 64 != n), lanes := s.lanes.filter (fun p => p.1 / 512 != n),
    sets := s.sets.filter (fun p => p.1 / 262144 != n), victims := s.victims.filter (fun p => p.1 / 1024 != n),
    mem := tclear (tclear s.mem o (o + 2 ^ 29)) (s.readyBase n) (s.readyBase n + 2 ^ 27) }

/-- A bank takes its request at the end of a die reset (R228, R403): the Instruction Store keeps what Retention held. -/
def State.resetBank (s : State) (b : Nat) : State :=
  match bankKind b with
  | some .istore =>
    let req := s.fld (bankReg b) 0 2
    let st := if req = 0 then 0 else if req = 1 ∧ s.bankState b ≠ 2 then 1 else 2
    let s1 := if st = 2 then s.loseBank b else s
    s1.setBank b { s1.bank b with req := req, autoWake := true, state := st, target := none }
  | _ => (s.loseBank b).startBank b

/-- The registers that a die reset returns (R455). (DEDUCED, log entry 44) -/
def State.resetLm (s : State) (n : Nat) : State :=
  let lo := lmOff n 0
  let s1 := ({ s with shadows := tclear s.shadows lo (lo + 0x10000) }.reloadRegs lo (lo + 0x10000)
    (s.blendRecs ++ s.settingsRecs)).setFld (lmOff n 0x424) 0 6 (s.carve / 2 ^ 29 + n)
  [n, 6 + n, 6 + (n + 5) % 6].foldl (fun t l => t.setFld (lnkOff l 8) 0 32 0) s1

/-- The ring link at position i is trained in a die reset: the die at its other end is up, and it is not fenced (R396). -/
def State.ringAgain (s : State) (i other : Nat) (fails half : Bool) : State :=
  let x := s.link (6 + i)
  if (s.die other).up && !s.linkFenced (6 + i) && !x.dead && !fails then s.linkTrained (6 + i) (x.half || half) else s

/-- A downed die is brought up: steps 9-12 and 17-19 for it (R403, R404). -/
def State.bringUp (s0 : State) (n : Nat) (env : BringUp) : State :=
  let s1 := ((s0.emptyDie n).domsOn (dieDoms n)).resetLm n
  let s2 := (bankNumbers.filter (fun b => decide (b < 0x600) && b / 256 == n)).foldl State.resetBank s1
  let s3 := { s2 with graphs := s2.graphs.map (fun (p : Nat × Graph) => (p.1, { p.2 with since := lset p.2.since n (0, s2.reg (lmOff n 0x800)) })) }
  let s4 := (s3.setDie n (s3.freshDie n)).linkTrained n ((s3.link n).half || bitOf env.halves.toNat 0)
  let s5 := (s4.ringAgain n ((n + 1) % 6) env.ringOwn (bitOf env.halves.toNat 1)).ringAgain ((n + 5) % 6) ((n + 5) % 6)
    env.ringPrev (bitOf env.halves.toNat 2)
  (s5.startFab n).syncCredits n

/-- The flush of a die's own class 1 queues counts the words of their partial packets, those that the producer still
holds among them (R200, R403). (DEDUCED, log entry 44) -/
def State.countPartials (s : State) (n : Nat) : State :=
  (((List.range 24).filter (fun d => dirFrom d == n)).map (fun d => (List.range 8).map (fun c => d * 8 + c))).flatten.foldl
    (fun t q =>
      let x := t.queue q
      if x.packetOpen then
        t.bump (statReg 1) 16 8 (x.openStored + (x.inbox.length - x.skipPacket.inbox.length))
      else t) s

/-- The bring-up fails: a step of R404 fails. (DEDUCED, log entry 44) -/
def bringUpFails (env : BringUp) : Bool :=
  match env.failStep with | some k => [9, 10, 11, 17, 18, 19].contains k | none => false

/-- RESET_SCOPE kind 1. (DEDUCED, log entry 44) -/
def State.resetDie (s : State) (c : Cmd) (env : BringUp) : State :=
  let n := c.index
  let s1 := (s.countPartials n).dieDown n
  if bringUpFails env then (s1.postFail (2 ^ n)).reply c 0 1 0 0 else (s1.bringUp n env).reply c 0 0 0 0

/-! ### Kind 2: a DDR channel -/

/-- A class 1-4 queue holds something. -/
def State.anyQueued (s : State) : Bool :=
  s.queues.any (fun p => (siltClass p.1).isSome && (0 < p.2.stored || !p.2.inbox.isEmpty))

/-- Kind 2 is BUSY (R404). -/
def State.ddrBusy (s : State) : Bool :=
  s.graphs.any (fun p => p.2.state != .free) || s.chans.any (fun x => x.active) ||
    s.ports.any (fun x => x.state == .armed || x.state == .running) || s.anyQueued

/-- The active channel that holds a DDR word (R37). -/
def State.ddrChannel (s : State) (a : Nat) : Option Nat :=
  match s.start.active with
  | [] => none
  | act => act[(a / 32) % act.length]?

/-- RESET_SCOPE kind 2: every word of the channel reads zero; a channel that fails is Package-fatal. -/
def State.resetDdr (s : State) (c : Cmd) (env : BringUp) : State :=
  let m := c.index
  if s.ddrBusy then s.reply c 0x30 0 0 0
  else if env.failStep.isSome then ((s.postFail (2 ^ (6 + m))).reply c 0 1 0 0).event 4 6 (startOff 0) 0 m 0
  else
    { s with mem := s.mem.filter (fun p => !(decide (p.1 < s.ddrWords) && s.ddrChannel p.1 == some m)) }.reply c 0 0 0 0

/-! ### Kinds 3 and 4: ports and Twikel links -/

def State.resetPort (s : State) (p : Nat) : State :=
  let s1 := s.portDisable p
  if s1.pfpOn p then s1.portEnable p else s1

/-- RESET_SCOPE kind 4: tokens queued for the link are discarded and counted; it trains again when it is in use. -/
def State.resetTwk (s : State) (n : Nat) : State :=
  let s1 := (s.bump (hostOff 0x80) 0 32 (s.twk n).held).setTwk n Twk.reset
  if s1.twkUse n && s1.twkPowered n then s1.twkTrain n else s1

/-! ### The commands -/

/-- RESET_SCOPE (R404). -/
def State.resetScope (env : BringUp) (s : State) (c : Cmd) : State :=
  let k := c.kind
  let n := c.index
  if k = 1 then s.resetDie c env
  else if k = 2 then s.resetDdr c env
  else if k = 3 then (s.resetPort n).reply c 0 0 0 0
  else if k = 4 then (s.resetTwk n).reply c 0 0 0 0
  else if k = 5 then (s.flr n).reply c 0 0 0 0
  else if k = 6 then (s.qpOff n).reply c 0 0 0 0
  else let s1 := s.reply c 0 0 0 0
    { s1 with start := { s1.start with due := some 3 } }

/-- A Hot Reset, or the link goes down (R403): FLR of the PF, and configuration space. (DEDUCED, log entry 44) -/
def State.hotReset (s : State) : State := { s.flr 0 with d3hot := false, cfg := { Pci.reset with width := s.cfg.width, gen := s.cfg.gen } }

/-- A device read of host memory gets no completion (R339). -/
def State.lostRead (s : State) (rd : HostReadId) : State :=
  match rd with
  | .fetch q => s.fetchLost q.val
  | .listEntry ch => s.bmvFetchLost ch.val
  | .burst ch => s.bmvBurstLost ch.val
  | .command =>
    let reads (c : Cmd) : Bool := [0x0100, 0x0402, 0x0500].contains c.op || (c.op == 0x0106 && c.par 0 8 == 1) ||
      (c.op == 0x0600 && c.par 0 8 == 1)
    match s.ce.begun.find? reads with
    | none => s
    | some c =>
      let d := HostData.lost
      if c.op = 0x0100 then s.withCmd c.op (State.graphLoad true d)
      else if c.op = 0x0106 then s.withCmd c.op (State.injectCmd true d)
      else if c.op = 0x0402 then s.withCmd c.op (State.kaoCalCmd true d)
      else if c.op = 0x0500 then s.withCmd c.op (State.blendStage true d)
      else s.withCmd c.op (State.snapshot true d)

/-- RESET_SCOPE (R404). (DESIGN CHOICE, log entry 14) -/
def execResetScope (env : BringUp) (s : State) : Host.Outcome State Fault Refusal :=
  .next (s.withCmd 0x0003 (State.resetScope env)).finish

/-- FLR (R343). -/
def execFlr (fn : Fin 17) (s : State) : Host.Outcome State Fault Refusal :=
  .next (if s.pcieUp then s.flr fn.val else s).finish

/-- HOT_RESET (R403). -/
def execHotReset (s : State) : Host.Outcome State Fault Refusal := .next (if s.pcieUp then s.hotReset else s).finish

/-- PCIE_POWER_STATE (R337). -/
def execPciePowerState (d3hot : Bool) (s : State) : Host.Outcome State Fault Refusal :=
  .next (if s.pcieUp then { s with d3hot := d3hot } else s).finish

/-- COMPLETION_TIMEOUT (R339). -/
def execCompletionTimeout (rd : HostReadId) (s : State) : Host.Outcome State Fault Refusal := .next (s.lostRead rd).finish

end Sys2Proof.Machine
end

