-- ==== Sys2Proof/Machine/Spdm.lean ====
section
/-! DEFINITION. The DOE mailbox and the SPDM 1.2 responder (R342), by their standards (log entry 22). -/

namespace Sys2Proof.Machine

/-! ### Messages -/

/-- A DOE data object of PCI-SIG with a payload, padded to whole doublewords. (PRESUMED, log entry 22) -/
def doeObject (ty : Nat) (payload : List Byte) : List Byte :=
  let n := (payload.length + 3) / 4
  leBytes 2 1 ++ leBytes 1 ty ++ leBytes 1 0 ++ leBytes 4 (2 + n) ++ slice payload 0 (4 * n)

def State.doeAnswer (s : State) (ty : Nat) (payload : List Byte) : State := s.emit (.doe (doeObject ty payload))

/-- An SPDM ERROR response. -/
def spdmError (code : Nat) : List Byte := [0x12, 0x7F, BitVec.ofNat 8 code, 0]

/-- SPDM error codes: InvalidRequest, UnexpectedRequest, VersionMismatch. -/
def spdmInvalid : Nat := 1
def spdmUnexpected : Nat := 4
def spdmVersion : Nat := 0x41

/-- A request on the mailbox: its code, its version (0x10 for GET_VERSION), and the state that must precede it. -/
def State.spdm_ (s : State) (req : List Byte) (code version : Nat) (need : Bool) (f : State → State × List Byte) : State :=
  if !s.pcieUp then s
  else if leAt req 1 1 ≠ code ∨ req.length < 4 then s.doeAnswer 1 (spdmError spdmInvalid)
  else if !need then s.doeAnswer 1 (spdmError spdmUnexpected)
  else if leAt req 0 1 ≠ version then s.doeAnswer 1 (spdmError spdmVersion)
  else let r := f s
    r.1.doeAnswer 1 r.2

/-! ### Certificates and measurements -/

def certChain : List Byte := Config.spdmChain.take 65535

/-- The raw value of a measurement index (R342). -/
def State.measured (s : State) (i : Nat) : List Byte :=
  let slotVal (x : BSlot) : List Byte := leBytes 4 x.ver ++ sha384 x.bytes
  if i = 1 then leBytes 4 0x5A880001 ++ leBytes 1 1 ++ Config.logicIdentity
  else if i = 2 then slotVal s.activeSlot
  else if i = 3 then slotVal (s.bslot s.otherSlot)
  else match s.sealPort.repMec with
    | some m => leBytes 2 0x0100 ++ leBytes 4 0x3E91C4B7 ++ leBytes 4 m.toNat
    | none => []

/-- A measurement block, raw or as a digest. (PRESUMED, log entry 22) -/
def State.measBlock (s : State) (raw : Bool) (i : Nat) : List Byte :=
  let v := if raw then s.measured i else sha384 (s.measured i)
  leBytes 1 i ++ leBytes 1 1 ++ leBytes 2 (3 + v.length) ++ leBytes 1 ((Config.spdmValueType i).toNat + b2n raw * 128) ++
    leBytes 2 v.length ++ v

def State.measRecord (s : State) (raw : Bool) (is : List Nat) : List Byte := (is.map (s.measBlock raw)).flatten

/-- A draw of a free value. -/
def State.spdmDraw (s : State) : State := { s with spdm := { s.spdm with rnd := s.spdm.rnd + 1 } }

/-! ### The responses -/

/-- DOE Discovery: the mailbox carries discovery (type 0) and CMA (type 1). -/
def discovery (req : List Byte) : List Byte :=
  let i := leAt req 0 1
  if i = 0 then [1, 0, 0, 1] else if i = 1 then [1, 0, 1, 0] else [0xFF, 0xFF, 0, 0]

def State.spdmVer (s : State) : State × List Byte :=
  ({ s with spdm := { s.spdm with versioned := true, capable := false, negotiated := false } }, [0x10, 0x04, 0, 0, 0, 1, 0, 0x12])

/-- CAPABILITIES: certificates, challenge, signed measurements. -/
def State.spdmCaps (s : State) : State × List Byte :=
  let l := slice Config.spdmLimits 0 9
  ({ s with spdm := { s.spdm with capable := true } },
   [0x12, 0x61, 0, 0, 0] ++ l.take 1 ++ [0, 0] ++ leBytes 4 0x16 ++ slice l 1 4 ++ slice l 5 4)

/-- ALGORITHMS: DMTF measurements, SHA-384, ECDSA P-384, where the request offers them. (PRESUMED, log entry 22) -/
def State.spdmAlgs (s : State) (req : List Byte) : State × List Byte :=
  let both (off n bit : Nat) : Nat := Nat.land (leAt req off n) bit
  ({ s with spdm := { s.spdm with negotiated := true } },
   [0x12, 0x63, 0, 0, 36, 0] ++ leBytes 1 (both 6 1 1) ++ [0] ++ leBytes 4 (if both 6 1 1 = 0 then 0 else 4) ++
     leBytes 4 (both 8 4 0x80) ++ leBytes 4 (both 12 4 2) ++ List.replicate 16 0)

def State.spdmDigests (s : State) : State × List Byte := (s, [0x12, 0x01, 0, 1] ++ sha384 certChain)

def State.spdmCert (s : State) (req : List Byte) : State × List Byte :=
  let off := leAt req 4 2
  let c := certChain
  if leAt req 2 1 ≠ 0 ∨ c.length ≤ off then (s, spdmError spdmInvalid)
  else
    let part := (c.drop off).take (leAt req 6 2)
    (s, [0x12, 0x02, 0, 0] ++ leBytes 2 part.length ++ leBytes 2 (c.length - off - part.length) ++ part)

/-- The measurement summary hash of CHALLENGE and GET_MEASUREMENTS: none, the trusted computing base, or all. -/
def State.measSummary (s : State) (ty : Nat) : List Byte :=
  if ty = 0 then []
  else sha384 (s.measRecord true ((if ty = 1 then [1, 2, 3, 4].filter Config.spdmTcb else [1, 2, 3, 4])))

def State.spdmChal (s : State) (req : List Byte) : State × List Byte :=
  let ty := leAt req 3 1
  if leAt req 2 1 ≠ 0 ∨ req.length < 36 ∨ !(ty == 0 || ty == 1 || ty == 0xFF) then (s, spdmError spdmInvalid)
  else
    (s.spdmDraw, [0x12, 0x03, 0, 1] ++ sha384 certChain ++ slice (Config.spdmNonce s.spdm.rnd) 0 32 ++ s.measSummary ty ++
      [0, 0] ++ slice (Config.spdmSign s.spdm.rnd) 0 96)

def State.spdmMeas (s : State) (req : List Byte) : State × List Byte :=
  let attr := leAt req 2 1
  let op := leAt req 3 1
  let sig := bitOf attr 0
  let is := if op = 0 then [] else if op = 0xFF then [1, 2, 3, 4] else [op]
  if (4 < op ∧ op ≠ 0xFF) ∨ (sig && (decide (req.length < 37) || leAt req 36 1 != 0)) then (s, spdmError spdmInvalid)
  else
    let r := s.measRecord (bitOf attr 1) is
    (s.spdmDraw, [0x12, 0x60, if op = 0 then 4 else 0, 0] ++ leBytes 1 is.length ++ leBytes 3 r.length ++ r ++
      slice (Config.spdmNonce s.spdm.rnd) 0 32 ++ [0, 0] ++ (if sig then slice (Config.spdmSign s.spdm.rnd) 0 96 else []))

/-! ### Commands -/

/-- DOE_DISCOVERY (R342). -/
def execDoeDiscovery (req : List Byte) (s : State) : Host.Outcome State Fault Refusal :=
  .next (if s.pcieUp then s.doeAnswer 0 (discovery req) else s).finish

/-- GET_VERSION (R342). (PRESUMED, log entry 22) -/
def execGetVersion (req : List Byte) (s : State) : Host.Outcome State Fault Refusal :=
  .next (s.spdm_ req 0x84 0x10 true State.spdmVer).finish

/-- GET_CAPABILITIES (R342). (PRESUMED, log entry 22) -/
def execGetCapabilities (req : List Byte) (s : State) : Host.Outcome State Fault Refusal :=
  .next (s.spdm_ req 0xE1 0x12 s.spdm.versioned State.spdmCaps).finish

/-- NEGOTIATE_ALGORITHMS (R342). -/
def execNegotiateAlgorithms (req : List Byte) (s : State) : Host.Outcome State Fault Refusal :=
  .next (s.spdm_ req 0xE3 0x12 s.spdm.capable (fun t => t.spdmAlgs req)).finish

/-- GET_DIGESTS (R342). -/
def execGetDigests (req : List Byte) (s : State) : Host.Outcome State Fault Refusal :=
  .next (s.spdm_ req 0x81 0x12 s.spdm.negotiated State.spdmDigests).finish

/-- GET_CERTIFICATE (R342). -/
def execGetCertificate (req : List Byte) (s : State) : Host.Outcome State Fault Refusal :=
  .next (s.spdm_ req 0x82 0x12 s.spdm.negotiated (fun t => t.spdmCert req)).finish

/-- CHALLENGE (R342). -/
def execChallenge (req : List Byte) (s : State) : Host.Outcome State Fault Refusal :=
  .next (s.spdm_ req 0x83 0x12 s.spdm.negotiated (fun t => t.spdmChal req)).finish

/-- GET_MEASUREMENTS (R342). -/
def execGetMeasurements (req : List Byte) (s : State) : Host.Outcome State Fault Refusal :=
  .next (s.spdm_ req 0xE0 0x12 s.spdm.negotiated (fun t => t.spdmMeas req)).finish

end Sys2Proof.Machine
end

