-- ==== Sys2Proof/Machine/Sensors.lean ====
section
/-! DEFINITION. The sensors and their thresholds (R408, R412), and the out-of-band endpoint: MCTP control, PLDM and
vendor-defined messages (R411-R413), by their standards where the manual names them (log entry 23). -/

namespace Sys2Proof.Machine

/-! ### Sensors (R408, R412) -/

/-- The record of the active Blend's SENSOR_POLICY for a sensor: warning, critical, hysteresis (R416). -/
def State.sensorPolicy (s : State) (id : Nat) : Option (Int × Int × Int) :=
  let b := sectBytes s.activeSlot.bytes 4
  ((List.range (b.length / 16)).find? (fun k => leAt b (16 * k) 2 == id)).map (fun k =>
    (sextNat 32 (leAt b (16 * k + 4) 4), sextNat 32 (leAt b (16 * k + 8) 4), sextNat 32 (leAt b (16 * k + 12) 4)))

/-- Sample units in one unit of a sensor's PDR: eighths of a degree, mV in V, 10 mA in A; W, mV and mA as they
are. (DEDUCED, log entry 45) -/
def sensorScale (id : Nat) : Int := if id ≤ 22 then 8 else if id = 23 then 1000 else if id = 24 then 100 else 1

/-- The threshold state of a reading, from the state before (R412). (DEDUCED, log entry 45) -/
def sensorLevel (scale : Int) (p : Int × Int × Int) (old : Nat) (v : Int) : Nat :=
  let up (t : Int) : Bool := decide ((t + p.2.2) * scale ≤ v)
  let above (t : Int) : Bool := decide ((t - p.2.2) * scale < v)
  if up p.2.1 || (old == 2 && above p.2.1) then 2 else if up p.1 || (decide (1 ≤ old) && above p.1) then 1 else 0

/-- The PlatformEventMessage of class sensorEvent (R412). (PRESUMED, log entry 23) -/
def sensorMessage (inst id new old : Nat) (reading : Nat) : List Byte :=
  [0x01, BitVec.ofNat 8 (0x80 + inst), 0x02, 0x0A, 1, Config.pldmTid, 0] ++ leBytes 2 id ++
    [2, BitVec.ofNat 8 (new + 1), BitVec.ofNat 8 (old + 1), 5] ++ leBytes 4 reading

/-- A reading meets its thresholds: the log entry, and the event message. -/
def State.sensorEvents (s : State) (id : Nat) (v : Int) : State :=
  match s.sensorPolicy id with
  | none => s
  | some p =>
    let was := tget 0 s.gov.events id
    let old := was % 4
    let new := sensorLevel (sensorScale id) p old v
    if new = old then s
    else
      let code := Config.sensorCode id v
      let s1 := { s with gov := { s.gov with events := tput 0 s.gov.events id (new + 4 * old) } }
      let s2 := s1.logPut 4 (leBytes 2 id ++ leBytes 1 (if new = 0 then 3 else new) ++ leBytes 1 0 ++ leBytes 8 code.toNat)
      match s2.oob.receiver with
      | none => s2
      | some e => { s2 with draws := s2.draws + 1 }.emit
          (.mctp e (sensorMessage (Config.pldmInstance s2.draws).toNat id new old code.toNat))

/-- The diodes of the die that carries a diode. -/
def diodeMates (k : Nat) : List Nat := if k < 18 then (List.range 3).map (fun i => 3 * (k / 3) + i) else [18, 19, 20, 21]

/-- A diode that newly reads open or short: Correctable, or worse when its die has none left (R408). (DEDUCED, log
entry 45) -/
def State.diodeFault (s : State) (k : Nat) : State :=
  if bitOf s.gov.faults k then s
  else
    let s1 := { s with gov := { s.gov with faults := s.gov.faults ||| 2 ^ k } }
    let all := (diodeMates k).all (fun j => bitOf s1.gov.faults j)
    let off := mcOff (0x100 + 4 * k)
    if !all then s1.event 1 6 off 16 k 0
    else if k < 18 then s1.event 3 (k / 3) off 16 k 0
    else s1.event 4 6 off 16 k 0

/-- A reading of a sensor is kept where its register reads it. -/
def State.keepReading (s : State) (id : Nat) (v : Int) : State :=
  let g := s.gov
  if id ≤ 22 then
    { s with gov := { g with temps := tput 0 g.temps (id - 1) v,
                             faults := if bitOf g.faults (id - 1) then g.faults - 2 ^ (id - 1) else g.faults } }
  else if id = 23 then { s with gov := { g with vin := v.toNat % 2 ^ 16 } }
  else if id = 24 then { s with gov := { g with iin := v.toNat % 2 ^ 12 } }
  else if id = 25 then { s with gov := { g with pkgW := v.toNat } }
  else if id ≤ 105 then { s with gov := { g with volts := tput 0 g.volts (id - 26) (v.toNat % 2 ^ 16) } }
  else { s with gov := { g with currents := tput 0 g.currents (id - 106) (v.toNat % 2 ^ 20) } }

/-- A sensor is sampled. (DEDUCED, log entry 45) -/
def State.sample (s : State) (id : Nat) (r : Reading) : State :=
  if id = 0 ∨ 185 < id ∨ !s.start.vstby then s
  else match r with
    | .val v => (s.keepReading id v).sensorEvents id v
    | .fault => if id ≤ 22 then s.diodeFault (id - 1) else s

/-- The newest reading of a sensor. -/
def State.reading (s : State) (id : Nat) : Int :=
  let g := s.gov
  if id ≤ 22 then tget 0 g.temps (id - 1)
  else if id = 23 then g.vin
  else if id = 24 then g.iin
  else if id = 25 then g.pkgW
  else if id ≤ 105 then ((tget 0 g.volts (id - 26) : Nat) : Int)
  else ((tget 0 g.currents (id - 106) : Nat) : Int)

/-! ### MCTP control messages (R411) -/

/-- A response on the out-of-band interface, which answers while VSTBY is good. (DEDUCED, log entry 46) -/
def State.oobAnswer (s : State) (eid : BitVec 8) (bs : List Byte) : State := if s.start.vstby then s.emit (.mctp eid bs) else s

/-- A control message: type 0, instance, command, data. -/
def State.control (s : State) (eid : BitVec 8) (req : List Byte) (cmd : Nat) (f : State → State × List Byte) : State :=
  if !s.start.vstby then s
  else
    let head := [0, BitVec.ofNat 8 (leAt req 1 1 % 32), BitVec.ofNat 8 (leAt req 2 1)]
    if leAt req 0 1 ≠ 0 ∨ leAt req 2 1 ≠ cmd then s.oobAnswer eid (head ++ [0x05])
    else let r := f s
      r.1.oobAnswer eid (head ++ r.2)

def State.setEid (s : State) (req : List Byte) : State × List Byte :=
  let e := leAt req 4 1
  if req.length ≠ 5 then (s, [0x03])
  else if 1 < leAt req 3 1 % 4 ∨ e = 0 ∨ e = 0xFF then (s, [0x02])
  else ({ s with oob := { s.oob with eid := BitVec.ofNat 8 e } }, [0, 0, BitVec.ofNat 8 e, 0])

def State.getEid (s : State) : State × List Byte := (s, [0, s.oob.eid, 0, 0])

/-- The MCTP versions of a message type. -/
def mctpVersions (req : List Byte) : List Byte :=
  let t := leAt req 3 1
  if t = 0xFF ∨ t = 0 then [0, 1, 0xF1, 0xF3, 0xF0, 0]
  else if t = 1 then [0, 1, 0xF1, 0xF0, 0xF0, 0]
  else [0x80]

/-- The three message types that the endpoint reports. -/
def mctpTypes : List Byte := [0, 3, 0, 1, 0x7E]

/-! ### PLDM (R412) -/

/-- A PLDM request: message type 1, instance, type, command, data. (PRESUMED, log entry 23) -/
def State.pldm (s : State) (eid : BitVec 8) (req : List Byte) (ty cmd : Nat) (f : State → State × List Byte) : State :=
  if !s.start.vstby || leAt req 0 1 != 1 then s
  else
    let t := leAt req 2 1 % 64
    let c := leAt req 3 1
    let head := [1, BitVec.ofNat 8 (leAt req 1 1 % 32), BitVec.ofNat 8 t, BitVec.ofNat 8 c]
    if t ≠ 0 ∧ t ≠ 2 then s.oobAnswer eid (head ++ [0x20])
    else if t ≠ ty ∨ c ≠ cmd then s.oobAnswer eid (head ++ [0x05])
    else let r := f s
      r.1.oobAnswer eid (head ++ r.2)

/-- Bytes of a mask of commands. -/
def cmdMask (cs : List Nat) : List Byte := leBytes 32 (cs.foldl (fun a c => a + 2 ^ c) 0)

def pldmVersionOf (req : List Byte) : List Byte :=
  let t := leAt req 9 1
  if t ≠ 0 ∧ t ≠ 2 then [0x83]
  else
    let v := leBytes 4 (Config.pldmVersion t).toNat
    [0, 0, 0, 0, 0, 5] ++ v ++ leBytes 4 (crc32 v)

def pldmCommandsOf (req : List Byte) : List Byte :=
  let t := leAt req 4 1
  if t = 0 then 0 :: cmdMask [2, 3, 4, 5] else if t = 2 then 0 :: cmdMask [0x04, 0x11, 0x12, 0x50, 0x51] else [0x83]

def State.setReceiver (s : State) (req : List Byte) : State × List Byte :=
  let en := leAt req 4 1
  if en = 0 then ({ s with oob := { s.oob with receiver := none } }, [0])
  else if en ≠ 1 then (s, [0x82])
  else if leAt req 5 1 ≠ 0 then (s, [0x80])
  else ({ s with oob := { s.oob with receiver := some (BitVec.ofNat 8 (leAt req 6 1)) } }, [0])

def pdrOf (id : Nat) : List Byte := (Config.sensorPdr id).take 65535

/-- GetPDRRepositoryInfo: 185 records. (PRESUMED, log entry 23) -/
def pdrInfo : List Byte :=
  let sizes := (List.range 185).map (fun k => (pdrOf (k + 1)).length)
  let t := slice Config.pdrTimes 0 27
  [0, 0] ++ t.take 26 ++ leBytes 4 185 ++ leBytes 4 (sizes.foldl (· + ·) 0) ++ leBytes 4 (sizes.foldl max 0) ++ t.drop 26

/-- One bit of the CRC-8 of a PLDM transfer (polynomial 0x07). -/
def crc8Bit (c : Nat) : Nat := if 128 ≤ c then Nat.xor (c * 2 % 256) 7 else c * 2
def crc8 (bs : List Byte) : Nat :=
  bs.foldl (fun c b => [0, 1, 2, 3, 4, 5, 6, 7].foldl (fun a _ => crc8Bit a) (Nat.xor c b.toNat)) 0

/-- GetPDR: the record handle of a PDR is its sensor ID; a long record goes in parts, named by their offset. -/
def getPdrOf (req : List Byte) : List Byte :=
  let id := if leAt req 4 4 = 0 then 1 else leAt req 4 4
  if 185 < id then [0x82]
  else
    let b := pdrOf id
    let off := if leAt req 12 1 = 1 then 0 else leAt req 8 4
    let part := (b.drop off).take (leAt req 13 2)
    let last := decide (b.length ≤ off + part.length)
    let flag := if off = 0 then (if last then 5 else 0) else if last then 4 else 1
    [0] ++ leBytes 4 (if id = 185 then 0 else id + 1) ++ leBytes 4 (if last then 0 else off + part.length) ++ leBytes 1 flag ++
      leBytes 2 part.length ++ part ++ (if flag = 4 then leBytes 1 (crc8 b) else [])

def State.sensorReading (s : State) (req : List Byte) : List Byte :=
  let id := leAt req 4 2
  if id = 0 ∨ 185 < id then [0x80]
  else
    let e := tget 0 s.gov.events id
    let state (k : Nat) : Byte := BitVec.ofNat 8 (k + 1)
    [0, 5, if id ≤ 22 && bitOf s.gov.faults (id - 1) then 4 else 0, if s.oob.receiver.isSome then 2 else 1, state (e % 4),
      state (e / 4), state (e % 4)] ++ leBytes 4 (Config.sensorCode id (s.reading id)).toNat

def State.sensorThresholds (s : State) (req : List Byte) : List Byte :=
  let id := leAt req 4 2
  if id = 0 ∨ 185 < id then [0x80]
  else
    let p := (s.sensorPolicy id).getD (0, 0, 0)
    [0, 5] ++ leBytes 4 (BitVec.ofInt 32 p.1).toNat ++ leBytes 4 (BitVec.ofInt 32 p.2.1).toNat ++ List.replicate 16 0

/-! ### Vendor-defined messages (R413) -/

/-- A vendor-defined message: type 0x7E, Vendor ID 0x1F3C, code, data. -/
def State.vendor (s : State) (eid : BitVec 8) (req : List Byte) (code : Nat) (f : State → State × List Byte) : State :=
  if !s.start.vstby || leAt req 0 1 != 0x7E || leAt req 1 2 != 0x3C1F then s
  else
    let c := leAt req 3 1
    let head : List Byte := [0x7E, 0x1F, 0x3C, BitVec.ofNat 8 c]
    if c ≠ code then s.oobAnswer eid (head ++ [0x05])
    else let r := f s
      r.1.oobAnswer eid (head ++ r.2)

/-- START_STATUS as a register read returns it. -/
def State.startStatus (s : State) : Nat := match locate (startOff 0) with | some l => s.regVal 0 l | none => 0

def State.oobIdentity (s : State) : List Byte :=
  [0] ++ leBytes 4 0x5A880001 ++ leBytes 8 duid.toNat ++ leBytes 1 1 ++
    leBytes 4 (s.activeSlot.ver + s.blend.active * 2 ^ 24) ++ leBytes 4 s.startStatus

def State.oobLedger (s : State) (req : List Byte) : List Byte :=
  0 :: (match s.start.ledger[leAt req 4 1]? with | some e => e.bytes | none => List.replicate 64 0)

def State.oobLog (s : State) (req : List Byte) : List Byte :=
  let r := logRange s.logNext.toNat s.log.length (leAt req 4 4)
  0 :: (if r.2 = 0 then [] else match tfind s.log (r.1 % 131072) with
    | some e => logBytes e
    | none => List.replicate 64 0)

/-- RESTART: the log entry, then a start with cause 8. (DEDUCED, log entry 46) -/
def State.oobRestart (s : State) (eid : BitVec 8) : State × List Byte :=
  let s1 := s.logPut 5 (leBytes 1 1 ++ [eid])
  ({ s1 with start := { s1.start with due := some 8 } }, [0])

/-! ### Commands -/

/-- SENSOR_SAMPLE (R408). -/
def execSensorSample (id : Nat) (reading : Reading) (s : State) : Host.Outcome State Fault Refusal :=
  .next (s.sample id reading).finish

/-- SET_ENDPOINT_ID (R411). (PRESUMED, log entry 23) -/
def execSetEndpointId (eid : BitVec 8) (req : List Byte) (s : State) : Host.Outcome State Fault Refusal :=
  .next (s.control eid req 0x01 (fun t => t.setEid req)).finish

/-- GET_ENDPOINT_ID (R411). -/
def execGetEndpointId (eid : BitVec 8) (req : List Byte) (s : State) : Host.Outcome State Fault Refusal :=
  .next (s.control eid req 0x02 State.getEid).finish

/-- GET_MCTP_VERSION_SUPPORT (R411). -/
def execGetMctpVersionSupport (eid : BitVec 8) (req : List Byte) (s : State) : Host.Outcome State Fault Refusal :=
  .next (s.control eid req 0x04 (fun t => (t, mctpVersions req))).finish

/-- GET_MESSAGE_TYPE_SUPPORT (R411). -/
def execGetMessageTypeSupport (eid : BitVec 8) (req : List Byte) (s : State) : Host.Outcome State Fault Refusal :=
  .next (s.control eid req 0x05 (fun t => (t, mctpTypes))).finish

/-- GET_TID (R412). -/
def execGetTid (eid : BitVec 8) (req : List Byte) (s : State) : Host.Outcome State Fault Refusal :=
  .next (s.pldm eid req 0 0x02 (fun t => (t, [0, Config.pldmTid]))).finish

/-- GET_PLDM_VERSION (R412). -/
def execGetPldmVersion (eid : BitVec 8) (req : List Byte) (s : State) : Host.Outcome State Fault Refusal :=
  .next (s.pldm eid req 0 0x03 (fun t => (t, pldmVersionOf req))).finish

/-- GET_PLDM_TYPES (R412). -/
def execGetPldmTypes (eid : BitVec 8) (req : List Byte) (s : State) : Host.Outcome State Fault Refusal :=
  .next (s.pldm eid req 0 0x04 (fun t => (t, [0, 5, 0, 0, 0, 0, 0, 0, 0]))).finish

/-- GET_PLDM_COMMANDS (R412). -/
def execGetPldmCommands (eid : BitVec 8) (req : List Byte) (s : State) : Host.Outcome State Fault Refusal :=
  .next (s.pldm eid req 0 0x05 (fun t => (t, pldmCommandsOf req))).finish

/-- SET_EVENT_RECEIVER (R412). -/
def execSetEventReceiver (eid : BitVec 8) (req : List Byte) (s : State) : Host.Outcome State Fault Refusal :=
  .next (s.pldm eid req 2 0x04 (fun t => t.setReceiver req)).finish

/-- GET_PDR_REPOSITORY_INFO (R412). -/
def execGetPdrRepositoryInfo (eid : BitVec 8) (req : List Byte) (s : State) : Host.Outcome State Fault Refusal :=
  .next (s.pldm eid req 2 0x50 (fun t => (t, pdrInfo))).finish

/-- GET_PDR (R412). -/
def execGetPdr (eid : BitVec 8) (req : List Byte) (s : State) : Host.Outcome State Fault Refusal :=
  .next (s.pldm eid req 2 0x51 (fun t => (t, getPdrOf req))).finish

/-- GET_SENSOR_READING (R412). -/
def execGetSensorReading (eid : BitVec 8) (req : List Byte) (s : State) : Host.Outcome State Fault Refusal :=
  .next (s.pldm eid req 2 0x11 (fun t => (t, t.sensorReading req))).finish

/-- GET_SENSOR_THRESHOLDS (R412). -/
def execGetSensorThresholds (eid : BitVec 8) (req : List Byte) (s : State) : Host.Outcome State Fault Refusal :=
  .next (s.pldm eid req 2 0x12 (fun t => (t, t.sensorThresholds req))).finish

/-- GET_IDENTITY (R413). -/
def execGetIdentity (eid : BitVec 8) (req : List Byte) (s : State) : Host.Outcome State Fault Refusal :=
  .next (s.vendor eid req 0x01 (fun t => (t, t.oobIdentity))).finish

/-- READ_LEDGER (R413). -/
def execReadLedger (eid : BitVec 8) (req : List Byte) (s : State) : Host.Outcome State Fault Refusal :=
  .next (s.vendor eid req 0x02 (fun t => (t, t.oobLedger req))).finish

/-- READ_LOG (R413). -/
def execReadLog (eid : BitVec 8) (req : List Byte) (s : State) : Host.Outcome State Fault Refusal :=
  .next (s.vendor eid req 0x03 (fun t => (t, t.oobLog req))).finish

/-- RESTART (R413). -/
def execRestart (eid : BitVec 8) (req : List Byte) (s : State) : Host.Outcome State Fault Refusal :=
  .next (s.vendor eid req 0x04 (fun t => t.oobRestart eid)).finish

end Sys2Proof.Machine
end

