-- ==== Sys2Proof/Machine/Dispatch.lean ====
section
/-! DEFINITION. One arm per command: its meaning. -/

namespace Sys2Proof.Machine

/-- The effect of a command on everything but the queue. -/
def exec (i : Instr) (s : State) : Host.Outcome State Fault Refusal :=
  match i with
  | .add die pe => Sys2Proof.Machine.execAdd die pe s
  | .sub die pe => Sys2Proof.Machine.execSub die pe s
  | .adc die pe => Sys2Proof.Machine.execAdc die pe s
  | .sbc die pe => Sys2Proof.Machine.execSbc die pe s
  | .neg die pe => Sys2Proof.Machine.execNeg die pe s
  | .mul die pe => Sys2Proof.Machine.execMul die pe s
  | .mulw die pe => Sys2Proof.Machine.execMulw die pe s
  | .mulwu die pe => Sys2Proof.Machine.execMulwu die pe s
  | .div die pe => Sys2Proof.Machine.execDiv die pe s
  | .divu die pe => Sys2Proof.Machine.execDivu die pe s
  | .min die pe => Sys2Proof.Machine.execMin die pe s
  | .max die pe => Sys2Proof.Machine.execMax die pe s
  | .minu die pe => Sys2Proof.Machine.execMinu die pe s
  | .maxu die pe => Sys2Proof.Machine.execMaxu die pe s
  | .and die pe => Sys2Proof.Machine.execAnd die pe s
  | .or die pe => Sys2Proof.Machine.execOr die pe s
  | .xor die pe => Sys2Proof.Machine.execXor die pe s
  | .andn die pe => Sys2Proof.Machine.execAndn die pe s
  | .not die pe => Sys2Proof.Machine.execNot die pe s
  | .shl die pe => Sys2Proof.Machine.execShl die pe s
  | .shr die pe => Sys2Proof.Machine.execShr die pe s
  | .sar die pe => Sys2Proof.Machine.execSar die pe s
  | .rol die pe => Sys2Proof.Machine.execRol die pe s
  | .ror die pe => Sys2Proof.Machine.execRor die pe s
  | .popc die pe => Sys2Proof.Machine.execPopc die pe s
  | .clz die pe => Sys2Proof.Machine.execClz die pe s
  | .ceq die pe => Sys2Proof.Machine.execCeq die pe s
  | .cne die pe => Sys2Proof.Machine.execCne die pe s
  | .clt die pe => Sys2Proof.Machine.execClt die pe s
  | .cle die pe => Sys2Proof.Machine.execCle die pe s
  | .cltu die pe => Sys2Proof.Machine.execCltu die pe s
  | .cleu die pe => Sys2Proof.Machine.execCleu die pe s
  | .steer die pe => Sys2Proof.Machine.execSteer die pe s
  | .select die pe => Sys2Proof.Machine.execSelect die pe s
  | .mov die pe => Sys2Proof.Machine.execMov die pe s
  | .gate die pe => Sys2Proof.Machine.execGate die pe s
  | .fadd die pe => Sys2Proof.Machine.execFadd die pe s
  | .fsub die pe => Sys2Proof.Machine.execFsub die pe s
  | .fmul die pe => Sys2Proof.Machine.execFmul die pe s
  | .ffma die pe => Sys2Proof.Machine.execFfma die pe s
  | .fdiv die pe => Sys2Proof.Machine.execFdiv die pe s
  | .fsqrt die pe => Sys2Proof.Machine.execFsqrt die pe s
  | .fmin die pe => Sys2Proof.Machine.execFmin die pe s
  | .fmax die pe => Sys2Proof.Machine.execFmax die pe s
  | .fceq die pe => Sys2Proof.Machine.execFceq die pe s
  | .fclt die pe => Sys2Proof.Machine.execFclt die pe s
  | .fcle die pe => Sys2Proof.Machine.execFcle die pe s
  | .fcun die pe => Sys2Proof.Machine.execFcun die pe s
  | .cvtfi die pe => Sys2Proof.Machine.execCvtfi die pe s
  | .cvtfu die pe => Sys2Proof.Machine.execCvtfu die pe s
  | .cvtif die pe => Sys2Proof.Machine.execCvtif die pe s
  | .cvtuf die pe => Sys2Proof.Machine.execCvtuf die pe s
  | .fneg die pe => Sys2Proof.Machine.execFneg die pe s
  | .fabs die pe => Sys2Proof.Machine.execFabs die pe s
  | .cvtXS die pe => Sys2Proof.Machine.execCvtXS die pe s
  | .cvtSX die pe => Sys2Proof.Machine.execCvtSX die pe s
  | .call die pe => Sys2Proof.Machine.execCall die pe s
  | .ret die pe => Sys2Proof.Machine.execRet die pe s
  | .send die pe => Sys2Proof.Machine.execSend die pe s
  | .falloc die pe => Sys2Proof.Machine.execFalloc die pe s
  | .ffree die pe => Sys2Proof.Machine.execFfree die pe s
  | .self die pe => Sys2Proof.Machine.execSelf die pe s
  | .prio die pe => Sys2Proof.Machine.execPrio die pe s
  | .emit die pe => Sys2Proof.Machine.execEmit die pe s
  | .ltbAcq die pe => Sys2Proof.Machine.execLtbAcq die pe s
  | .ltbRel die pe => Sys2Proof.Machine.execLtbRel die pe s
  | .brk die pe => Sys2Proof.Machine.execBrk die pe s
  | .repI die pe reps => Sys2Proof.Machine.execRepI die pe reps s
  | .repU die pe reps => Sys2Proof.Machine.execRepU die pe reps s
  | .resumeItem die pe reps => Sys2Proof.Machine.execResumeItem die pe reps s
  | .duplicate die pe => Sys2Proof.Machine.execDuplicate die pe s
  | .token src => Sys2Proof.Machine.execToken src s
  | .chainWalkEnd die slot => Sys2Proof.Machine.execChainWalkEnd die slot s
  | .regionFullRelease die => Sys2Proof.Machine.execRegionFullRelease die s
  | .dispatchPlacement die => Sys2Proof.Machine.execDispatchPlacement die s
  | .frozenItemDiscard die pe => Sys2Proof.Machine.execFrozenItemDiscard die pe s
  | .memRdReq dir err => Sys2Proof.Machine.execMemRdReq dir err s
  | .memWr dir err => Sys2Proof.Machine.execMemWr dir err s
  | .memRdRsp dir err => Sys2Proof.Machine.execMemRdRsp dir err s
  | .pourWord dir err => Sys2Proof.Machine.execPourWord dir err s
  | .d2dCredit dir err => Sys2Proof.Machine.execD2dCredit dir err s
  | .ack dir err => Sys2Proof.Machine.execAck dir err s
  | .nak dir err => Sys2Proof.Machine.execNak dir err s
  | .trainDone dir err => Sys2Proof.Machine.execTrainDone dir err s
  | .d2dAckDue dir => Sys2Proof.Machine.execD2dAckDue dir s
  | .crcInject link v => Sys2Proof.Machine.execCrcInject link v s
  | .twikelTs1 tw lane head blk => Sys2Proof.Machine.execTwikelTs1 tw lane head blk s
  | .twikelTs2 tw lane head blk => Sys2Proof.Machine.execTwikelTs2 tw lane head blk s
  | .twikelRetrain tw => Sys2Proof.Machine.execTwikelRetrain tw s
  | .tokens tw frame => Sys2Proof.Machine.execTokens tw frame s
  | .twikelCredit tw frame => Sys2Proof.Machine.execTwikelCredit tw frame s
  | .version tw frame => Sys2Proof.Machine.execVersion tw frame s
  | .epoch tw frame => Sys2Proof.Machine.execEpoch tw frame s
  | .epochCheck tw => Sys2Proof.Machine.execEpochCheck tw s
  | .twikelRetry tw frame => Sys2Proof.Machine.execTwikelRetry tw frame s
  | .twikelIdle tw frame => Sys2Proof.Machine.execTwikelIdle tw frame s
  | .twikelAckDue tw => Sys2Proof.Machine.execTwikelAckDue tw s
  | .twikelCreditDue tw => Sys2Proof.Machine.execTwikelCreditDue tw s
  | .twikelLinkDown tw => Sys2Proof.Machine.execTwikelLinkDown tw s
  | .pfpTs1 port lane head blk => Sys2Proof.Machine.execPfpTs1 port lane head blk s
  | .pfpTs2 port lane head blk => Sys2Proof.Machine.execPfpTs2 port lane head blk s
  | .trainingTimeout port => Sys2Proof.Machine.execTrainingTimeout port s
  | .trainingRestart port => Sys2Proof.Machine.execTrainingRestart port s
  | .fail port frame => Sys2Proof.Machine.execFail port frame s
  | .pfpCredit port frame => Sys2Proof.Machine.execPfpCredit port frame s
  | .pfpRetry port frame => Sys2Proof.Machine.execPfpRetry port frame s
  | .pfpIdle port frame => Sys2Proof.Machine.execPfpIdle port frame s
  | .pfpAckDue port => Sys2Proof.Machine.execPfpAckDue port s
  | .failCreditDue port => Sys2Proof.Machine.execFailCreditDue port s
  | .pfpLinkDown port => Sys2Proof.Machine.execPfpLinkDown port s
  | .presenceClearDone port => Sys2Proof.Machine.execPresenceClearDone port s
  | .controlStart port => Sys2Proof.Machine.execControlStart port s
  | .runStart port => Sys2Proof.Machine.execRunStart port s
  | .tickExamination port => Sys2Proof.Machine.execTickExamination port s
  | .failRecord port => Sys2Proof.Machine.execFailRecord port s
  | .siltPush q env => Sys2Proof.Machine.execSiltPush q env s
  | .siltPop pop => Sys2Proof.Machine.execSiltPop pop s
  | .refillDone q lost => Sys2Proof.Machine.execRefillDone q lost s
  | .flush v => Sys2Proof.Machine.execFlush v s
  | .diagPop be => Sys2Proof.Machine.execDiagPop be s
  | .drip q => Sys2Proof.Machine.execDrip q s
  | .dieLevelEvaluation die => Sys2Proof.Machine.execDieLevelEvaluation die s
  | .packageFigureSample => Sys2Proof.Machine.execPackageFigureSample s
  | .packageLevelEvaluation => Sys2Proof.Machine.execPackageLevelEvaluation s
  | .packageLevelApply => Sys2Proof.Machine.execPackageLevelApply s
  | .creditWindowRefill die => Sys2Proof.Machine.execCreditWindowRefill die s
  | .injectCreditRefill => Sys2Proof.Machine.execInjectCreditRefill s
  | .floorHeld die cls => Sys2Proof.Machine.execFloorHeld die cls s
  | .storageDeadlock die region => Sys2Proof.Machine.execStorageDeadlock die region s
  | .kboundReservation => Sys2Proof.Machine.execKboundReservation s
  | .reservationRelease => Sys2Proof.Machine.execReservationRelease s
  | .latchAcquire group => Sys2Proof.Machine.execLatchAcquire group s
  | .latchRelease group => Sys2Proof.Machine.execLatchRelease group s
  | .liftMessage die => Sys2Proof.Machine.execLiftMessage die s
  | .ltbWinRead fn latch => Sys2Proof.Machine.execLtbWinRead fn latch s
  | .ltbWinWrite fn latch be => Sys2Proof.Machine.execLtbWinWrite fn latch be s
  | .bankRequest bank v => Sys2Proof.Machine.execBankRequest bank v s
  | .bankTransitionDone bank => Sys2Proof.Machine.execBankTransitionDone bank s
  | .writeBufferDrain die pe => Sys2Proof.Machine.execWriteBufferDrain die pe s
  | .heldWriteLand die => Sys2Proof.Machine.execHeldWriteLand die s
  | .isdPoolBuild die v => Sys2Proof.Machine.execIsdPoolBuild die v s
  | .isdBuildDone die => Sys2Proof.Machine.execIsdBuildDone die s
  | .bmvDoorbell ch v => Sys2Proof.Machine.execBmvDoorbell ch v s
  | .listEntryFetch ch data => Sys2Proof.Machine.execListEntryFetch ch data s
  | .burstGrant => Sys2Proof.Machine.execBurstGrant s
  | .burstReadDone ch data => Sys2Proof.Machine.execBurstReadDone ch data s
  | .descriptorEnd ch => Sys2Proof.Machine.execDescriptorEnd ch s
  | .nop => Sys2Proof.Machine.execNop s
  | .identify => Sys2Proof.Machine.execIdentify s
  | .resetScope env => Sys2Proof.Machine.execResetScope env s
  | .setField => Sys2Proof.Machine.execSetField s
  | .getField => Sys2Proof.Machine.execGetField s
  | .graphLoad data => Sys2Proof.Machine.execGraphLoad data s
  | .graphStart => Sys2Proof.Machine.execGraphStart s
  | .graphAbort => Sys2Proof.Machine.execGraphAbort s
  | .graphPark => Sys2Proof.Machine.execGraphPark s
  | .graphResume => Sys2Proof.Machine.execGraphResume s
  | .orphanSweep => Sys2Proof.Machine.execOrphanSweep s
  | .injectTokens data => Sys2Proof.Machine.execInjectTokens data s
  | .bmvStart => Sys2Proof.Machine.execBmvStart s
  | .bmvStop => Sys2Proof.Machine.execBmvStop s
  | .bankPower => Sys2Proof.Machine.execBankPower s
  | .repairAdd => Sys2Proof.Machine.execRepairAdd s
  | .portConfig => Sys2Proof.Machine.execPortConfig s
  | .pourArm => Sys2Proof.Machine.execPourArm s
  | .epochSchedule => Sys2Proof.Machine.execEpochSchedule s
  | .kaoMeasure => Sys2Proof.Machine.execKaoMeasure s
  | .kaoReadRecords => Sys2Proof.Machine.execKaoReadRecords s
  | .kaoCalWrite data => Sys2Proof.Machine.execKaoCalWrite data s
  | .blendStage data => Sys2Proof.Machine.execBlendStage data s
  | .blendVerify => Sys2Proof.Machine.execBlendVerify s
  | .blendActivateAt => Sys2Proof.Machine.execBlendActivateAt s
  | .blendCancel => Sys2Proof.Machine.execBlendCancel s
  | .ledgerRead => Sys2Proof.Machine.execLedgerRead s
  | .ledgerClear => Sys2Proof.Machine.execLedgerClear s
  | .logRead => Sys2Proof.Machine.execLogRead s
  | .snapshot data => Sys2Proof.Machine.execSnapshot data s
  | .qpSqTail fn qp v => Sys2Proof.Machine.execQpSqTail fn qp v s
  | .commandFetch qp r => Sys2Proof.Machine.execCommandFetch qp r s
  | .qpCqHead fn qp v => Sys2Proof.Machine.execQpCqHead fn qp v s
  | .queuePairEnable fn qp v => Sys2Proof.Machine.execQueuePairEnable fn qp v s
  | .queuePairDisable fn qp v => Sys2Proof.Machine.execQueuePairDisable fn qp v s
  | .deferredCommandBegin => Sys2Proof.Machine.execDeferredCommandBegin s
  | .bar2Read off len => Sys2Proof.Machine.execBar2Read off len s
  | .bar2Write off data ep => Sys2Proof.Machine.execBar2Write off data ep s
  | .registerWrite fn off v form => Sys2Proof.Machine.execRegisterWrite fn off v form s
  | .erqRd v => Sys2Proof.Machine.execErqRd v s
  | .flr fn => Sys2Proof.Machine.execFlr fn s
  | .hotReset => Sys2Proof.Machine.execHotReset s
  | .perstN level => Sys2Proof.Machine.execPerstN level s
  | .doeDiscovery req => Sys2Proof.Machine.execDoeDiscovery req s
  | .getVersion req => Sys2Proof.Machine.execGetVersion req s
  | .getCapabilities req => Sys2Proof.Machine.execGetCapabilities req s
  | .negotiateAlgorithms req => Sys2Proof.Machine.execNegotiateAlgorithms req s
  | .getDigests req => Sys2Proof.Machine.execGetDigests req s
  | .getCertificate req => Sys2Proof.Machine.execGetCertificate req s
  | .challenge req => Sys2Proof.Machine.execChallenge req s
  | .getMeasurements req => Sys2Proof.Machine.execGetMeasurements req s
  | .measure frame => Sys2Proof.Machine.execMeasure frame s
  | .read good => Sys2Proof.Machine.execRead good s
  | .release frame => Sys2Proof.Machine.execRelease frame s
  | .sign good => Sys2Proof.Machine.execSign good s
  | .calBegin good => Sys2Proof.Machine.execCalBegin good s
  | .calData good => Sys2Proof.Machine.execCalData good s
  | .calCommit frame => Sys2Proof.Machine.execCalCommit frame s
  | .status good => Sys2Proof.Machine.execStatus good s
  | .qualifyingEdge ch falling coarse code => Sys2Proof.Machine.execQualifyingEdge ch falling coarse code s
  | .startTimeout ch => Sys2Proof.Machine.execStartTimeout ch s
  | .stopTimeout ch => Sys2Proof.Machine.execStopTimeout ch s
  | .dcConversion ch conv => Sys2Proof.Machine.execDcConversion ch conv s
  | .signatureBlockDone => Sys2Proof.Machine.execSignatureBlockDone s
  | .krefLost => Sys2Proof.Machine.execKrefLost s
  | .krefLocked => Sys2Proof.Machine.execKrefLocked s
  | .sealBroken => Sys2Proof.Machine.execSealBroken s
  | .sealClosed => Sys2Proof.Machine.execSealClosed s
  | .krstN level supply => Sys2Proof.Machine.execKrstN level supply s
  | .kaolinReady sealHigh => Sys2Proof.Machine.execKaolinReady sealHigh s
  | .kaoCommandTimeout => Sys2Proof.Machine.execKaoCommandTimeout s
  | .epochIn later => Sys2Proof.Machine.execEpochIn later s
  | .scheduledBoundary => Sys2Proof.Machine.execScheduledBoundary s
  | .dieBoundaryCycle die => Sys2Proof.Machine.execDieBoundaryCycle die s
  | .epochOutFall => Sys2Proof.Machine.execEpochOutFall s
  | .tbArm v => Sys2Proof.Machine.execTbArm v s
  | .timebaseLoad => Sys2Proof.Machine.execTimebaseLoad s
  | .selectorWrite => Sys2Proof.Machine.execSelectorWrite s
  | .pssReadDone => Sys2Proof.Machine.execPssReadDone s
  | .rbBurn v => Sys2Proof.Machine.execRbBurn v s
  | .burnStepDone => Sys2Proof.Machine.execBurnStepDone s
  | .pssCommit v => Sys2Proof.Machine.execPssCommit v s
  | .currentLoopEvaluation => Sys2Proof.Machine.execCurrentLoopEvaluation s
  | .thermalLoopEvaluation => Sys2Proof.Machine.execThermalLoopEvaluation s
  | .capLoopEvaluation => Sys2Proof.Machine.execCapLoopEvaluation s
  | .ckFabStop die => Sys2Proof.Machine.execCkFabStop die s
  | .ckFabRestart die => Sys2Proof.Machine.execCkFabRestart die s
  | .clampEpisode die limit => Sys2Proof.Machine.execClampEpisode die limit s
  | .domainRequest dom v => Sys2Proof.Machine.execDomainRequest dom v s
  | .domainSwitchDone dom => Sys2Proof.Machine.execDomainSwitchDone dom s
  | .portEnable port v => Sys2Proof.Machine.execPortEnable port v s
  | .portDisable port v => Sys2Proof.Machine.execPortDisable port v s
  | .vinGood => Sys2Proof.Machine.execVinGood s
  | .vinLost which => Sys2Proof.Machine.execVinLost which s
  | .vstbyLost => Sys2Proof.Machine.execVstbyLost s
  | .thermalTrip diode => Sys2Proof.Machine.execThermalTrip diode s
  | .refclkLost => Sys2Proof.Machine.execRefclkLost s
  | .sensorSample id reading => Sys2Proof.Machine.execSensorSample id reading s
  | .startSequence env => Sys2Proof.Machine.execStartSequence env s
  | .essentialRetry => Sys2Proof.Machine.execEssentialRetry s
  | .startCtrlRestart v => Sys2Proof.Machine.execStartCtrlRestart v s
  | .thermalRecovery => Sys2Proof.Machine.execThermalRecovery s
  | .setEndpointId eid req => Sys2Proof.Machine.execSetEndpointId eid req s
  | .getEndpointId eid req => Sys2Proof.Machine.execGetEndpointId eid req s
  | .getMctpVersionSupport eid req => Sys2Proof.Machine.execGetMctpVersionSupport eid req s
  | .getMessageTypeSupport eid req => Sys2Proof.Machine.execGetMessageTypeSupport eid req s
  | .getTid eid req => Sys2Proof.Machine.execGetTid eid req s
  | .getPldmVersion eid req => Sys2Proof.Machine.execGetPldmVersion eid req s
  | .getPldmTypes eid req => Sys2Proof.Machine.execGetPldmTypes eid req s
  | .getPldmCommands eid req => Sys2Proof.Machine.execGetPldmCommands eid req s
  | .setEventReceiver eid req => Sys2Proof.Machine.execSetEventReceiver eid req s
  | .getPdrRepositoryInfo eid req => Sys2Proof.Machine.execGetPdrRepositoryInfo eid req s
  | .getPdr eid req => Sys2Proof.Machine.execGetPdr eid req s
  | .getSensorReading eid req => Sys2Proof.Machine.execGetSensorReading eid req s
  | .getSensorThresholds eid req => Sys2Proof.Machine.execGetSensorThresholds eid req s
  | .getIdentity eid req => Sys2Proof.Machine.execGetIdentity eid req s
  | .readLedger eid req => Sys2Proof.Machine.execReadLedger eid req s
  | .readLog eid req => Sys2Proof.Machine.execReadLog eid req s
  | .restart eid req => Sys2Proof.Machine.execRestart eid req s
  | .undefinedOpcode die pe => Sys2Proof.Machine.execUndefinedOpcode die pe s
  | .completionTimeout rd => Sys2Proof.Machine.execCompletionTimeout rd s
  | .twikelTrainingTimeout tw => Sys2Proof.Machine.execTwikelTrainingTimeout tw s
  | .armedRunEnd port => Sys2Proof.Machine.execArmedRunEnd port s
  | .vstbyGood oobSel oobAddr => Sys2Proof.Machine.execVstbyGood oobSel oobAddr s
  | .vioGood => Sys2Proof.Machine.execVioGood s
  | .registerRead fn off form => Sys2Proof.Machine.execRegisterRead fn off form s
  | .msiXUnmask fn vec => Sys2Proof.Machine.execMsiXUnmask fn vec s
  | .pciePowerState d3hot => Sys2Proof.Machine.execPciePowerState d3hot s

end Sys2Proof.Machine
end

