-- ==== Sys2Proof/WellFormed.lean ====
section
/-! DEFINITION. Which commands are well formed: their operands name things that the spec gives, within its ranges. A
command that is not well formed says nothing about the hardware; the meanings are total on all of them. -/

namespace Sys2Proof

/-- Host data: the poisoned ranges and the failed byte lie in what was read (R339, R341). -/
def HostData.wf (d : HostData) : Bool :=
  d.ep.all (fun r => decide (0 < r.2)) && (match d.errAt with | some k => decide (k ≤ d.bytes.length) | none => true)

/-- A queue number of R196. -/
def queueWf (q : Nat) : Bool := (Machine.siltClass q).isSome || (Machine.laneOfQueue q).isSome

/-- A bank number of R226. -/
def bankWf (b : Nat) : Bool := (Machine.bankKind b).isSome

/-- The steps of R404 that a bring-up can fail. -/
def BringUp.wf (e : BringUp) : Bool :=
  match e.failStep with | some k => [9, 10, 11, 14, 17, 18, 19].contains k | none => true

/-- The environment of a start: an essential step of R396, eight DIMM sizes, spare entries of banks that exist. -/
def StartEnv.wf (e : StartEnv) : Bool :=
  (match e.essential with | some (k, _) => Machine.essential k | none => true) && e.dimm.length == 8 &&
    e.fuses.all (fun f => bankWf f.1 && decide (f.2 < Machine.bankCols f.1))

/-- A doubleword-aligned register access that enables a byte in some doubleword (R7, R9, R449). -/
def accessWf (off : BitVec 26) (be : BitVec 4) (more : List (BitVec 4)) : Bool :=
  off.toNat % 4 == 0 && (be != 0 || more.any (fun b => b != 0))

/-- A command is well formed. -/
def Instr.wf : Instr → Bool
  | .repI _ _ r => decide (1 ≤ r)
  | .repU _ _ r => decide (1 ≤ r)
  | .resumeItem _ _ r => decide (1 ≤ r)
  | .siltPush q _ => queueWf q
  | .siltPop p => queueWf p.queue
  | .refillDone q _ => queueWf q
  | .drip q => (Machine.siltClass q).isSome
  | .bankRequest b _ => bankWf b
  | .bankTransitionDone b => bankWf b
  | .listEntryFetch _ d => d.wf && d.bytes.length == 64
  | .burstReadDone _ d => d.wf
  | .resetScope e => e.wf
  | .graphLoad d => d.wf
  | .injectTokens d => d.wf
  | .kaoCalWrite d => d.wf
  | .blendStage d => d.wf
  | .snapshot d => d.wf
  | .bar2Read _ n => decide (1 ≤ n)
  | .bar2Write _ d _ => !d.isEmpty
  | .registerRead _ off x => accessWf off x.be x.more
  | .registerWrite _ off _ x => accessWf off x.be (x.more.map (fun p => p.2))
  | .sensorSample id r => decide (1 ≤ id) && decide (id ≤ 185) &&
      (match r with | .fault => decide (id ≤ 22) | .val _ => true)
  | .startSequence e => e.wf
  | .msiXUnmask fn v => decide (v < if fn.val = 0 then 2048 else 64)
  | _ => true

end Sys2Proof
end

