-- ==== Sys2Proof/Safety.lean ====
section
/-! DEFINITION. What a safe step and the invariants of the block are, in the terms that the statements use. -/

namespace Sys2Proof.Safety

open Sys2Proof.Machine

/-- A step goes on: it neither faults nor refuses. -/
def goesOn (o : Host.Outcome State Fault Refusal) : Prop := ∃ t, o = .next t

/-- A state between commands: every error record raised has been queued or held (R393, R395), and FAULT_N is low exactly in
Safe State, in fatal hold and from a thermal trip until a start reaches step 24 (chapter 17). -/
def Settled (s : State) : Bool := s.raised.isEmpty && s.faulted == s.start.faultLow

/-- A settled state in which no PARK or GRAPH_ABORT waits for firings to end (R219, R362), no ORPHAN_SWEEP runs (R177) and no
EPOCH_IN instant is still to come (R373). -/
def Quiet (s : State) : Bool :=
  Settled s && s.graphs.all (fun p => p.2.proc == .none) && s.sweep.isNone && s.clk.pins.isEmpty

/-! ### The beginning of a firing -/

/-- A PE selects an item of a lane that can fire (R187, R195, R218). -/
def Picks (s : State) (n k c : Nat) (it : Item) : Prop :=
  s.select n k = some (c, it) ∧ it.broken = false ∧ s.discards it = false

/-- The state in which the firing of a selected item begins: the item has left its lane (R187), the affinity follows (R185), a
generator item is charged to its lane's class (R211), and the Instruction Store banks of its code are reached (R229). -/
def begun (s : State) (n k c : Nat) (it : Item) : State :=
  let s1 := ((s.popHead n k c).noteBad n k c it).beginOn n k it
  (if s1.generator n it then s1.charge n k c 1 else s1).reachCode n (s1.graph it.graph.toNat) it.ip.toNat

/-- The firing of an item whose slot holds an instruction, begun in a state. -/
def firing (s : State) (n k c : Nat) (it : Item) (r : OpRow) (i : Insn) : Fire :=
  { n := n, k := k, it := it, ip := it.ip.toNat, colour := it.colour.toNat, rep := none, r := r, i := i, lane := c,
    seq := (s.die n).began }

/-- The record of a firing that has begun and waits for nothing yet. -/
def newFiring (s : State) (n k c : Nat) (it : Item) : Firing :=
  { pe := k, item := it, phase := .single, got := [], wait := .bank 0, lane := BitVec.ofNat 3 c, seq := (s.die n).began }

/-- A single instruction of an opcode begins its firing in `s1` and passes its decode (R96). -/
def Begins (s s1 : State) (n k c : Nat) (it : Item) (op : FOp) (r : OpRow) (i : Insn) : Prop :=
  Picks s n k c it ∧ wantOp n op s it = true ∧ s1 = begun s n k c it ∧ s1.decodeOne n it = .ok r i ∧ i.op = op

/-- The value of an operand that step 1 reads without a memory access: a token value or an immediate (R80, R81). -/
def direct (it : Item) (pos : Nat) (sp : Spec) : Option PWord :=
  match sp.m with
  | .tok => some (it.val pos)
  | .imm => some (.clean (sextWord 12 sp.f))
  | _ => none

/-- The operands A and B of an instruction that reads no D, writes no D and uses no link, when both are direct; B is zero
where the opcode does not use it (R78, R79). -/
def DirectOperands (s1 : State) (f : Fire) (a b : PWord) : Prop :=
  direct f.it 0 f.i.a = some a ∧
  (if f.i.fmt = .tw then b = .clean (sextWord 32 f.i.lit)
   else if f.r.useB then direct f.it 1 f.i.b = some b else b = PWord.zero) ∧
  (f.i.fmt = .t3 → f.r.d ≠ .input ∧ f.i.d = Spec.unused) ∧ s1.needsLink f = false

/-- G13 of the context is readable: it lies in the Frame Store and its bank serves (R54, R229). -/
def G13Ready (s1 : State) (f : Fire) : Prop :=
  s1.cdt f.cid + 13 < 8388608 ∧ s1.bankState (f.n * 256 + (s1.cdt f.cid + 13) / 131072) = 0

/-- The value of G13 that step 1 reads. -/
def g13 (s1 : State) (f : Fire) : PWord := s1.frameRd f.n (s1.cdt f.cid + 13)

/-- Step 1 of a firing ends with its operands read (R58): values, the place of a D output, further words read. -/
def StepOne (s1 : State) (f : Fire) (v : Vals) (place : Option Place) (x : List PWord) (rs : Rs) : Prop :=
  ((stepOne f (bodyOf f.i.x f.i.op)).run.run (Rs.start s1 [] (tokenVals f.it))) = (.ok (v, place, x), rs)

end Sys2Proof.Safety
end

