-- ==== Sys2Proof/Certificates/Slice0/Obligations.lean ====
section
/-! DEFINITION. The statements for the provers, and the formulas they are stated with (namespace Claims). Cites, titles and
kinds stand in OBLIGATIONS.json. -/

namespace Sys2Proof

open Sys2Proof.Machine Sys2Proof.Safety

/-- The constructors whose firing is a single integer, logic, shift or compare opcode, or MOV. -/
def Claims.integer : Instr → Option (Fin 6 × Fin 64 × FOp)
  | .add d p => some (d, p, .add) | .sub d p => some (d, p, .sub) | .neg d p => some (d, p, .neg)
  | .mul d p => some (d, p, .mul) | .mulw d p => some (d, p, .mulw) | .mulwu d p => some (d, p, .mulwu)
  | .div d p => some (d, p, .div) | .divu d p => some (d, p, .divu) | .min d p => some (d, p, .min)
  | .max d p => some (d, p, .max) | .minu d p => some (d, p, .minu) | .maxu d p => some (d, p, .maxu)
  | .and d p => some (d, p, .and) | .or d p => some (d, p, .or) | .xor d p => some (d, p, .xor)
  | .andn d p => some (d, p, .andn) | .not d p => some (d, p, .not) | .shl d p => some (d, p, .shl)
  | .shr d p => some (d, p, .shr) | .sar d p => some (d, p, .sar) | .rol d p => some (d, p, .rol)
  | .ror d p => some (d, p, .ror) | .popc d p => some (d, p, .popc) | .clz d p => some (d, p, .clz)
  | .ceq d p => some (d, p, .ceq) | .cne d p => some (d, p, .cne) | .clt d p => some (d, p, .clt)
  | .cle d p => some (d, p, .cle) | .cltu d p => some (d, p, .cltu) | .cleu d p => some (d, p, .cleu)
  | .mov d p => some (d, p, .mov)
  | _ => none

/-- Result words 0 and 1 and the raised flags of an integer opcode, from the data bits of A and B (R108-R112, R138). -/
def Claims.intResult (op : FOp) (a b : Word) : ArithRes :=
  match op with
  | .add => { w0 := a + b, w1 := if 2 ^ 36 ≤ a.toNat + b.toNat then 1 else 0,
              fl := { v := BitVec.saddOverflow a b, c := decide (2 ^ 36 ≤ a.toNat + b.toNat) } }
  | .sub => { w0 := a - b, w1 := if a.toNat < b.toNat then 1 else 0,
              fl := { v := BitVec.ssubOverflow a b, c := decide (a.toNat < b.toNat) } }
  | .neg => { w0 := 0 - a, fl := { v := a == 0x800000000 } }
  | .mul => { w0 := a * b, fl := { v := BitVec.smulOverflow a b } }
  | .mulw => { w0 := (a.signExtend 72 * b.signExtend 72).extractLsb' 0 36,
               w1 := (a.signExtend 72 * b.signExtend 72).extractLsb' 36 36 }
  | .mulwu => { w0 := (a.setWidth 72 * b.setWidth 72).extractLsb' 0 36,
                w1 := (a.setWidth 72 * b.setWidth 72).extractLsb' 36 36 }
  | .div => if b = 0 then { w0 := BitVec.allOnes 36, w1 := a, fl := { dz := true } }
            else { w0 := a.sdiv b, w1 := a.srem b, fl := { v := a == 0x800000000 && b == BitVec.allOnes 36 } }
  | .divu => if b = 0 then { w0 := BitVec.allOnes 36, w1 := a, fl := { dz := true } } else { w0 := a / b, w1 := a % b }
  | .min => { w0 := if a.sle b then a else b }
  | .max => { w0 := if b.sle a then a else b }
  | .minu => { w0 := if a ≤ b then a else b }
  | .maxu => { w0 := if b ≤ a then a else b }
  | .and => { w0 := a &&& b }
  | .or => { w0 := a ||| b }
  | .xor => { w0 := a ^^^ b }
  | .andn => { w0 := a &&& ~~~b }
  | .not => { w0 := ~~~a }
  | .shl => { w0 := a <<< (b.toNat % 256) }
  | .shr => { w0 := a >>> (b.toNat % 256) }
  | .sar => { w0 := a.sshiftRight (b.toNat % 256) }
  | .rol => { w0 := a.rotateLeft (b.toNat % 256 % 36) }
  | .ror => { w0 := a.rotateRight (b.toNat % 256 % 36) }
  | .popc => { w0 := BitVec.ofNat 36 ((List.range 36).countP (fun i => a.getLsbD i)) }
  | .clz => { w0 := BitVec.ofNat 36 (((List.range 36).reverse.findIdx (fun i => a.getLsbD i))) }
  | .ceq => { w0 := if a = b then 1 else 0 }
  | .cne => { w0 := if a = b then 0 else 1 }
  | .clt => { w0 := if a.slt b then 1 else 0 }
  | .cle => { w0 := if a.sle b then 1 else 0 }
  | .cltu => { w0 := if a < b then 1 else 0 }
  | .cleu => { w0 := if a ≤ b then 1 else 0 }
  | _ => { w0 := a }

/-- A result with the poison of the operands (R136): both words poisoned, and no flag. -/
def Claims.poisonedBy (p : Bool) (r : ArithRes) : FOut :=
  { FOut.words { v := r.w0, p := p } { v := r.w1, p := p } with fl := if p then {} else r.fl }

/-- Step 3 (R58) after the divider has run (R138): the opcode's own writes, its class for the own header, then the D words. -/
def Claims.step3 (s : State) (f : Fire) (v : Vals) (o : FOut) (place : Option Place) : Except Nat State :=
  let t := o.writes.foldl (fun u p => u.writeDev f.n f.seq p.1 p.2) (s.divide f v)
  (match o.prio with | some c => t.setHdr f.cid { t.hdr f.cid with cls := c } | none => t).writePlace f o place

/-- The raised flags are ORed into G13, unless a later firing has written it (R58, R64 item 4). -/
def Claims.raised (t : State) (f : Fire) (fl : Flags) : State :=
  let a := frameWord f.n (t.cdt f.cid + 13)
  if fl.toNat = 0 || t.overtaken f.n f.seq a then t
  else (t.setG f.cid 13 { v := (t.gWord f.cid 13).v ||| BitVec.ofNat 36 fl.toNat, p := (t.gWord f.cid 13).p }).updDie f.n
    (fun d => { d with ored := (f.seq, a, fl.toNat) :: d.ored })

/-- Steps 4 and 5 after the D words (R58): the pointer write-backs, the flags, and the tokens. -/
def Claims.ended (t : State) (f : Fire) (v : Vals) (o : FOut) (pins : List (Nat × Word)) : State :=
  (Claims.raised (t.writePins f pins) f (fireFlags f v o.fl)).sendAll f v o

/-- The constructors of the carry and routing opcodes. -/
def Claims.routing : Instr → Option (Fin 6 × Fin 64 × FOp)
  | .adc d p => some (d, p, .adc) | .sbc d p => some (d, p, .sbc) | .steer d p => some (d, p, .steer)
  | .select d p => some (d, p, .select) | .gate d p => some (d, p, .gate)
  | _ => none

/-- What a carry or routing opcode sends, for control values that raise no exception (R101, R109, R112-R114). -/
def Claims.routeOut (op : FOp) (a b d : PWord) : Option FOut :=
  let c : Nat := if d.v.getLsbD 0 then 1 else 0
  let fits (x : Int) : Bool := decide (-2 ^ 35 ≤ x ∧ x < 2 ^ 35)
  match op with
  | .adc => if d.p || d.v.toNat ≤ 1 then some (Claims.poisonedBy (a.p || b.p || d.p)
      { w0 := a.v + b.v + BitVec.ofNat 36 c, w1 := if 2 ^ 36 ≤ a.v.toNat + b.v.toNat + c then 1 else 0,
        fl := { v := !fits (a.v.toInt + b.v.toInt + c), c := decide (2 ^ 36 ≤ a.v.toNat + b.v.toNat + c) } }) else none
  | .sbc => if d.p || d.v.toNat ≤ 1 then some (Claims.poisonedBy (a.p || b.p || d.p)
      { w0 := a.v - b.v - BitVec.ofNat 36 c, w1 := if a.v.toNat < b.v.toNat + c then 1 else 0,
        fl := { v := !fits (a.v.toInt - b.v.toInt - c), c := decide (a.v.toNat < b.v.toNat + c) } }) else none
  | .steer => if b.v.toNat ≤ 1 then some { FOut.words a PWord.zero with list := some b.v.toNat } else none
  | .select =>
    if d.p then some (FOut.words { b with p := true } PWord.zero)
    else if d.v = 1 then some (FOut.words a PWord.zero)
    else if d.v = 0 then some (FOut.words b PWord.zero) else none
  | .gate => some (FOut.words a PWord.zero)
  | _ => none

/-- The constructors of the floating-point and conversion opcodes. -/
def Claims.floating : Instr → Option (Fin 6 × Fin 64 × FOp)
  | .fadd d p => some (d, p, .fadd) | .fsub d p => some (d, p, .fsub) | .fmul d p => some (d, p, .fmul)
  | .ffma d p => some (d, p, .ffma) | .fdiv d p => some (d, p, .fdiv) | .fsqrt d p => some (d, p, .fsqrt)
  | .fmin d p => some (d, p, .fmin) | .fmax d p => some (d, p, .fmax) | .fceq d p => some (d, p, .fceq)
  | .fclt d p => some (d, p, .fclt) | .fcle d p => some (d, p, .fcle) | .fcun d p => some (d, p, .fcun)
  | .cvtfi d p => some (d, p, .cvtfi) | .cvtfu d p => some (d, p, .cvtfu) | .cvtif d p => some (d, p, .cvtif)
  | .cvtuf d p => some (d, p, .cvtuf) | .fneg d p => some (d, p, .fneg) | .fabs d p => some (d, p, .fabs)
  | .cvtXS d p => some (d, p, .cvtXS) | .cvtSX d p => some (d, p, .cvtSX)
  | _ => none

/-- The operation of a floating-point opcode in its format, with the rounding mode of G13 (R115, R116, R139). -/
def Claims.floatResult (op : FOp) (x : Bool) (a b d g : Word) : ArithRes :=
  let m := if x then fmtX else fmtS
  match op with
  | .fadd => m.add (rmodeOf g) a b
  | .fsub => m.sub (rmodeOf g) a b
  | .fmul => m.mul (rmodeOf g) a b
  | .ffma => m.fma (rmodeOf g) a b d
  | .fdiv => m.div (rmodeOf g) a b
  | .fsqrt => m.sqrt (rmodeOf g) a
  | .fmin => m.minmax false a b
  | .fmax => m.minmax true a b
  | .fceq => m.ceq a b
  | .fclt => m.clt a b
  | .fcle => m.cle a b
  | .fcun => m.cun a b
  | .cvtfi => m.cvtfi (rmodeOf g) a
  | .cvtfu => m.cvtfu (rmodeOf g) a
  | .cvtif => m.cvtif (rmodeOf g) a
  | .cvtuf => m.cvtuf (rmodeOf g) a
  | .fneg => m.fneg a
  | .fabs => m.fabs a
  | .cvtXS => Sys2Proof.Machine.cvtXS a
  | _ => Sys2Proof.Machine.cvtSX (rmodeOf g) a

/-- The constructors of the context, call, EMIT and BRK opcodes. -/
def Claims.context : Instr → Option (Fin 6 × Fin 64 × FOp)
  | .self d p => some (d, p, .self) | .prio d p => some (d, p, .prio) | .send d p => some (d, p, .send)
  | .ret d p => some (d, p, .ret) | .call d p => some (d, p, .call) | .emit d p => some (d, p, .emit)
  | .brk d p => some (d, p, .brk)
  | _ => none

/-- The outcome of a context opcode whose operands raise no exception (R118-R121, R124, R130). -/
def Claims.contextOut (op : FOp) (s : State) (f : Fire) (v : Vals) (x : List PWord) : Option FOut :=
  match op with
  | .self => some (FOut.words (.clean (BitVec.ofNat 36 (f.cid + f.colour * 2 ^ 24)))
      (.clean (BitVec.ofNat 36 f.it.ip.toNat)))
  | .prio =>
    if v.a.v.toNat ≤ 7 ∧ v.a.v.toNat ≤ (s.graph f.it.graph.toNat).ceil then
      some { FOut.words (.clean (BitVec.ofNat 36 (s.hdr f.cid).cls)) PWord.zero with prio := some v.a.v.toNat }
    else none
  | .send =>
    if fieldOf v.d.v 20 2 ≠ 3 ∧ fieldOf v.d.v 26 10 = 0 then
      some { FOut.words v.a PWord.zero with
        sends := [{ cid := fieldOf v.b.v 0 24, ip := fieldOf v.d.v 0 20, colour := fieldOf v.b.v 24 12,
                    port := fieldOf v.d.v 20 2, pkg := fieldOf v.d.v 22 4, val := v.a }] }
    else none
  | .ret => v.link.map (fun l => { FOut.words v.a PWord.zero with
      sends := [{ cid := l.cid, ip := l.ip, colour := l.colour, port := l.port, pkg := s.ownPkg, val := v.a }],
      list := none })
  | .call =>
    match s.entries f 0 with
    | [] => none
    | e :: args =>
      let c := fieldOf v.a.v 0 24
      let l : Word × Word := if e.act = 3 then (match v.link with | some l => (l.w14, l.w15) | none => (0, 0))
        else (BitVec.ofNat 36 (f.cid + actColour e.act f.colour v.b.v * 2 ^ 24),
              BitVec.ofNat 36 ((f.ip + e.off) % 2 ^ 20 + e.port * 2 ^ 20))
      if c = 0xFFFFFF ∨ 8388608 ≤ s.cdt c + 15 then none
      else some { FOut.words v.b v.d with
        writes := [(frameWord (s.homeOf c) (s.cdt c + 14), PWord.clean l.1),
                   (frameWord (s.homeOf c) (s.cdt c + 15), PWord.clean l.2)],
        sends := args.map (fun a => { cid := c, ip := (f.ip + a.off) % 2 ^ 20,
                                      colour := actColour a.act (fieldOf v.a.v 24 12) v.b.v, port := a.port,
                                      pkg := s.ownPkg, val := if a.sel then v.d else v.b }),
        list := none }
  | .emit => some { FOut.words v.a PWord.zero with
      pours := x.zipIdx.map (fun p => pourFlit f.n (bitsOf f.i.lit 0 4) p.2 (bitsOf f.i.lit 4 2) v.a.v.toNat p.1) }
  | .brk => if s.flag (lmOff f.n 0x300) 0 then none else some (FOut.words v.a PWord.zero)
  | _ => none

/-- The state in which a firing waits after reading G13. -/
def Claims.waiting (s s1 : State) (n k lane : Nat) (it : Item) (f : Fire) (w : Wait) : State :=
  s.hold n { newFiring s1 n k lane it with got := [.word (g13 s1 f)], wait := w }

/-- The request for word 0 of the free list (R122). -/
def Claims.listRequest (s1 : State) (n : Nat) : State :=
  s1.sendFlit n (memFlit ftRdReq 6 n (scratchWord (s1.freelist n)) (s1.die n).freeTxn.toNat PWord.zero false)

/-- The firing of repetition `p.next` of a pair (R91, R94): the slot after the prefix, the colour c + i. -/
def Claims.repetition (s : State) (n k : Nat) (p : RepRun) (r : OpRow) (i : Insn) : Fire :=
  { n := n, k := k, it := p.item, ip := p.item.ip.toNat + 1, colour := (p.item.colour.toNat + p.next) % 4096,
    rep := some { i := p.next, n := p.n, pins := p.pins }, r := r, i := i, lane := p.lane.toNat, seq := (s.die n).began }

/-- The state in which the next repetition of the running pair begins (R128, R211). -/
def Claims.repeating (s : State) (n k : Nat) (p : RepRun) : State :=
  let s1 := if repCharge p = 0 then s else s.charge n k p.lane.toNat (repCharge p)
  let x := s1.pe (peKey n k)
  (s1.setPe (peKey n k) { x with runs := { p with next := p.next + 1, fresh := false } :: x.runs.drop 1 }).beginOn n k p.item

/-- The pair that a PE takes up: its record joins the PE's pairs. -/
def Claims.taken (s : State) (n k : Nat) (p : RepRun) : State :=
  s.setPe (peKey n k) { s.pe (peKey n k) with runs := (s.pe (peKey n k)).runs ++ [p] }

/-- The pair of a selected item, before repetition 0: the values of its tokens stand for the PIN bases (R93). -/
def Claims.pairOf (it : Item) (lane : Nat) (unbroken : Bool) (count : Nat) : RepRun :=
  { item := it, unbroken := unbroken, n := count, next := 0, pins := [it.val 0, it.val 1, it.val 2],
    lane := BitVec.ofNat 3 lane, fresh := true }

/-- The state in which the pair of a selected item is decoded: the item has left its lane, the affinity follows, and the
Instruction Store banks of both slots are reached (R185, R187, R229). -/
def Claims.pairBegun (s : State) (n k lane : Nat) (it : Item) : State :=
  let s0 := ((s.popHead n k lane).noteBad n k lane it).beginOn n k it
  (s0.reachCode n (s0.graph it.graph.toNat) it.ip.toNat).reachCode n (s0.graph it.graph.toNat) ((it.ip.toNat + 1) % 2 ^ 20)

/-- The rows of the two prefixes. -/
def Claims.repRow (unbroken : Bool) (n : Fin 6) (k : Fin 64) (reps : Nat) (s : State) : Host.Outcome State Fault Refusal :=
  if unbroken then exec (.repU n k reps) s else exec (.repI n k reps) s

/-- The pair after a repetition: it leaves the PE after its last one (R128). -/
def Claims.lastLeaves (e : State) (n k : Nat) (p : RepRun) : State :=
  if p.n ≤ p.next + 1 then e.dropRun n k else e

/-- A resume item has left its lane and been taken up: it is charged, and its pair runs on its PE from its next index (R129,
R211). -/
def Claims.resumed (s : State) (n k lane : Nat) (it : Item) : State :=
  let s1 := (((s.popHead n k lane).noteBad n k lane it).beginOn n k it).charge n k lane 1
  s1.setPe (peKey n k) { s1.pe (peKey n k) with runs :=
    [{ item := it, unbroken := s1.opAt n it.ip.toNat == 0x1F1, n := it.n.toNat, next := it.nxt.toNat,
       pins := [it.v0, it.v1, it.v2], lane := BitVec.ofNat 3 lane, fresh := true }] }

/-- The handler slot of a context (R65): bits 19 to 0 of G12. -/
def Claims.handler (s : State) (it : Item) : Nat := fieldOf (s.gWord it.cid.toNat 12).v 0 20

/-- The handler cannot take the exception of an instruction (R67). -/
def Claims.noHandler (s : State) (it : Item) (ip : Nat) : Prop :=
  let h := Claims.handler s it
  h = 0 ∨ h = 0xFFFFF ∨ ip = h ∨ ip = h + 1

/-- A token of an exception: to a slot and port of the context, in the colour of the firing and the class of its lane (R65). -/
def Claims.excToken (pkg lane : Nat) (it : Item) (x : Nat × Nat × PWord) : Token :=
  { cid := it.cid, ip := BitVec.ofNat 20 x.1, colour := it.colour, port := BitVec.ofNat 2 x.2.1,
    cls := BitVec.ofNat 3 lane, pkg := BitVec.ofNat 4 pkg, val := x.2.2 }

/-- The state after an exception with operand values a, b and d (R65-R67). -/
def Claims.excepted (s : State) (n lane : Nat) (it : Item) (ip opcode cls cause : Nat) (a b d : PWord) (t : State) : Prop :=
  let h := Claims.handler s it
  (Claims.noHandler s it ip → t = (s.freeze it.graph.toNat).graphRec 2 it.graph.toNat
      (tagDetail it.cid.toNat ip it.colour.toNat)) ∧
  (¬ Claims.noHandler s it ip → t = [(h, 0, PWord.clean (BitVec.ofNat 36
          (ip % 2 ^ 20 + opcode % 512 * 2 ^ 20 + cls % 8 * 2 ^ 29 + cause % 16 * 2 ^ 32))),
        (h, 1, a), (h + 1, 0, b), (h + 1, 1, d)].foldl (fun u (x : Nat × Nat × PWord) =>
      u.sendToken n it.graph.toNat (Claims.excToken u.ownPkg lane it x)) s)

/-- The value at a port of an item, zero where no token stands (R65). -/
def Claims.tokenAt (it : Item) (p : Nat) : PWord := if bitOf it.pmask.toNat p then it.val p else PWord.zero

/-- A frame word of the firing's context as the die reads it. -/
def Claims.gval (s : State) (f : Fire) (k : Nat) : PWord := s.frameRd f.n (s.cdt f.cid + k)

/-- A frame word of the context lies in the Frame Store and its bank serves (R49, R229). -/
def Claims.gServed (s : State) (f : Fire) (k : Nat) : Prop :=
  s.cdt f.cid + k < 8388608 ∧ s.bankState (f.n * 256 + (s.cdt f.cid + k) / 131072) = 0

/-- The frame words that a pointer mode reads, in order (R81). -/
def Claims.slotsOf (sp : Spec) : List Nat :=
  if sp.m = .idx then [bitsOf sp.f 6 6, bitsOf sp.f 0 6] else [bitsOf sp.f 0 4]

/-- The address that a pointer mode computes from its frame words (R81); none where the page of GLB is too large (R82). -/
def Claims.addressOf (s : State) (f : Fire) (sp : Spec) : Option Nat :=
  let g (k : Nat) : Nat := (Claims.gval s f k).v.toNat
  match sp.m with
  | .fri => some ((g (bitsOf sp.f 0 4) + bitsOf sp.f 4 8) % 2 ^ 36)
  | .idx => some ((g (bitsOf sp.f 6 6) + g (bitsOf sp.f 0 6)) % 2 ^ 36)
  | .glb => if g (bitsOf sp.f 0 4) < 2 ^ 14 then some (0x810000000 + g (bitsOf sp.f 0 4) * 256 + bitsOf sp.f 4 8) else none
  | .pin => some (g (bitsOf sp.f 0 4))
  | _ => none

/-- The write-back that a PIN operand notes (R83). -/
def Claims.writeBack (s : State) (f : Fire) (sp : Spec) : List (Nat × Word) :=
  if sp.m = .pin then
    [(bitsOf sp.f 0 4, BitVec.ofNat 36 (Claims.gval s f (bitsOf sp.f 0 4)).v.toNat + sextWord 8 (bitsOf sp.f 4 8))]
  else []

/-- A run of a reader from a state of step 1. -/
def Claims.reads {α : Type} (m : Rd α) (r : Rs) : Except Stop α × Rs := m.run.run r

/-- The four pointer modes outside a repeated pair. -/
def Claims.pointerMode (f : Fire) (sp : Spec) : Prop :=
  sp.m = .fri ∨ sp.m = .idx ∨ sp.m = .glb ∨ (sp.m = .pin ∧ f.rep = none)

/-- A set whose ways all have good parity (R175). -/
def Claims.cleanSet (s : State) (n set : Nat) : Prop :=
  ∀ w ∈ (s.mset n set).ways, w.valid = true → w.badCid = false ∧ w.badTag = false ∧ w.badVal = false

/-- The slice can decide a token now: nothing earlier on its set, both banks serve, good parity, no chain (R165, R174). -/
def Claims.sliceReady (s : State) (n : Nat) (t : Token) : Prop :=
  (s.die n).walks.all (fun w => w.set != s.setOf n t) = true ∧ (s.die n).waitq.all (fun u => s.setOf n u != s.setOf n t) = true ∧
  s.bankState (msBank n (s.setOf n t)) = 0 ∧ s.bankState (isBank n t.ip.toNat) = 0 ∧ Claims.cleanSet s n (s.setOf n t) ∧
  (s.mset n (s.setOf n t)).ovf = false

/-- What the slice sees of the instruction at an IP through its decode cache (R163), and the state after it: the entry on a
hit; else the instruction, which fills the entry unless it enables at once. -/
def Claims.looked (s : State) (n ip : Nat) (s1 : State) (v : View) : Prop :=
  (tfind (s.die n).dcache (ip % 4096) = some (ip, v) ∧ s1 = s) ∨
  ((∀ p, tfind (s.die n).dcache (ip % 4096) = some p → p.1 ≠ ip) ∧ v = s.sliceView n ip ∧
    s1 = if v.now = true then s else s.updDie n (fun d => { d with dcache := tins d.dcache (ip % 4096) (ip, v) }))

/-- The token has left the input of the slice. -/
def Claims.tokenTaken (s : State) (n : Nat) (rest : List Token) : State := s.updDie n (fun d => { d with arr := rest })

/-- An item joins the inputs of the dispatch unit. -/
def Claims.enabled (s : State) (n : Nat) (t : Token) (kind mask : Nat) (a b c : PWord) (ovf : Bool) : State :=
  s.updDie n (fun d => { d with disp := d.disp ++ [{ released := false, item :=
    { cid := t.cid, colour := t.colour, ip := t.ip, cls := 0, pmask := BitVec.ofNat 3 mask, kind := BitVec.ofNat 2 kind,
      ovf := ovf, remote := false, v0 := a, v1 := b, v2 := c, n := 0, nxt := 0, graph := 0, bad := 0 } }] })

/-- The value that an arrival alone gives a port. -/
def Claims.alone (t : Token) (p : Nat) : PWord := if p = t.port.toNat then t.val else PWord.zero

/-- The entries of the token's instance in its set. -/
def Claims.partners (s : State) (n : Nat) (t : Token) : List Ent := (s.mset n (s.setOf n t)).entsOf t

/-- The TOKEN row of the own PEs, with a token at the front. -/
def Claims.localRow (n : Fin 6) (s : State) (E : State) : Prop := exec (.token (.localPe n)) s = .next E.finish

/-- The records of a chain part from a record index on (R168): unpoisoned words, each record the next one's link, up to an
index. -/
def Claims.chainPart (s : State) (n : Nat) : List (Nat × MsEntry) → Nat → Nat → Prop
  | [], r, e => r = e
  | (i, x) :: l, r, e =>
    r = i ∧ r ≠ 0 ∧ (∀ k ∈ [0, 1, 3, 4], (lget PWord.zero (s.rds (s.recAddr n r) 5) k).p = false) ∧
    x = recEntry (s.rds (s.recAddr n r) 5) ∧
    Claims.chainPart s n l (fieldOf (lget PWord.zero (s.rds (s.recAddr n r) 5) 4).v 0 26) e

/-- The entries of a walk's instance in the ways and in the records of its chain that it reads (R169). -/
def Claims.walkEnts (s : State) (n : Nat) (w : Walk) (l : List (Nat × MsEntry)) : List Ent :=
  (s.mset n w.set).entsOf w.tok ++
    (l.filter (fun p => p.2.isOf w.tok)).map (fun p => ({ inSet := false, idx := p.1, e := p.2 } : Ent))

/-- The first records of a chain do not decide a walk's outcome (R169). -/
def Claims.undecided (s : State) (n : Nat) (w : Walk) (v : View) (l : List (Nat × MsEntry)) : Prop :=
  (decideOp v w.tok w.acc (Claims.walkEnts s n w l)).setDecides = false

/-- The records that a walk reads: those up to the one that decides, or all (R169). -/
def Claims.walkReads (s : State) (n : Nat) (w : Walk) (v : View) (l : List (Nat × MsEntry)) : Prop :=
  ((s.mset n w.set).ovf = false ∧ l = []) ∨
  ((s.mset n w.set).ovf = true ∧ (s.rd (s.regionBase n + w.set)).p = false ∧ l.length ≤ (s.die n).chainUsed ∧
    (∀ k < l.length, Claims.undecided s n w v (l.take k)) ∧
    ∃ e, Claims.chainPart s n l (fieldOf (s.rd (s.regionBase n + w.set)).v 0 26) e ∧ (e = 0 ∨ ¬ Claims.undecided s n w v l))

/-- The outcome of a walk (R169). -/
def Claims.walkOutcome (s : State) (n : Nat) (w : Walk) (v : View) (l : List (Nat × MsEntry)) : Option State :=
  s.applyOutcome n w.set w.tok (Claims.walkEnts s n w l) (decideOp v w.tok w.acc (Claims.walkEnts s n w l))

/-- A walk's slot is free, and the operations that wait are tried again, in order (R165). -/
def Claims.slotFreed (s : State) (n : Nat) (w : Walk) : State :=
  let s1 := s.updDie n (fun d => { d with walks := d.walks.filter (fun x => x.slot != w.slot) })
  ((s1.die n).waitq).foldl (fun u t => u.arrive n t) (s1.updDie n (fun d => { d with waitq := [] }))

/-- The item that dispatch makes of an input (R181, R190). -/
def Claims.dispatched (s : State) (n : Nat) (it : Item) (h : Hdr) : Item :=
  { it with cls := BitVec.ofNat 3 h.cls, graph := BitVec.ofNat 8 h.graph, remote := s.remoteItem n it }

/-- The PE on which dispatch places an item whose affinity PE is `a` (R184). -/
def Claims.placement (s : State) (n a : Nat) (released : Bool) : Nat :=
  if released then a
  else if s.onchip (peKey n (s.shallowest n a)) + s.fld (lmOff n 0x500) 0 13 < s.onchip (peKey n a) then s.shallowest n a
  else a

/-- The header of a context can be read now: none is listed, or its bank serves (R229). -/
def Claims.hdrServed (s : State) (c : Nat) : Prop :=
  s.cdt c = 0 ∨ s.bankState (s.homeOf c * 256 + (s.cdt c - 1) / 131072) = 0

/-- The dispatch unit with these inputs. -/
def Claims.inputs (s : State) (n : Nat) (xs : List DispIn) : State := s.updDie n (fun d => { d with disp := xs })

/-- The push of an input of an Active context is refused (R182, R184). -/
def Claims.refused (s : State) (n : Nat) (y : DispIn) : Prop :=
  Claims.hdrServed s y.item.cid.toNat ∧ (s.hdr y.item.cid.toNat).st = 1 ∧
  s.lanePush (peKey n (Claims.placement s n (s.affinityPe n (s.hdr y.item.cid.toNat).aff) y.released))
    (s.hdr y.item.cid.toNat).cls (Claims.dispatched s n y.item (s.hdr y.item.cid.toNat)) = none

/-- Inputs that are refused in turn, before the others. -/
def Claims.held (s : State) (n : Nat) (kept rest : List DispIn) : Prop :=
  ∀ b y a, kept = b ++ y :: a → Claims.refused (Claims.inputs s n (b ++ (a ++ rest))) n y

/-- The read value of a latch access (R243): result, abandoned, holder's requester ID and CID. -/
def Claims.latchWord (result : Nat) (abandoned : Bool) (req cid : Nat) : BitVec 32 :=
  BitVec.ofNat 32 (result + (if abandoned then 4 else 0) + req * 8 + cid * 256)

/-- A latch taken by a holder (R244). -/
def Claims.heldBy (req cid graph : Nat) : Latch :=
  { Latch.free with held := true, req := req, cid := BitVec.ofNat 24 cid, graph := BitVec.ofNat 8 graph }

/-- A latch access without the right (R246). -/
def Claims.refusedAccess (s : State) (k req : Nat) : State :=
  (s.bump (ltbOff 0x10C) 20 12 1).event 0 6 (ltbOff 0x10C) 20 k req

/-- The state and read value of an acquire (R244, R246): with the right, of a free latch or a latch that a host holds or
waits for; without the right. -/
def Claims.acquires (s : State) (k req cid graph cls : Nat) (t : State) (v : BitVec 32) : Prop :=
  (s.flag (ltbOff (4 * (k / 64))) req = false ∧ t = Claims.refusedAccess s k req ∧ v = 0) ∨
  (s.flag (ltbOff (4 * (k / 64))) req = true ∧ (s.latch k).parOk = true ∧ (s.latch k).held = false ∧
    t = s.setLatch k (Claims.heldBy req cid graph) ∧ v = Claims.latchWord 1 (s.latch k).abandoned req cid) ∨
  (s.flag (ltbOff (4 * (k / 64))) req = true ∧ (s.latch k).parOk = true ∧ (s.latch k).held = true ∧ req < 0x11 ∧
    t = s ∧ v = Claims.latchWord 2 false (s.latch k).req (s.latch k).cid.toNat) ∨
  (s.flag (ltbOff (4 * (k / 64))) req = true ∧ (s.latch k).parOk = true ∧ (s.latch k).held = true ∧ 0x11 ≤ req ∧ req ≤ 0x16 ∧
    t = (s.setLatch k { s.latch k with
          waiter := true,
          wcls := BitVec.ofNat 3 (if (s.latch k).waiter then max (s.latch k).wcls.toNat cls else cls) }).liftHolder k ∧
    v = Claims.latchWord 2 false (s.latch k).req (s.latch k).cid.toNat)

/-- The state and result of a release (R245, R246). -/
def Claims.releases (s : State) (k req : Nat) (t : State) (v : BitVec 32) : Prop :=
  (s.flag (ltbOff (4 * (k / 64))) req = false ∧ t = Claims.refusedAccess s k req ∧ v = 0) ∨
  (s.flag (ltbOff (4 * (k / 64))) req = true ∧ (s.latch k).parOk = true ∧ (s.latch k).held = true ∧
    t = (s.unlift k (s.latch k)).setLatch k Latch.free ∧ v = 1) ∨
  (s.flag (ltbOff (4 * (k / 64))) req = true ∧ (s.latch k).parOk = true ∧ (s.latch k).held = false ∧ t = s ∧ v = 2)

/-- The oldest waiting request of a group that satisfies a test, with the others before and after it. -/
def Claims.oldest (s : State) (p : UnitReq → Bool) (u : UnitReq) (rest : List UnitReq) : Prop :=
  ∃ before after, s.units = before ++ u :: after ∧ rest = before ++ after ∧ p u = true ∧ before.all (fun x => !p x) = true

/-- An acquire or a release of a group. -/
def Claims.acquireOf (g : Nat) : UnitReq → Bool
  | .acquire _ _ k _ _ _ => k / 64 == g
  | _ => false
def Claims.releaseOf (g : Nat) : UnitReq → Bool
  | .release _ _ k => k / 64 == g
  | _ => false

/-- The address of a latch in the window of a function (R249). -/
def Claims.latchAddr (fn latch : Nat) : Nat := (if fn = 0 then 0x240000 else 0x10000) + 4 * latch

/-- A bank that has reached a state (R227, R228). -/
def Claims.arrivedBank (s : State) (b st : Nat) : State :=
  let s1 := if (s.bank b).state = 0 ∧ st ≠ 0 then s.drainBank b else s
  let s2 := if st = 2 then s1.loseBank b else s1
  s2.setBank b { s2.bank b with state := st, target := none }

/-- The held writes of a die that land, when some banks keep an earlier one: not one to a word that a PE's buffered write names,
nor one behind such a write in its bank (R233, R234). -/
def Claims.landing (n : Nat) (buf : List WBuf) : List Nat → List HeldWr → List HeldWr
  | _, [] => []
  | keep, h :: hs =>
    if (∃ b ∈ buf, b.addr = h.addr) ∨ frameBank n h.addr ∈ keep then Claims.landing n buf (frameBank n h.addr :: keep) hs
    else h :: Claims.landing n buf keep hs

/-- The held writes that stay. -/
def Claims.staying (n : Nat) (buf : List WBuf) : List Nat → List HeldWr → List HeldWr
  | _, [] => []
  | keep, h :: hs =>
    if (∃ b ∈ buf, b.addr = h.addr) ∨ frameBank n h.addr ∈ keep then h :: Claims.staying n buf (frameBank n h.addr :: keep) hs
    else Claims.staying n buf keep hs

/-- A reservation, and a release of one. -/
def Claims.isReserve : UnitReq → Bool
  | .reserve _ _ _ => true
  | _ => false
def Claims.isUnreserve : UnitReq → Bool
  | .unreserve _ => true
  | _ => false

/-- The bound of a graph admits one more context (R205). -/
def Claims.admits (s : State) (g : Nat) : Bool :=
  s.fld (tmpOff (0x400 + 4 * g)) 0 25 == 0 || decide ((s.graph g).active < s.fld (tmpOff (0x400 + 4 * g)) 0 25)

/-- The row that receives a numbered flit of a type. -/
def Claims.flitRow (ty : Nat) (d : Fin 24) (err : BitVec 128) (s : State) : Host.Outcome State Fault Refusal :=
  if ty = ftToken then exec (.token (.link d err)) s
  else if ty = ftRdReq then exec (.memRdReq d err) s
  else if ty = ftWr then exec (.memWr d err) s
  else if ty = ftRdRsp then exec (.memRdRsp d err) s
  else exec (.pourWord d err) s

/-- The five numbered types (R18, R20). -/
def Claims.numberedType (ty : Nat) : Prop := ty = ftToken ∨ ty = ftRdReq ∨ ty = ftWr ∨ ty = ftRdRsp ∨ ty = ftPour

/-- No received token waits for its path when a token's row begins (R29). -/
def Claims.nothingWaits (ty : Nat) (s : State) : Prop := ty = ftToken → s.anyWait = false

/-- After a token's row the tokens that wait at a receiver are tried again (R29). -/
def Claims.flowed (ty : Nat) (s : State) : State := if ty = ftToken then s.twkFlow else s

/-- The receiver of a direction takes the next flit: it does not discard, or the replay begins (R20). -/
def Claims.listens (s : State) (d : Nat) : Prop := (s.dir d).discarding = false ∨ (s.dir d).skip = some 0

/-- The flit at the front of a direction that is up. -/
def Claims.atFront (s : State) (d : Nat) (num : Option (BitVec 9)) (f : BitVec 128) (rest : List (Option (BitVec 9) × BitVec 128)) : Prop :=
  (s.dir d).wire = (num, f) :: rest ∧ s.dirUp d = true

/-- The flit at the front of a direction whose receiver takes it. -/
def Claims.front (s : State) (d : Nat) (num : Option (BitVec 9)) (f : BitVec 128) (rest : List (Option (BitVec 9) × BitVec 128)) : Prop :=
  Claims.atFront s d num f rest ∧ Claims.listens s d

/-- A flit has been discarded by a receiver that waits for the replay (R20). -/
def Claims.skipped (s : State) (d : Nat) (rest : List (Option (BitVec 9) × BitVec 128)) : LinkDir :=
  { s.dir d with wire := rest, skip := (s.dir d).skip.map (· - 1) }

/-- The expected numbered flit has been taken (R20). -/
def Claims.expected (s : State) (d : Nat) (rest : List (Option (BitVec 9) × BitVec 128)) : State :=
  s.setDir d { s.dir d with wire := rest, expect := (s.dir d).expect + 1, discarding := false, skip := none,
                            sinceAck := (s.dir d).sinceAck + 1 }

/-- A flit has been taken from the wire by a receiver that takes it. -/
def Claims.unwired (s : State) (d : Nat) (rest : List (Option (BitVec 9) × BitVec 128)) : State :=
  s.setDir d { s.dir d with wire := rest, discarding := false, skip := none }

/-- The actions of a bad CRC (R20, R43): counted, and a NAK with the expected number goes back. -/
def Claims.nakked (s : State) (d : Nat) (x : LinkDir) : State :=
  (((s.setDir d { x with discarding := true }).bump (lnkOff (d / 2) 8) 0 16 1).bump (lnkOff (d / 2) 8) 16 8 1).sendBack d
    (ctrlFlit (dirFrom d) 1 (s.dir d).expect.toNat)

/-- The other direction of a link. -/
def Claims.reverse (d : Nat) : Nat := if d % 2 = 0 then d + 1 else d - 1

/-- A buffer of a pool is free: the cumulative count rises and goes back in a CREDIT flit (R21). -/
def Claims.creditBack (s : State) (d pool : Nat) : State :=
  let t := s.setDir d { s.dir d with freed := lset (s.dir d).freed pool (lget 0 (s.dir d).freed pool + 1) }
  t.setDir (Claims.reverse d) ((t.dir (Claims.reverse d)).send
    (creditFlit (dirFrom d) pool (lget 0 (s.dir d).freed pool + 1).toNat))

/-- The effect of a good flit of each numbered type whose DEST is this end, before its buffer is given back. -/
def Claims.arrives (s : State) (d : Nat) (f : BitVec 128) (t : State) : Prop :=
  (flitType f = ftWr ∧ ∃ x, s.kindOf (flitAddr f) = .ddr x ∧ t = s.wr (flitAddr f) (flitData f)) ∨
  (flitType f = ftWr ∧ ∃ n off, s.kindOf (flitAddr f) = .frame n off ∧ s.bankState (n * 256 + off / 131072) = 0 ∧
    t = s.wr (flitAddr f) (flitData f)) ∨
  (flitType f = ftWr ∧ ∃ off, s.kindOf (flitAddr f) = .scratch off ∧ s.bankState (0x600 + off / 131072) = 0 ∧
    t = s.wr (flitAddr f) (flitData f)) ∨
  (flitType f = ftRdReq ∧ ∃ x, s.kindOf (flitAddr f) = .ddr x ∧ t = s.sendFlit (dirTo d) (memFlit ftRdRsp (flitSrc f)
    (dirTo d) (flitAddr f) (flitTxn f).toNat (s.rd (flitAddr f)) false)) ∨
  (flitType f = ftRdReq ∧ ∃ n off, s.kindOf (flitAddr f) = .frame n off ∧ s.bankState (n * 256 + off / 131072) = 0 ∧
    (s.die n).held.all (fun h => frameBank n h.addr != n * 256 + off / 131072) = true ∧
    t = s.sendFlit (dirTo d) (memFlit ftRdRsp (flitSrc f) (dirTo d) (flitAddr f) (flitTxn f).toNat (s.frameRd n off) false)) ∨
  (flitType f = ftRdRsp ∧ t = s.wake (dirTo d) (fun w => w == .mem (flitTxn f))
    (some (if flitErr f then .err else .word (flitData f)))) ∨
  (flitType f = ftPour ∧ t = s.pourIn f)

/-- A token at the end of a direction, with no token of its class waiting there (R29): it goes to its slice, the hub's
direction to its home die, or the next link; what Bedrock sends over Twikel waits behind the tokens of R31. -/
def Claims.tokenArrives (s : State) (d : Nat) (f : BitVec 128) (t : State) : Prop :=
  (s.dir d).stuck.any (fun u => u.cls == (flitToken f).cls) = false ∧
  ((dirTo d < 6 ∧ flitDest f = dirTo d ∧ t = s.arrive (dirTo d) (flitToken f)) ∨
  (dirTo d = 6 ∧ flitDest f < 6 ∧ (s.die (flitDest f)).up = true ∧
    t = s.linkToken (hubDown (flitDest f)) (flitToken f)) ∨
  (dirTo d = 6 ∧ flitDest f = 6 ∧ s.linkWaits s.ownPkg (flitToken f) = false ∧ s.bedrockToken (flitToken f) = some t) ∨
  (dirTo d < 6 ∧ flitDest f < 6 ∧ flitDest f ≠ dirTo d ∧ (s.die (flitDest f)).up = true ∧
    t = s.linkToken (s.nextHop (dirTo d) (flitDest f)) (flitToken f)))

/-- A port that takes training blocks on a lane (R278). -/
def Claims.trains (s : State) (p lane : Nat) : Prop :=
  (s.port p).state = .training ∧ (s.port p).fl.failedAt = none ∧ s.pfpPowered p = true ∧ lane < 4 * s.pfpBond p

/-- A valid sync header (R276). -/
def Claims.validSync (sync : BitVec 2) : Prop := sync = 1 ∨ sync = 2

/-- A lane of a link has block lock, and a block with a valid header comes within the skew limit (R278). -/
def Claims.readsBlock (fl : FrameLink) (lane : Nat) (sync : BitVec 2) (skew : Nat) : Prop :=
  64 ≤ lget 0 fl.sync lane ∧ Claims.validSync sync ∧ skew ≤ 16

/-- The logical lane that a training block names (R277). -/
def Claims.laneOf (blk : Nat) : Nat := 4 * bitsOf blk 10 2 + bitsOf blk 8 2

/-- The zero fields of the far end's training block (R277). -/
def Claims.tsZero (blk : Nat) (ts2 : Bool) : Prop :=
  bitsOf blk 12 4 = 0 ∧ bitsOf blk 48 8 = 0 ∧ (ts2 = true ∨ bitsOf blk 32 16 = 0)

/-- The link of a port with a lane placed; a header 01 of a training block tells that the lane is inverted. -/
def Claims.placed (s : State) (p lane blk : Nat) (sync : BitVec 2) : FrameLink :=
  (s.port p).fl.placeLane (4 * s.pfpBond p) lane (Claims.laneOf blk) (sync == 1)

/-- A port with its frame link. -/
def Claims.withLink (s : State) (p : Nat) (fl : FrameLink) : State := s.setPort p { s.port p with fl := fl }

/-- The ack of a good frame is taken: frames up to it leave the replay buffer (R285, R287). -/
def Claims.ackTaken (s : State) (p f : Nat) : State := Claims.withLink s p ((s.port p).fl.takeAck f)

/-- A numbered frame taken in order. -/
def Claims.inOrder (s : State) (p f : Nat) : State :=
  Claims.withLink (Claims.ackTaken s p f) p (((Claims.ackTaken s p f).port p).fl.accept s.now64)

/-- A good frame without a breach at an active port. -/
def Claims.goodFrame (s : State) (p f : Nat) : Prop := (s.port p).active = true ∧ frameOk 32 f = true ∧ pfpBad f = false

/-- A frame joins those that wait for a slot (R298). -/
def Claims.offered (fl : FrameLink) (rank ready body : Nat) : FrameLink :=
  { fl with tx := fl.tx ++ [{ rank := rank, ready := ready, body := body, num := none }] }

/-- The training blocks that a port sends: type, logical lane and port, bonding, version and grant (R277). -/
def Claims.trainOut (s : State) (p : Nat) (ts2 : Bool) : Out :=
  .pfpTrain p ((List.range (4 * s.pfpBond p)).map (fun l => lineBlock true (trainBytes
    [if ts2 then 0xB6 else 0xB5, l + 16 * p, s.pfpBond p, 1, (if ts2 then (s.port p).fl.grant else 0) % 256,
     (if ts2 then (s.port p).fl.grant else 0) / 256, 0])))

/-- Training begins on the lanes of a port that has power (R278). -/
def Claims.trainBegun (s : State) (p : Nat) : State :=
  let t := s.updPort p (fun x => { x with state := .training, fl := FrameLink.begin s.clk.edges })
  if t.pfpPowered p = true then t.emit (Claims.trainOut t p false) else t

/-- A port at an examination cycle that makes no boundary, running or, with S0 still to come, armed: its tick's burst is
reserved, no end is due and no boundary tick waits. -/
def Claims.ticks (s : State) (p e r : Nat) : Prop :=
  s.nextExam p = some e ∧ (∀ q < 16, (s.goUntil e).trips q e = false) ∧
  (∃ t, ((s.goUntil e).port p).run.s0 = some t ∧ r = (s.goUntil e).release p t ∧
    (((s.goUntil e).port p).state = .running ∨ ((s.goUntil e).port p).state = .armed ∧ 64 * e < t)) ∧
  ((s.goUntil e).port p).run.ending = none ∧ 0 < ((s.goUntil e).port p).run.burstLeft ∧
  ((s.goUntil e).port p).run.boundary = none

/-- The words of the slot that is examined. -/
def Claims.examined (s : State) (p e : Nat) : List PWord := (s.goUntil e).slotWords p ((s.goUntil e).port p).run.next

/-- A run that ends at an examination has its S0, which may still come (R301). -/
def Claims.begunRun (s : State) (p : Nat) : State := if (s.port p).state = .armed then s.runStart p else s

/-- S0 is fixed: CONTROL START waits for slot S0 - 1 (R284, R297). -/
def Claims.startFixed (s : State) (p t : Nat) : State :=
  (s.updPort p (fun x => { x with run := { x.run with s0 := some t } })).pfpQueue p rankTick (t - s.slotLen p)
    (controlBody 1 0 (s.port p).run.base 0 (s.pfpPeriod p + s.fld (pfpOff p 0x08) 16 16 * 2 ^ 16))

/-- The port is armed with presence cleared. -/
def Claims.armed (s : State) (p : Nat) : State :=
  s.setPort p { s.port p with state := .armed, present := [], run := { (s.port p).run with clearing := false } }

/-- The answer to a POUR_ARM in mode 0 that waits, if there is one. -/
def Claims.armAnswer (s : State) (p status w : Nat) : State :=
  match s.pourCmd p (fun m => m == 0) with
  | some c => s.reply c status w 0 0
  | none => s

/-- A Twikel link that takes training blocks (R26). -/
def Claims.twkTrains (s : State) (n : Nat) : Prop :=
  (s.twk n).training = true ∧ (s.twk n).fl.failedAt = none ∧ s.twkPowered n = true ∧ s.twkUse n = true

/-- The link with the lane that a block names placed. -/
def Claims.twkPlaced (s : State) (n lane blk : Nat) (sync : BitVec 2) : FrameLink :=
  (s.twk n).fl.placeLane 8 lane (bitsOf blk 8 3) (sync == 1)

/-- The zero fields of a Twikel training block (R26). -/
def Claims.twkZero (blk : Nat) (ts2 : Bool) : Prop :=
  bitsOf blk 11 5 = 0 ∧ bitsOf blk 52 4 = 0 ∧ (ts2 = true ∨ bitsOf blk 32 16 = 0)

/-- A Twikel link with its frame link. -/
def Claims.twkLink (s : State) (n : Nat) (fl : FrameLink) : State := s.setTwk n { s.twk n with fl := fl }

/-- The training blocks that this package sends: type, lane, width, version, the credits that TS2 grants, and its number
(R26). -/
def Claims.twkOut (s : State) (n : Nat) (ts2 : Bool) : Out :=
  .twkTrain n ((List.range 8).map (fun l => lineBlock true (trainBytes [if ts2 then 0xC6 else 0xC5, l, 8, 1,
    (if ts2 then s.fld (twkOff n 0) 1 11 else 0) % 256, (if ts2 then s.fld (twkOff n 0) 1 11 else 0) / 256, s.ownPkg])))

/-- A link trains, and its lanes send TS1 while they have power (R26). -/
def Claims.twkBegun (s : State) (n : Nat) : State :=
  let t := s.setTwk n { s.twk n with up := false, training := true, fl := FrameLink.begin s.clk.edges }
  if t.twkPowered n = true then t.emit (Claims.twkOut t n false) else t

/-- Two instants lie within 1 µs of each other. -/
def Claims.within1us (a b : BitVec 64) : Bool := decide (a.toNat ≤ b.toNat + 1000) && decide (b.toNat ≤ a.toNat + 1000)

/-- The payload of the CREDIT frame that returns every class's pending credits (R27, R29). -/
def Claims.creditPayload (x : Twk) : Nat :=
  x.owed.zipIdx.foldl (fun a p => a + (p.1 % 65536) * 2 ^ (32 + 16 * p.2)) 2

/-- The link after it went down (R28). -/
def Claims.twkDropped (x : Twk) : Twk :=
  { x with up := false, training := false, fl := FrameLink.reset, credits := List.replicate 8 0,
           txBuf := List.replicate 8 [], owed := List.replicate 8 0, verValid := false, compat := false, checks := [] }

/-- The ack of a good frame is taken, and receive paths that wait are tried again (R28, R29). -/
def Claims.twkAcked (s : State) (n f : Nat) : State :=
  (Claims.twkLink s n ((s.twk n).fl.takeAck f)).twkFlow

/-- A numbered frame taken in order. -/
def Claims.twkInOrder (s : State) (n f : Nat) : State :=
  Claims.twkLink (Claims.twkAcked s n f) n (((Claims.twkAcked s n f).twk n).fl.accept s.now64)

/-- A good frame at an up link. -/
def Claims.twkGood (s : State) (n f : Nat) : Prop :=
  (s.twk n).up = true ∧ frameOk 64 f = true ∧ twkBad f = false

/-- The receive buffers with the tokens of a TOKENS frame, each in its class (R29). -/
def Claims.twkBuffered (x : Twk) (f : Nat) : List (List (Token × Nat)) :=
  (List.range (frameBits f 4 0 2)).foldl (fun b k =>
    lset b (slotToken f k).1.cls.toNat (lget [] b (slotToken f k).1.cls.toNat ++ [slotToken f k])) x.rxBuf

/-- The credits with the counts of a CREDIT frame. -/
def Claims.twkCredits (x : Twk) (f : Nat) : List Nat :=
  (List.range 8).map (fun c => lget 0 x.credits c + frameBits f (4 + 2 * c) 0 16)

/-- A link with the version and floor that a VERSION frame gives. -/
def Claims.twkPeer (x : Twk) (f : Nat) : Twk :=
  { x with peerVer := BitVec.ofNat 24 (frameBits f 8 0 24), peerFloor := BitVec.ofNat 24 (frameBits f 12 0 24),
           verValid := true }

/-- Whether a VERSION frame gives compat: the hardware type, another package number, and both windows (R32, R423). -/
def Claims.twkCompat (s : State) (x : Twk) (f : Nat) : Bool :=
  frameBits f 4 0 32 == 0x5A880001 && frameBits f 16 0 4 != s.ownPkg &&
    (Claims.twkPeer x f).within s.activeSlot.ver s.activeSlot.floor

/-- A link with the epoch that an EPOCH frame gives, and the check due 2 µs later (R32). -/
def Claims.twkEpoch (x : Twk) (f now : Nat) : Twk :=
  { x with peerEpoch := BitVec.ofNat 48 (frameBits f 4 0 48), peerValid := true,
           checks := x.checks ++ [(now + 2000, BitVec.ofNat 64 (frameBits f 12 0 64), BitVec.ofNat 48 (frameBits f 4 0 48))] }

/-- A queue with its producer's next word, not dropping (R196, R200). -/
def Claims.pushing (s : State) (q : Nat) (w : SWord) (rest : List SWord) : Prop :=
  (s.queue q).inbox = w :: rest ∧ (s.queue q).drop = .none

/-- A word with the even parity of its two halves (R191). -/
def Claims.sealed (w : SWord) : SWord :=
  { w with par := BitVec.ofNat 2 (b2n (parityOf 18 w.w.v.toNat) + 2 * b2n (parityOf 18 (w.w.v.toNat / 2 ^ 18))) }

/-- A word as the consumer sees it: poisoned when its parity bits no longer agree with it (R194). -/
def Claims.delivered (w : SWord) : SWord :=
  if w.par = (Claims.sealed w).par then w else { w with w := { w.w with p := true }, mark := .lost }

/-- A queue with a word committed at its tail (R196). -/
def Claims.committed (x : Silt) (w : SWord) (rest : List SWord) : Silt :=
  { x with inbox := rest, tail := x.tail ++ [Claims.sealed w], flushedFirst := false,
           status := if x.flushedFirst then .acceptFlushed else .accept,
           openWords := if w.eop then 0 else x.openWords + 1, taken := if w.eop then 0 else x.taken }

/-- A queue with a word popped from its head (R192); `open` says that only the open packet is stored. -/
def Claims.popped (x : Silt) (w : SWord) (rest : List SWord) (opened : Bool) : Silt :=
  { x with head := rest, last := Claims.delivered w, taken := if opened then x.taken + 1 else x.taken }

/-- The words that end the producer's packet leave it: up to and including its EOP. -/
def Claims.afterPacket (ws : List SWord) : List SWord := (ws.dropWhile (fun v => !v.eop)).drop 1

/-- The abort word (R197). -/
def Claims.abortWord : SWord := { w := { v := 0, p := true }, eop := true, mark := .abort }

/-- A timer that a queue's Drip action follows, and the state at its end with the action taken once (R202). -/
def Claims.dripping (s : State) (q due : Nat) : Prop :=
  (s.queue q).drip = some due ∧ (s.queue q).diag = false ∧ (s.queue q).dripTaken = false
def Claims.dripped (s : State) (q due : Nat) : State :=
  (s.passEdges due).setQueue q { (s.passEdges due).queue q with dripTaken := true }

/-- The stored words of a queue, oldest first (R192). -/
def Claims.words (x : Silt) : List SWord := x.head ++ x.mid ++ x.tail

/-- The level that figures hold, each with the watermark register of its own (R207). -/
def Claims.levelOf (s : State) (cur base : Nat) (figs : List (Nat × Bool)) : Nat :=
  newLevel s.hyst cur (figs.zipIdx.map (fun p => (p.1, s.reg (tmpOff (base + 4 * p.2)))))

/-- The package with its new level (R208): at least 3 while an unfenced die is at level 4. -/
def Claims.leveled (t : State) : State :=
  { t with pkgLevel := if t.unfenced.any (fun n => (t.die n).level == 4)
             then max (Claims.levelOf t t.pkgLevel 0x10 t.pkgFigures) 3
             else Claims.levelOf t t.pkgLevel 0x10 t.pkgFigures }

/-- A PE with every class's credits refilled under the die's level (R211). -/
def Claims.refilled (s : State) (l : Nat) (x : Pe) : Pe :=
  { x with cr := creditMap (fun c v => creditRefill (s.budget l c) v) x.cr }

/-- A 32-bit host access of BAR0 that is not poisoned (R7, R341). -/
def Claims.plainWr (be : BitVec 4) : WriteForm := { be := be, space := .bar0, more := [], ep := false }
def Claims.plainRd (be : BitVec 4) : ReadForm := { be := be, space := .bar0, more := [] }

/-- An offset of a function's BAR0 holds a register that answers and that the function may write (R448-R452). -/
def Claims.reaches (s : State) (fn off : Nat) (l : Loc) : Prop :=
  busTarget fn off = .reg l ∧ s.answers (.reg l) = true ∧ s.closed fn l = false

/-- A value that the register's table or the present state refuses (R10). -/
def Claims.refuses (s : State) (l : Loc) (v : Nat) : Prop :=
  Nat.land v l.row.refused ≠ 0 ∨ staticBad l v = true ∨ s.dynBad l v 0xFFFFFFFF = true

/-- The Locked fields of a write that are discarded (R12). -/
def Claims.discards (s : State) (l : Loc) (v : Nat) : List Field := l.row.fields.filter (s.lockedOut l v)

/-- The fields of a register take their parts of a write, each judged in the state before the write (R12). -/
def Claims.stored (s : State) (l : Loc) (v : Nat) : State := l.row.fields.foldl (State.putField s l v) s

/-- A write of a function that is accepted whole. -/
def Claims.accepts (s : State) (fn off v : Nat) (l : Loc) : Prop :=
  Claims.reaches s fn off l ∧ ¬ Claims.refuses s l v ∧ Claims.discards s l v = []

/-- A doubleword of an MSI-X table takes a value: doublewords 0 to 2 store it, doubleword 3 masks and unmasks (R340). -/
def Claims.vecSet (s : State) (fn vec dw v : Nat) : State :=
  let k := fn * 2048 + vec
  if dw = 3 ∧ bitOf v 0 = true then { s with msix := { s.msix with unmasked := tput false s.msix.unmasked k false } }
  else if dw = 3 ∧ tget false s.msix.pba k = true then
    { s with msix := { s.msix with unmasked := tput false s.msix.unmasked k true,
                                   pba := tput false s.msix.pba k false } }.emit (.msix fn vec)
  else if dw = 3 then { s with msix := { s.msix with unmasked := tput false s.msix.unmasked k true } }
  else { s with msix := { s.msix with table := tput 0 s.msix.table (k * 4 + dw) (BitVec.ofNat 32 v) } }

/-- The enabled bytes of a write over the bytes that stood there. -/
def Claims.overlaid (be old v : Nat) : Nat := Sys2Proof.Machine.enabled be v + Sys2Proof.Machine.enabled (15 - be) old

/-- A field of the located register `l` that the generic write stores (R9), judged in `s`. -/
def Claims.storesField (s : State) (l : Loc) (v : Nat) (f : Field) : Prop :=
  f ∈ l.row.fields ∧ ownField l.row.id f.lsb = false ∧ s.lockedOut l v f = false

/-- The injection of a bad CRC in both directions of a link (R43). -/
def Claims.injected (t : State) (k : Nat) : State :=
  (t.setDir (2 * k) { t.dir (2 * k) with inject := true }).setDir (2 * k + 1)
    { (t.setDir (2 * k) { t.dir (2 * k) with inject := true }).dir (2 * k + 1) with inject := true }

/-- The selected word queue with its diag bit (R201). -/
def Claims.diagSet (s : State) (d : Bool) : State := s.setQueue s.sqSel { s.queue s.sqSel with diag := d }

/-- A bank whose auto_wake takes a value where the bank has one (R228, R250, R251). -/
def Claims.wakeSet (s : State) (b : Nat) (on : Bool) : State :=
  if bankKind b = some .frame ∨ bankKind b = some .scratch then s.setBank b { s.bank b with autoWake := on } else s

/-- The read of list entry i of a channel goes out: 64 bytes under the owner's ID, with the channel's No Snoop bit (R236,
R259, R260). -/
def Claims.listRead (s : State) (ch i : Nat) : State :=
  s.emit (.hostRead (64 * s.fld (bmvOff ch 0x08) 6 26 + 2 ^ 32 * s.reg (bmvOff ch 0x0C) + 64 * i) 64
    (s.flag (bmvOff ch 0x00) 19) (s.bmvOwner ch))

/-- A register row is the full PF write of its register. -/
def Claims.isWrite (s : State) (i : Instr) (fn : Fin 17) (off v : Nat) : Prop :=
  exec i s = exec (.registerWrite fn (BitVec.ofNat 26 off) (BitVec.ofNat 32 v) (Claims.plainWr 15)) s

/-- The offset at which a function writes a register of a queue pair: the PF in its own map, a VF in its subset (R448,
R451). -/
def Claims.pairOff (fn q o : Nat) : Nat := if fn = 0 then Sys2Proof.Machine.qpOff q o else 0x1000 + 0x40 * (q % 2) + o

/-- The function may name the pair. -/
def Claims.mayName (fn q : Nat) : Prop := fn = 0 ∨ qpFn q = fn

/-- The pair's enable bit with a value, after every other field (R12). -/
def Claims.pairBit (s : State) (l : Loc) (q v b : Nat) : State :=
  (Claims.stored s l v).setFld (Sys2Proof.Machine.qpOff q 0x14) 0 1 b

/-- A pair's completion head moved (R348). -/
def Claims.headMoved (s : State) (q v : Nat) : State := s.setQp q { s.qp q with cqHead := bitsOf v 0 12 }

/-- The vector unmasked. -/
def Claims.unmasked (s : State) (key : Nat) : State :=
  { s with msix := { s.msix with unmasked := tput false s.msix.unmasked key true } }

/-- What the completions of a device read report (R341). -/
def Claims.reported (s : State) (data : HostData) : State :=
  let t := if data.ep = [] then s else s.aer 12
  if data.errAt = none then t else t.aer 15

/-- What a list entry is when its read has completed: a status and no bytes, or 0 and its descriptor (R260, R261). -/
def Claims.entry (s : State) (ch : Nat) (data : HostData) (e : Nat × List Byte) : Prop :=
  let clean := data.ep = [] ∧ data.errAt = none
  (¬ clean ∧ e = (0x16, [])) ∨
  (clean ∧ allZero (slice data.bytes 48 16) = false ∧ e = (0x15, [])) ∨
  (clean ∧ allZero (slice data.bytes 48 16) = true ∧
    ((s.descCheck ch 0 (slice data.bytes 0 48) = none ∧ e = (0, slice data.bytes 0 48)) ∨
     ∃ c x, s.descCheck ch 0 (slice data.bytes 0 48) = some (c, x) ∧ e = (x, [])))

/-- A list entry begins, or waits while its predecessor runs (R260). -/
def Claims.entered (s : State) (ch : Nat) (e : Nat × List Byte) : State :=
  let x := s.chan ch
  let t := s.setChan ch (({ x with ahead := none } : Chan).run e.2)
  if x.running = true then s.setChan ch { x with ahead := some e }
  else if e.1 ≠ 0 then (s.setChan ch { x with ahead := none }).bmvStopAt ch e.1
  else if x.entry + 1 < x.count then Claims.listRead t ch (x.entry + 1) else t

/-- The descriptor that a channel runs. -/
def Claims.running (s : State) (ch : Nat) : Desc := descOf (s.chan ch).desc

/-- The account of a burst's read (R262, R264). -/
def Claims.readBurst (s : State) (d : Desc) (k : Nat) (data : HostData) : Bread :=
  (List.range (min 64 (d.n - 64 * k))).foldl (Bread.step d k data) { s := s, words := [], err := none }

/-- A burst takes its words. -/
def Claims.fills (b : Burst) (ws : List PWord) (c : Burst) : Burst := if c.k = b.k then { c with words := some ws } else c

/-- A descriptor without a completion action (R265). -/
def Claims.silent (d : Desc) : Prop := d.recEn = false ∧ d.latchEn = false ∧ d.tokEn = false ∧ d.msixEn = false

/-- A byte range of BAR2 that reaches a ready device (R40, R344, R397). -/
def Claims.inBar2 (s : State) (off len : Nat) : Prop := s.pcieUp = true ∧ s.ready = true ∧ off + len ≤ bar2Size

/-- Bytes 0-4 of a container as a word (R344). -/
def Claims.laneWord (ls : List (Option Byte)) (ep : Bool) : PWord :=
  { v := BitVec.ofNat 36 (leNat (ls.map (fun b => b.getD 0))), p := ep }

/-- A command answers a next state in which one word reads `w` and every other word reads as before. -/
def Claims.writesOnly (i : Instr) (s : State) (a : Nat) (w : PWord) : Prop :=
  ∃ t, exec i s = .next t ∧ t.rd a = w ∧ (∀ b, b ≠ a → t.rd b = s.rd b) ∧ (Memory.wf s.mem = true → Memory.wf t.mem = true)

/-- A command answers a next state in which every word reads as before. -/
def Claims.writesNothing (i : Instr) (s : State) : Prop := ∃ t, exec i s = .next t ∧ ∀ b, t.rd b = s.rd b

/-- No channel of the Block Mover holds a burst with words to write. -/
def Claims.noBurst (s : State) : Prop := ∀ x ∈ s.chans, x.bursts = []

/-- The Command Engine serves a pair next (R337, R347). -/
def Claims.serves (s : State) (q : Nat) : Prop := s.engineOn = true ∧ s.fetchPick = some q

/-- The command that a packet of a pair makes. -/
def Claims.made (s : State) (q : Nat) (pkt : BitVec 512) : Cmd :=
  { id := s.ce.nextId, qp := q, fn := qpFn q, pkt := pkt, beganAt := s.clk.tb, res := [], mute := false }

/-- The pair is visited, and the read of its commands has gone out where none was under way (R347). -/
def Claims.ringAsked (s : State) (q : Nat) : State := State.ringRead { s with ce := { s.ce with cmdRr := q } } q

/-- The pair's head has passed the command, and what the host wrote through BAR2 before has landed when the PF commands
(R238). -/
def Claims.passed (s : State) (q : Nat) : State :=
  let t := State.passHead { Claims.ringAsked s q with ce := { (Claims.ringAsked s q).ce with nextId := s.ce.nextId + 1 } } q
  if qpFn q = 0 then t.landBar2.bmvGoOn else t

/-- The reply to a packet that could not be read (R354 check 1). -/
def Claims.badFetch (t : State) (q : Nat) : State :=
  ((t.setFld (Sys2Proof.Machine.qpOff q 0x28) 1 1 1).passHead q).pushReply q
    (replyBytes 0x10 0xFFFF 0 0 (.clean (BitVec.ofNat 36 (t.qp q).head)) PWord.zero PWord.zero)

/-- Every deferred command that is due has begun, in order, at the present time (R375). -/
def Claims.dueBegun (u : State) : State :=
  { u with ce := { u.ce with
      begun := u.ce.begun ++ u.ce.due.map (fun c => { c with beganAt := u.clk.tb }), due := [], deferAt := none } }

/-- The state in which the command of an opcode that is next takes effect: it has left the begun ones and is open (R366). -/
def Claims.turn (s : State) (op : Nat) (c : Cmd) (t : State) : Prop :=
  s.ready = true ∧ ∃ rest, takeFirst (fun c => c.op == op) s.ce.begun = some (c, rest) ∧
    (s.ce.begun.takeWhile (fun x => x.id != c.id)).any (fun x => x.meets c) = false ∧
    t = { s with ce := { s.ce with begun := rest, open_ := s.ce.open_ ++ [c] } }

/-- No command of the opcode is next. -/
def Claims.noTurn (s : State) (op : Nat) : Prop :=
  s.ready = false ∨ takeFirst (fun c => c.op == op) s.ce.begun = none ∨
  ∃ c rest, takeFirst (fun c => c.op == op) s.ce.begun = some (c, rest) ∧
    (s.ce.begun.takeWhile (fun x => x.id != c.id)).any (fun x => x.meets c) = true

/-- The command rows without operands, by opcode. -/
def Claims.commandRow (op : Nat) : Option Instr :=
  [((0x0001 : Nat), Instr.nop), (0x0002, .identify), (0x0010, .setField), (0x0011, .getField), (0x0101, .graphStart),
   (0x0102, .graphAbort), (0x0103, .graphPark), (0x0104, .graphResume), (0x0105, .orphanSweep), (0x0200, .bmvStart),
   (0x0201, .bmvStop), (0x0202, .bankPower), (0x0203, .repairAdd), (0x0300, .portConfig), (0x0301, .pourArm),
   (0x0302, .epochSchedule), (0x0501, .blendVerify), (0x0502, .blendActivateAt), (0x0503, .blendCancel),
   (0x0504, .ledgerRead), (0x0505, .ledgerClear), (0x0506, .logRead)].lookup op

/-- The value that a SET_FIELD command writes, at its field's place. -/
def Claims.setValue (c : Cmd) (f : Field) : Nat := c.par 64 32 * 2 ^ f.lsb

/-- The pending shadow of a field (R12, R359). -/
def Claims.shadowOf (s : State) (l : Loc) (f : Field) : Option Nat :=
  match s.shadowAt l.off with
  | some x => if Nat.land x.mask.toNat f.mask = 0 then none else some (fieldOf x.val f.lsb f.width)
  | none => none

/-- The host read of a command came back whole and clean. -/
def Claims.clean (d : HostData) : Prop := d.errAt = none ∧ d.ep = []

/-- The image of a GRAPH_LOAD. -/
def Claims.image (d : HostData) (c : Cmd) : List Byte := slice d.bytes 0 (c.par 64 32)

/-- The graph that an image loads as (R69, R72). -/
def Claims.loaded (b : List Byte) (base fn : Nat) : Graph :=
  { Graph.reset with state := .loaded, base := base, slots := imgSlots b,
                     blocks := (List.range (imgBlocks b)).map (imgBlock b), owner := fn }

/-- The entry IP of the block that GRAPH_START names (R70). -/
def Claims.startIp (x : Graph) (k : Nat) : Nat := x.base + (match x.blocks[k]? with | some b => b.entry | none => 0)

/-- The graph after its start context is written (R70): one more active context, its ceiling at least the class, and RUNNING
from LOADED. -/
def Claims.started (u : State) (c : Cmd) : State :=
  let v := ((u.startContext c).incActive c.graph).updGraph c.graph (fun y => { y with ceil := max y.ceil (c.par 8 8) })
  if (u.graph c.graph).state = .loaded then v.enterRunning c.graph else v

/-- The read of a command's source has gone out, and its data have come (R236, R357); bit [96] of the parameters of a
GRAPH_LOAD names No Snoop. -/
def Claims.fetched (t : State) (c : Cmd) (addr len : Nat) : State := t.readHost addr len c.noSnoop c.fn

/-- The die forgets the cached decodes of the slots, and each slot is written, in every die that is up (R69, R163); the bound
of the handle's contexts is 0 (R205). -/
def Claims.imaged (u : State) (b : List Byte) (base g : Nat) : State :=
  let v := u.upDies.foldl (fun w n => w.loadSlots b base n) u
  (v.upDies.foldl (fun w n => w.updDie n (Die.forget base (imgSlots b))) v).setFld (tmpOff (0x400 + 4 * g)) 0 25 0

/-- A sweep that begins (R177, R180). -/
def Claims.sweeping (t : State) (c : Cmd) : State :=
  { t with sweep := some { cmd := c, pos := 0, found := 0, listed := [] },
           dies := t.dies.map (fun d => { d with sweeping := d.up }) }

/-- The sweep counts an entry that qualifies, and lists it while the capacity lasts (R177, R178). -/
def Claims.swept (w : Sweep) (n : Nat) (x : Ent) (list : Bool) : Sweep :=
  { w with found := w.found + 1, listed := if list = true then w.listed ++ orphanBytes n x else w.listed }

/-- A channel that runs the descriptor of a command (R260). -/
def Claims.startedChan (x : Chan) (c : Cmd) : Chan :=
  { x.run c.bytes with byList := false, starter := c.fn, stopping := none, ahead := none }

/-- A running channel that stops after the bursts that hold a buffer, or after those whose writes have begun (R270). -/
def Claims.stoppingChan (x : Chan) (abort : Bool) : Chan :=
  { x with stopping := some abort,
           bursts := if abort then x.bursts.filter (fun b => decide (0 < b.at_)) else x.bursts }

/-- Another open BANK_POWER waits for the bank (R366). -/
def Claims.bankWaited (t : State) (c : Cmd) : Bool :=
  t.ce.open_.any (fun x => x.id != c.id && x.op == 0x0202 && lget 0 x.res 0 == c.par 0 16)

/-- The register images of a PORT_CONFIG that are not PFP_CFG, and those that are (R295). -/
def Claims.plainImages (c : Cmd) : List (Loc × Nat) := c.images.filter (fun p => !(p.1.row.id == .pfpCfg))
def Claims.cfgImages (c : Cmd) : List (Loc × Nat) := c.images.filter (fun p => p.1.row.id == .pfpCfg)

/-- Every image's fields stored, each judged in the state before the command. -/
def Claims.imagesStored (t : State) (c : Cmd) : State :=
  c.images.foldl (fun u p => p.1.row.fields.foldl (State.putField t p.1 p.2) u) t

/-- Registers act in order. -/
def Claims.imagesAct (t u : State) (c : Cmd) (xs : List (Loc × Nat)) : State :=
  xs.foldl (fun v p => v.act t p.1 p.2 (2 ^ 32 - 1) 0 c.fn) u

/-- The images with a Locked field that would change: each sets the block's reject bit and queues its record (R12, R457). -/
def Claims.imagesRejected (t : State) (c : Cmd) : State :=
  (c.images.filter (fun p => p.1.row.fields.any (t.lockedOut p.1 p.2))).foldl
    (fun u p => (u.rejectBit c.fn p.1.row.code).refuseWrite c.fn p.1.off) t

/-- A running port with its stop requested (R296). -/
def Claims.stopAsked (x : Port) (reason : Nat) : Port := { x with run := { x.run with stop := some (reason, 0) } }

/-- An accepted repair joins the table (R241, R242). -/
def Claims.repaired (t : State) (c : Cmd) : State :=
  { t with repairs := t.repairs ++ [(c.par 0 16, c.par 16 16, t.repairs.length + 1, t.now % 2 ^ 32)] }

/-- The scheduled boundary (R364). -/
def Claims.scheduledAt (t : State) (x : Option (BitVec 64)) : State := { t with clk := { t.clk with sched := x, jumped := false } }

/-- A 64-bit value in result words 0 and 1. -/
def Claims.reply64 (t : State) (c : Cmd) (v : Nat) : State := t.reply c 0 (v % 2 ^ 36) (v / 2 ^ 36) 0

/-- A slot with an image staged, unverified (R420), and a slot without one. -/
def Claims.staged (img : List Byte) : BSlot :=
  { written := true, factory := false, image := img, verified := false, version := 0, rollback := 0 }
def Claims.unstaged : BSlot :=
  { written := false, factory := false, image := [], verified := false, version := 0, rollback := 0 }

/-- A slot that passed verification (R418). -/
def Claims.verified (x : BSlot) : BSlot :=
  { x with verified := true, version := BitVec.ofNat 24 x.ver, rollback := x.rollIndex }

/-- The pending activation that a command asks for (R421). -/
def Claims.actPending (t : State) (c : Cmd) : State :=
  { t with blend := { t.blend with act := some (c.par 0 8, c.par 8 8, BitVec.ofNat 64 (c.par 64 64)) } }

/-- The rows that a SNAPSHOT names, and the state with their banks awake (R229, R365). -/
def Claims.snapRows (c : Cmd) : List Nat := (List.range (c.par 64 32)).map (fun k => c.par 32 32 + k)
def Claims.rowsAwake (t : State) (c : Cmd) : State :=
  (Claims.snapRows c).foldl (fun u r => (u.accessNow (rowBank c.index (c.par 8 8) r)).1) t

/-- The bytes of log entries from f on (R410). -/
def Claims.logEntries (t : State) (f n : Nat) : List Byte :=
  ((List.range n).map (fun k => match tfind t.log ((f + k) % 131072) with
    | some e => logBytes e
    | none => List.replicate 64 0)).flatten

/-- The read of the settings store is over. -/
def Claims.readDone (s : State) : State := { s with blend := { s.blend with reading := none } }

/-- A Blend with a burn step done (R419). -/
def Claims.burned (b : Blend) (c : Nat) : Blend := { b with counter := c }
def Claims.burnEnded (b : Blend) (c : Nat) : Blend :=
  { b with counter := c, burning := none, slots := b.slots.map (BSlot.afterBurn c) }

/-- The Seal Port serves request type ty: r is the oldest, and t the state without it (R313). -/
def Claims.asked (s : State) (ty : Nat) (r : SealReq) (t : State) : Prop :=
  s.sealPort.up = true ∧ s.kao.ready = true ∧ s.sealPort.waitingR.find? (fun x => x.ty == ty) = some r ∧ t = s.dropReq r

/-- No request of the type can be served. -/
def Claims.unasked (s : State) (ty : Nat) : Prop :=
  s.sealPort.up = false ∨ s.kao.ready = false ∨ s.sealPort.waitingR.find? (fun x => x.ty == ty) = none

/-- The request rows other than MEASURE, by type (R313). -/
def Claims.sealRow (ty : Nat) (good : Bool) (ns : Nat) (cut : Bool) : Option Instr :=
  match ty with
  | 2 => some (.read good)
  | 3 => some (.release ⟨good, ns⟩)
  | 4 => some (.sign good)
  | 5 => some (.calBegin good)
  | 6 => some (.calData good)
  | 7 => some (.calCommit ⟨good, ns, cut⟩)
  | _ => none

/-- Kaolin time has reached a value (R322). -/
def Claims.kaoAt (t : State) (ns : Nat) : State := { t with kao := { t.kao with ns := max t.kao.ns ns } }

/-- A bad frame is counted, and its request stays without an answer (R313). -/
def Claims.frameLost (t : State) (r : SealReq) : State :=
  { t with kao := { t.kao with dropped := t.kao.dropped + 1 }, sealPort := { t.sealPort with sent := t.sealPort.sent ++ [r] } }

/-- The new request that Kaolin holds. -/
def Claims.newRun (r : SealReq) (tb : BitVec 64) : KRun :=
  { params := r.body, cmd := r.cmd, sentTb := tb, started := false, startMec := 0, startCal := 0, coefs := [], uncal := false,
    startEdge := none, stops := 0, conv := 0, sampleFrom := 0, samples := [], refFault := false, ended := none }

/-- Kaolin with a request behind those that have not ended. -/
def Claims.heldAfter (k : Kao) (x : KRun) : List KRun :=
  k.held.filter (fun y => y.ended.isNone) ++ [x] ++ k.held.filter (fun y => y.ended.isSome)
def Claims.arrived (t : State) (x : KRun) : State :=
  { t with kao := Kao.schedule { t.kao with held := Claims.heldAfter t.kao x } }

/-- Kaolin refuses a calibration write (R332). -/
def Claims.calRefused (t : State) (c : Cmd) (status w0 : Nat) : State :=
  State.reply { t with kao := { t.kao with cal := none, refusals := t.kao.refusals + 1 } } c status w0 0 0

/-- Kaolin holds the image of a calibration write, and the write goes on as a request of the next type. -/
def Claims.calOn (t : State) (r : SealReq) (img : List Byte) (ty : Nat) : State :=
  { t with kao := { t.kao with cal := some img },
           sealPort := { t.sealPort with waitingR := { r with ty := ty } :: t.sealPort.waitingR } }

/-- The items that READ writes for a command (R326). -/
def Claims.readItems (k : Kao) (c : Cmd) : List (Nat × List Byte) :=
  fitItems (c.par 256 32) (if c.par 0 8 ≤ 2 then (k.items (c.par 0 8) (c.par 64 64)).take (c.par 128 32)
    else k.items (c.par 0 8) (c.par 64 64))
def Claims.itemBytes (its : List (Nat × List Byte)) : List Byte := (its.map (fun x => x.2)).flatten
def Claims.itemNext (its : List (Nat × List Byte)) (first : Nat) : Nat :=
  match its.getLast? with
  | none => first
  | some x => x.1

/-- Records below a sequence are released (R325). -/
def Claims.released (k : Kao) (upto : Nat) : Kao := Kao.prune { k with cmrs := tclear k.cmrs 0 upto, oldest := upto }

/-- The checks 6 to 9 of R332 on a received image, in their order: the first that fails gives its status and word. -/
def Claims.calCheck (k : Kao) (r : SealReq) (b : List Byte) : Option (Nat × Nat) :=
  if calFormOk b r.imageLen = false then some (0x12, 2)
  else if leAt b 8 8 ≠ duid.toNat then some (0x51, 0)
  else if leAt b 16 4 ≠ k.mec.toNat + 1 then some (0x52, 0)
  else if p256.verify k.authority (sha256 (b.take (b.length - 64))) (slice b (b.length - 64) 64) = false then some (0x50, 0)
  else if k.sealClosed = true then some (0x60, 0)
  else none

/-- A SIGN's command waits for the block of the newest record; and a new block is to be made (R324). -/
def Claims.signWaits (k : Kao) (c : Cmd) : Kao := { k with signCmd := k.signCmd ++ [(k.seqNext - 1, c)] }
def Claims.signStarts (k : Kao) (c : Cmd) : Kao :=
  { Kao.beginSign { k with signing := k.signing ++ [{ n := k.seqNext - 1, head := k.head, bySign := true, msg := none }] } with
    signCmd := k.signCmd ++ [(k.seqNext - 1, c)] }

/-- Power is lost between the commit word and the audit entry (R333): no answer comes. -/
def Claims.cutAfter (u : State) (r : SealReq) (b : List Byte) : State :=
  State.kaoReset { u with kao := u.kao.applyCal b, sealPort := { u.sealPort with sent := u.sealPort.sent ++ [r] } }

/-- What the poll reads (R313). -/
def Claims.polled (s : State) : State :=
  { s with sealPort := { s.sealPort with rep := s.kao.report, repMec := some s.kao.mec } }

/-- The oldest held request with a property, and the others: Kaolin is ready. -/
def Claims.runFor (s : State) (p : KRun → Bool) (r : KRun) (rest : List KRun) : Prop :=
  s.kao.ready = true ∧ takeFirst p s.kao.held = some (r, rest)
def Claims.noRun (s : State) (p : KRun → Bool) : Prop := s.kao.ready = false ∨ takeFirst p s.kao.held = none

/-- A request with a further sample, and with one more discarded or used conversion. -/
def Claims.sampled (r : KRun) (v : Int) : KRun := { r with samples := r.samples ++ [v] }
def Claims.converted (r : KRun) : KRun := { r with conv := r.conv + 1 }
/-- A request whose sample has its start edge; one whose sample has one more stop edge; one whose sample is over. -/
def Claims.opened (r : KRun) (x : Int) (t : Nat) : KRun := { r with startEdge := some (x, t), stops := 0 }
def Claims.counted (r : KRun) : KRun := { r with stops := r.stops + 1 }
def Claims.sampleOver (r : KRun) (t : Nat) : KRun := { r with startEdge := none, stops := 0, sampleFrom := t + deadTime }

/-- A request in the place of another that Kaolin holds. -/
def Claims.putBack (s : State) (r x : KRun) : State :=
  { s with kao := { s.kao with held := s.kao.held.map (fun y => if y = r then x else y) } }

/-- A request ends with a status, REF_FAULT where its reference failed; commits and starts follow (R320, R321). -/
def Claims.runEnds (s : State) (r : KRun) (rest : List KRun) (status : Nat) : State :=
  State.kaoSettle { s with kao := { s.kao with held :=
    rest ++ [{ r with ended := some (if r.refFault = true then 4 else status) }] } }

/-- A sample is complete: the request ends after its last (R320). -/
def Claims.afterSample (s : State) (r : KRun) (rest : List KRun) (x : KRun) : State :=
  if x.count ≤ x.samples.length then Claims.runEnds s x rest 0 else Claims.putBack s r x

/-- Audit entries of the seal (R328, R334). -/
def Claims.kaoIs (s : State) (k : Kao) : State := { s with kao := k }
def Claims.breaks (k : Kao) : Kao :=
  Kao.note { k with sealClosed := false, mec := if k.mec = BitVec.allOnes 32 then k.mec else k.mec + 1 } 2 0 []
def Claims.closes (k : Kao) : Kao := Kao.note { k with sealClosed := true } 3 0 []

/-- The reference of running requests is lost (R320). -/
def Claims.refLost (k : Kao) : Kao :=
  { k with refOk := false, held := k.held.map (fun r => if r.running = true then { r with refFault := true } else r) }

/-- Kaolin after the block in progress is written, with its signature, and the next is begun (R324, R325). -/
def Claims.blockWritten (k : Kao) (b : SigBlock) (bs : List SigBlock) : Kao :=
  Kao.beginSign (Kao.prune { k with
    signing := bs, blocks := k.blocks ++ [k.signed (b.msg.getD (k.message b))], rnd := k.rnd + 1,
    signCmd := k.signCmd.filter (fun p => !decide (p.1 ≤ b.n)) })

/-- Kaolin right after KRST_N or VKAO falls: what waits for a signature waits on (R312). -/
def Claims.inReset (k : Kao) : Kao :=
  { k with rstLow := true, ready := false, refOk := false, held := [], signCmd := [], cal := none, lastEdge := [],
           signing := k.signing.map (fun b => { b with msg := none }) }

/-- Kaolin as it starts, before it looks at the seal (R312, R333): its time begins, and a missing audit entry is written. -/
def Claims.kaoStarts (k : Kao) : Kao :=
  Kao.auditCal { k with ready := true, starts := k.starts + 1, uncal := k.bankBad, ns := 0 }

/-- Kaolin's five power domains follow VKAO; the others stay (R382). -/
def Claims.kaoPower (u : State) (good : Bool) : State :=
  { u with doms := u.doms.filter (fun p => !decide (75 ≤ p.1)) }.domsOn (if good = true then [75, 76, 77, 78, 79] else [])

/-- A request is off the Seal Port; a calibration write in progress is dropped with it (R314). -/
def Claims.givenUp (t : State) (r : SealReq) : State :=
  { t with sealPort := { t.sealPort with waitingR := t.sealPort.waitingR.filter (fun x => x != r),
                                         sent := t.sealPort.sent.filter (fun x => x != r) },
           kao := { t.kao with cal := if 5 ≤ r.ty then none else t.kao.cal } }

/-- The steps that end a die's bring-up when they fail (R404). -/
def Claims.bringUpStep (env : BringUp) : Prop :=
  env.failStep ∈ [some 9, some 10, some 11, some 17, some 18, some 19]

/-- Kind 2 may run (R404). -/
def Claims.ddrIdle (t : State) : Prop :=
  (∀ p ∈ t.graphs, p.2.state = .free) ∧ (∀ x ∈ t.chans, x.active = false) ∧
  (∀ x ∈ t.ports, x.state ≠ .armed ∧ x.state ≠ .running) ∧
  ∀ p ∈ t.queues, (siltClass p.1).isSome = true → p.2.stored = 0 ∧ p.2.inbox = []

/-- Memory without the DDR words of a channel (R403): an unlisted word reads zero. -/
def Claims.scrubbed (t : State) (m : Nat) : State :=
  { t with mem := t.mem.filter (fun p => !(decide (p.1 < t.ddrWords) && t.ddrChannel p.1 == some m)) }

/-- The next start's cause. -/
def Claims.startDue (s : State) (cause : Nat) : State := { s with start := { s.start with due := some cause } }

/-- The commands of a list that are no KAO_ commands: those of another group of opcodes (R343). -/
def Claims.notKao (l : List Cmd) : List Cmd := l.filter (fun c => fieldOf c.pkt 8 8 != 4)

/-- The KAO_ commands that the Command Engine holds are discarded (R343). -/
def Claims.noKao (t : State) : State :=
  { t with ce := { t.ce with begun := Claims.notKao t.ce.begun, open_ := Claims.notKao t.ce.open_ },
           sealPort := { t.sealPort with waitingR := t.sealPort.waitingR.filter (fun r => r.cmd.isNone),
                                         sent := t.sealPort.sent.map (fun r => { r with cmd := none }) } }

/-- Configuration space as a reset leaves it, with the width and the speed that the link trained to (R338, R403). -/
def Claims.cfgCleared (x : Pci) : Pci := { Pci.reset with width := x.width, gen := x.gen }

/-- The state while PERST_N is low: the domains that stay are those of VSTBY and of Kaolin (R433). -/
def Claims.heldReset (s : State) : State :=
  let t := s.cold false
  { t with start := { t.start with perstHigh := false }, doms := s.doms.filter (fun p => p.1 == 60 || decide (75 ≤ p.1)),
           cfg := Pci.reset }

/-- PERST_N is high. -/
def Claims.perstReleased (s : State) (t : State) : Prop := t = { s with start := { s.start with perstHigh := true } }

/-- A row of SPDM: its instruction, request code, version byte, and what must precede it (R342). -/
def Claims.spdmRow (k : Fin 7) (req : List Byte) : Instr :=
  match k with
  | 0 => .getVersion req
  | 1 => .getCapabilities req
  | 2 => .negotiateAlgorithms req
  | 3 => .getDigests req
  | 4 => .getCertificate req
  | 5 => .challenge req
  | 6 => .getMeasurements req

def Claims.spdmCode (k : Fin 7) : Nat := [0x84, 0xE1, 0xE3, 0x81, 0x82, 0x83, 0xE0].getD k.val 0
def Claims.spdmVer (k : Fin 7) : Nat := if k = 0 then 0x10 else 0x12
def Claims.spdmNeed (s : State) (k : Fin 7) : Bool :=
  match k with
  | 0 => true
  | 1 => s.spdm.versioned
  | 2 => s.spdm.capable
  | _ => s.spdm.negotiated

/-- A request that its row serves. -/
def Claims.spdmServes (s : State) (k : Fin 7) (req : List Byte) : Prop :=
  s.pcieUp = true ∧ leAt req 1 1 = Claims.spdmCode k ∧ 4 ≤ req.length ∧ Claims.spdmNeed s k = true ∧
    leAt req 0 1 = Claims.spdmVer k

/-- A response on the mailbox with a new state of the exchange. -/
def Claims.says (s : State) (x : Spdm) (bs : List Byte) : State := State.doeAnswer { s with spdm := x } 1 bs

/-- The exchange after GET_VERSION. -/
def Claims.newExchange (x : Spdm) : Spdm := { x with versioned := true, capable := false, negotiated := false }

/-- The indices of GET_MEASUREMENTS (R342). -/
def Claims.indices (op : Nat) : List Nat := if op = 0 then [] else if op = 0xFF then [1, 2, 3, 4] else [op]

/-- A response to a message that a valid exchange does not hold. -/
def Claims.spdmErr (s : State) (code : Nat) : State := s.doeAnswer 1 [0x12, 0x7F, BitVec.ofNat 8 code, 0]

/-- Bedrock's clock facts. -/
def Claims.clkIs (s : State) (c : Clk) : State := { s with clk := c }

/-- The state at the instant t_e of an edge, a load due by then done (R371, R373). -/
def Claims.atEdge (s : State) (later : Bool) : State :=
  if later = true then (s.loadDue.advance 1).loadDue else s.loadDue

/-- The load that an armed edge sets up (R371). -/
def Claims.loadArmed (u : State) (i : BitVec 64) : State :=
  let v := u.setFld (epochOff 0) 2 1 0
  { v with clk := { u.clk with loadAt := some i } }

/-- The value of TB_LOAD. -/
def Claims.tbLoadValue (u : State) : Nat := u.reg (epochOff 0x18) + u.reg (epochOff 0x1C) * 2 ^ 32

/-- The CK_TB edge of an instant. -/
def Claims.edgeAt (u : State) (i : Nat) : Nat := u.clk.edges + i - u.clk.tb.toNat

/-- An event less than 128 ns from the last boundary, and not at it (R374). -/
def Claims.tooNear (u : State) (i : Nat) : Prop :=
  u.clk.anyB = true ∧ Claims.edgeAt u i ≠ u.clk.lastEdge ∧ Claims.edgeAt u i < u.clk.lastEdge + 128 ∧
    u.clk.lastEdge < Claims.edgeAt u i + 128

/-- The counted and recorded discard of an event (R374). -/
def Claims.mergedEvent (u : State) (src : Nat) : State :=
  (u.bump (epochOff 0x14) 8 8 1).event 0 6 (epochOff 0x14) 8 src 0

/-- A scheduled value waits that this timebase reaches (R371). -/
def Claims.awaited (s : State) (x : BitVec 64) : Prop := s.clk.sched = some x ∧ s.clk.jumped = false

/-- The pending scheduled value makes its event (R373). -/
def Claims.schedEvent (s : State) (x : BitVec 64) : State :=
  State.boundary (Claims.clkIs s { s.clk with sched := none }) x.toNat 1

/-- A boundary's own fields (R372, R374). -/
def Claims.bounded (u v : State) (i src : Nat) : Prop :=
  v.clk.epoch = u.clk.epoch + 1 ∧ v.clk.last = BitVec.ofNat 64 i ∧ v.clk.lastEdge = Claims.edgeAt u i ∧ v.clk.anyB = true ∧
    v.clk.src = BitVec.ofNat 3 (2 ^ src) ∧ v.clk.tb = u.clk.tb

/-- The timebase takes a value; a scheduled value below it is jumped over (R371). -/
def Claims.loadTaken (u : State) (v : BitVec 64) : State :=
  let jump := match u.clk.sched with
    | some x => if u.clk.jumped = true then true else decide (x.toNat < v.toNat)
    | none => u.clk.jumped
  State.timesLoad (Claims.clkIs u { u.clk with loadAt := none, tb := v, jumped := jump }) u.clk.tb.toNat v.toNat

/-- The result of a loop's evaluation: the new limit and the new count of good evaluations (R384). -/
def Claims.loops (above under : Prop) (need top cur ok cur' ok' : Nat) : Prop :=
  (above → cur' = max 5 (top - 1) ∧ ok' = 0) ∧
  (¬ above → under → need ≤ ok + 1 → cur' = min 22 (cur + 1) ∧ ok' = 0) ∧
  (¬ above → under → ok + 1 < need → cur' = cur ∧ ok' = ok + 1) ∧
  (¬ above → ¬ under → cur' = cur ∧ ok' = 0)

/-- The governor's limits C and S after an evaluation. -/
def Claims.govC (s : State) (c ok : Nat) : State := { s with gov := { s.gov with cur := c, curOk := ok } }
def Claims.govS (s : State) (c ok : Nat) : State := { s with gov := { s.gov with cap := c, capOk := ok } }

/-- A die's thermal limit after an evaluation. -/
def Claims.thermSet (d : Die) (c ok : Nat) : Die := { d with therm := c, thermOk := ok }

/-- The limits of the current loop: over, and 5 % below (R384). -/
def Claims.currentOver (s : State) : Prop := 3420 < s.gov.iin ∨ s.gov.vin * 3240 < s.gov.vin * s.gov.iin
def Claims.currentUnder (s : State) : Prop :=
  s.gov.iin * 100 ≤ 3420 * 95 ∧ s.gov.vin * s.gov.iin * 100 ≤ s.gov.vin * 3240 * 95

/-- f_n of R384. -/
def Claims.fn (s : State) (n : Nat) : Nat :=
  min (s.die n).therm (min s.gov.cur (max (s.fld (pwrOff (4 * n)) 0 5) (min (s.fld (pwrOff (4 * n)) 8 5) s.gov.cap)))

/-- The die at a stop of CK_FAB for a change to f at V, and at its restart (R381). -/
def Claims.fabStopped (d : Die) (v : BitVec 64) (f : Nat) : Die :=
  { d with stopped := true, change := none, freq := f, fab := d.fab / 10 * 10, restartAt := some (v + 20) }
def Claims.fabGoes (d : Die) : Die := { d with stopped := false, restartAt := none }

/-- A clamp episode that is recorded (R385). -/
def Claims.conflict (u : State) (n : Nat) (l : ClampLimit) : State :=
  ((u.updDie n (fun d => { d with clampDone := true })).setFld (pwrOff 0x50) (clampBit n l) 1 1).err 0 3 6
    (pwrOff 0x50) (clampBit n l) 0 0x1F n 0

/-- A domain with a state, and the Twikel links trained behind PD67 (R382). -/
def Claims.domNow (s : State) (d st : Nat) : State := s.setDom d { s.dom d with state := st }
def Claims.twkAgain (s : State) : State :=
  [0, 1].foldl (fun t n => if (t.twkUse n && t.twkPowered n) = true then t.twkTrain n else t) s

/-- Every supply is good and PERST_N is high (R433). -/
def Claims.powered (s : State) : Prop :=
  s.start.vin = true ∧ s.start.vio = true ∧ s.start.vstby = true ∧ s.start.perstHigh = true

/-- A start of cause 1 is due when the supplies are good for the first time since a loss (R433). -/
def Claims.powerOn (u v : State) : Prop :=
  (Claims.powered u → u.start.poweredOn = false → v = { u with start := { u.start with due := some 1, poweredOn := true } }) ∧
  (¬ Claims.powered u ∨ u.start.poweredOn = true → v = u)

/-- A supply is marked good; VSTBY's rise samples the straps (R411). -/
def Claims.goodVin (s : State) : State := { s with start := { s.start with vin := true } }
def Claims.goodVio (s : State) : State := { s with start := { s.start with vio := true } }
def Claims.goodVstby (s : State) (sel : Bool) (addr : Fin 4) : State :=
  State.setDom { s with start := { s.start with vstby := true },
                        oob := { Oob.reset with i3c := sel, addr := 0x4C + addr.val } } 60 { state := 1, req := true }

/-- What the loss of a supply leaves of the start's facts (R434). -/
def Claims.lostSupply (s : State) (vin vio : Bool) : State :=
  { s with start := { s.start with due := none, retry := false, poweredOn := false, vin := vin, vio := vio } }

/-- The state after VIN or VIO is lost, from that with the supply marked bad (R434). -/
def Claims.afterLoss (s u : State) : State :=
  if s.start.poweredOn = true then (u.event 4 6 (pwrOff 0x4C) 0 0 0).settle.domainsOff else u.domainsOff

/-- A trip is remembered, and no start is due. -/
def Claims.tripped (s : State) : State := { s with start := { s.start with tripped := true, due := none, retry := false } }

/-- The device without its supplies: every switched-off thing of R390, R434. -/
def Claims.isOff (v : State) : Prop :=
  v.clk.run = false ∧ v.pcieUp = false ∧ v.sealPort.up = false ∧ (∀ d, d ≠ 60 → d < 75 → (v.dom d).state = 0) ∧
    (∀ x ∈ v.ports, x.state = .disabled) ∧ ∀ x ∈ v.tws, x = Twk.reset

/-- The state after VSTBY is lost (R434). -/
def Claims.noStandby (s : State) : State :=
  let t := s.cold false
  { t with start := { t.start with vstby := false, poweredOn := false }, doms := s.doms.filter (fun p => decide (75 ≤ p.1)) }

/-- The clock stops (R370). -/
def Claims.clockOff (u : State) : State := { u with clk := { u.clk with run := false } }

/-- The environment ends the start at or before step k. -/
def Claims.cutAt (env : StartEnv) (k : Nat) : Bool :=
  match env.essential with
  | some (j, _) => essential j && decide (j ≤ k)
  | none => false

/-- The state as a start begins: the cold state with the next start number, without the ledger entries that step 2 reads as bad
(R401, R403). -/
def Claims.numbered (s : State) (env : StartEnv) (keep : Bool) : State :=
  let t := s.cold keep
  State.skipEntries { t with start := { t.start with number := t.start.number + 1 } }
    (if Claims.cutAt env 2 = true then 0 else env.badLedger)

/-- The channels in use by a plan and what its steps find. -/
def Claims.actives (p : Plan) (f : Found) : List Nat := (List.range 8).filter (fun c => !bitOf (p.ddr ||| f.ddr) c)

/-- The device's own essential failures: no Blend verifies, PCI Express trains too narrow or too slow, no die is up, too little
memory (R337, R396, R37). -/
def Claims.ownFaults (p : Plan) (f : Found) (env : StartEnv) (blend : Bool) : List (Nat × Bool) :=
  (if blend = true then [] else [(4, false)]) ++ (if pcieTrains env = true then [] else [(8, false)]) ++
    (if (p.dies ||| f.dies) = 63 then [(13, false)] else []) ++
    (if capacityOf env (Claims.actives p f) < 2 ^ 36 then [(15, false)] else [])

/-- The steps up to 5 of a start: the Blend (whether one verified), the settings, and the clock's start (R396). -/
def Claims.blended (s2 : State) (env : StartEnv) (ok : Bool) (s3 : State) : Prop :=
  if Claims.cutAt env 4 = true then ok = false ∧ s3 = s2
  else match s2.startBlend with
    | some t => ok = true ∧ s3 = t
    | none => ok = false ∧ s3 = s2
def Claims.setUp (env : StartEnv) (ok : Bool) (s3 s4 : State) (recs : List RegRec) : Prop :=
  if (ok && !Claims.cutAt env 5) = true then
    recs = s3.startSettings.2 ∧ s4 = { s3.startSettings.1 with clk := { Clk.reset with run := true } }
  else recs = [] ∧ s4 = { s3 with clk := { Clk.reset with run := true } }

/-- The links in use by the values that a start loads. -/
def Claims.linksInUse (s4 : State) (recs : List RegRec) : Nat :=
  maskOf 2 (fun n => ((s4.loadRecs s4.blendRecs).loadRecs recs).twkUse n)

/-- What a start's steps find, cut off at its essential failure. -/
def Claims.foundIn (p : Plan) (env : StartEnv) (cause inUse : Nat) (ok : Bool) : Found :=
  let f := found p env inUse
  Found.cut { f with ess := firstEss (cause == 3) (env.essential.toList ++ Claims.ownFaults p f env ok) }

/-- How far a failed start got. -/
def Claims.reached (k : Nat) (s2 s3 s4 : State) : State :=
  if 6 < k then s4 else if 5 < k then { s4 with clk := s2.clk } else if 4 < k then s3 else s2

/-- The package of a start that passed step 8; and whether a link runs at half width, found so or forced (R17). -/
def Claims.coreOn (s4 : State) (p : Plan) (env : StartEnv) (cause : Nat) : State :=
  { (s4.domsOn (coreDoms p)) with pcieUp := true, cfg := s4.cfg.trained env (cause == 3),
                                  sealPort := { SealEnd.reset with up := true } }
def Claims.halfOf (s : State) (env : StartEnv) (cause l : Nat) : Bool :=
  bitOf env.halves.toNat l || (!(cause == 1 || cause == 2 || cause == 7) && s.flag (lnkOff l 4) 0)

/-- The ledger holds a new entry and, before it, those of the 15 starts before (R401). -/
def Claims.entered16 (s t : State) (e : LedgerEntry) : Prop :=
  t.start.ledger = e :: s.start.ledger.filter (fun y => decide (e.number.toNat < y.number.toNat + 16))

/-- R398's decision for one resource of a fenceable class, and of an alternate class. -/
def Claims.fences (i fen fail post : Nat) : Bool := bitOf fen i || bitOf fail i || bitOf post i

/-- A sample that no sensor takes (R408, R411). -/
def Claims.noSensor (s : State) (id : Nat) : Prop := id = 0 ∨ 185 < id ∨ s.start.vstby = false

/-- The threshold state after a reading v in units of 1/sc (R412): 0 normal, 1 warning, 2 critical. -/
def Claims.level (sc warn crit hyst : Int) (old : Nat) (v : Int) (new : Nat) : Prop :=
  (new = 2 ↔ (crit + hyst) * sc ≤ v ∨ (old = 2 ∧ (crit - hyst) * sc < v)) ∧
  (new = 1 ↔ new ≠ 2 ∧ ((warn + hyst) * sc ≤ v ∨ (1 ≤ old ∧ (warn - hyst) * sc < v))) ∧ new ≤ 2

/-- The new threshold state is kept, and a SENSOR entry logged (R409). -/
def Claims.crossed (u : State) (id old new : Nat) (v : Int) : State :=
  State.logPut { u with gov := { u.gov with events := tput 0 u.gov.events id (new + 4 * old) } } 4
    (leBytes 2 id ++ leBytes 1 (if new = 0 then 3 else new) ++ leBytes 1 0 ++ leBytes 8 (Config.sensorCode id v).toNat)

/-- The event message to the named receiver (R412). -/
def Claims.told (u : State) (e : BitVec 8) (id old new : Nat) (v : Int) : State :=
  State.emit { u with draws := u.draws + 1 } (.mctp e (sensorMessage (Config.pldmInstance u.draws).toNat id new old
    (Config.sensorCode id v).toNat))

/-- A diode's fault is set. -/
def Claims.faulty (s : State) (k : Nat) : State := { s with gov := { s.gov with faults := s.gov.faults ||| 2 ^ k } }

/-- The control rows (R411): row i, command code c, and its answer: a state and bytes. -/
def Claims.control (s : State) (eid : BitVec 8) (req : List Byte) (i : Instr) (c : Nat) (t : State) (bs : List Byte) : Prop :=
  (i = .setEndpointId eid req ∧ c = 1 ∧ s.setEid req = (t, bs)) ∨
  (i = .getEndpointId eid req ∧ c = 2 ∧ t = s ∧ bs = [0, s.oob.eid, 0, 0]) ∨
  (i = .getMctpVersionSupport eid req ∧ c = 4 ∧ t = s ∧ bs = mctpVersions req) ∨
  (i = .getMessageTypeSupport eid req ∧ c = 5 ∧ t = s ∧ bs = [0, 3, 0, 1, 0x7E])

/-- The PLDM rows (R412): row, type, command, answer. -/
def Claims.pldm (s : State) (eid : BitVec 8) (req : List Byte) (i : Instr) (ty c : Nat) (t : State) (bs : List Byte) : Prop :=
  (i = .setEventReceiver eid req ∧ ty = 2 ∧ c = 0x04 ∧ s.setReceiver req = (t, bs)) ∨
  (t = s ∧ (
    (i = .getTid eid req ∧ ty = 0 ∧ c = 0x02 ∧ bs = [0, Config.pldmTid]) ∨
    (i = .getPldmVersion eid req ∧ ty = 0 ∧ c = 0x03 ∧ bs = pldmVersionOf req) ∨
    (i = .getPldmTypes eid req ∧ ty = 0 ∧ c = 0x04 ∧ bs = [0, 5, 0, 0, 0, 0, 0, 0, 0]) ∨
    (i = .getPldmCommands eid req ∧ ty = 0 ∧ c = 0x05 ∧ bs = pldmCommandsOf req) ∨
    (i = .getPdrRepositoryInfo eid req ∧ ty = 2 ∧ c = 0x50 ∧ bs = pdrInfo) ∨
    (i = .getPdr eid req ∧ ty = 2 ∧ c = 0x51 ∧ bs = getPdrOf req) ∨
    (i = .getSensorReading eid req ∧ ty = 2 ∧ c = 0x11 ∧ bs = s.sensorReading req) ∨
    (i = .getSensorThresholds eid req ∧ ty = 2 ∧ c = 0x12 ∧ bs = s.sensorThresholds req)))

/-- A RESTART is logged, and a start with cause 8 is due (R413). -/
def Claims.restarted (s : State) (eid : BitVec 8) : State :=
  let t := s.logPut 5 (leBytes 1 1 ++ [eid])
  { t with start := { t.start with due := some 8 } }

/-- The log entry of an entry number under R410's range rule. -/
def Claims.oneLog (s : State) (n : Nat) : List Byte :=
  let r := logRange s.logNext.toNat s.log.length n
  if r.2 = 0 then [] else match tfind s.log (r.1 % 131072) with
    | some e => logBytes e
    | none => List.replicate 64 0

/-- The ledger entry counted back from the newest, or zeros. -/
def Claims.backEntry (s : State) (n : Nat) : List Byte :=
  ((s.start.ledger[n]?).map LedgerEntry.bytes).getD (List.replicate 64 0)

/-- The vendor-defined rows (R413): row, code, answer. -/
def Claims.vendor (s : State) (eid : BitVec 8) (req : List Byte) (i : Instr) (c : Nat) (t : State) (bs : List Byte) : Prop :=
  (i = .getIdentity eid req ∧ c = 1 ∧ t = s ∧ bs = s.oobIdentity) ∨
  (i = .readLedger eid req ∧ c = 2 ∧ t = s ∧ bs = 0 :: Claims.backEntry s (leAt req 4 1)) ∨
  (i = .readLog eid req ∧ c = 3 ∧ t = s ∧ bs = 0 :: Claims.oneLog s (leAt req 4 4)) ∨
  (i = .restart eid req ∧ c = 4 ∧ t = Claims.restarted s eid ∧ bs = [0])

/-- An answer to an EID. -/
def Claims.toward (s : State) (eid : BitVec 8) (bs : List Byte) : State := s.emit (.mctp eid bs)

/-- The heads of answers. -/
def Claims.ctlHead (req : List Byte) : List Byte := [0, BitVec.ofNat 8 (leAt req 1 1 % 32), BitVec.ofNat 8 (leAt req 2 1)]
def Claims.pldmHead (req : List Byte) : List Byte :=
  [1, BitVec.ofNat 8 (leAt req 1 1 % 32), BitVec.ofNat 8 (leAt req 2 1 % 64), BitVec.ofNat 8 (leAt req 3 1)]
def Claims.vdmHead (req : List Byte) : List Byte := [0x7E, 0x1F, 0x3C, BitVec.ofNat 8 (leAt req 3 1)]

/-- A message that is not a PLDM message, and one that is not a vendor-defined message of this vendor. -/
def Claims.notPldm (req : List Byte) : Prop := leAt req 0 1 ≠ 1
def Claims.notVendor (req : List Byte) : Prop := leAt req 0 1 ≠ 0x7E ∨ leAt req 1 2 ≠ 0x3C1F

/-- A state with a queue of commands. -/
def Claims.queued (s : State) (cs : List Instr) : State := { s with pending := cs }

/-- The host bits that a burst gathers from its words, and the bytes it writes (R258). -/
def Claims.streamBits (d : Desc) (ws : List Word) : Nat :=
  (ws.zipIdx.map (fun p => hostBits d p.1 * 2 ^ (p.2 * fmtBits d.df))).foldl (· + ·) 0
def Claims.streamBytes (d : Desc) (ws : List Word) : List Byte := leBytes (fmtBytes d.df ws.length) (Claims.streamBits d ws)

/-- A byte and a word of a list, zero past its end. -/
def Claims.byteAt (bs : List Byte) (i : Nat) : Nat := (bs.getD i 0).toNat
def Claims.wordAt (ws : List Word) (i : Nat) : Nat := (ws.getD i 0).toNat

/-- The word that a burst reads at index i of burst k with no error (R262). -/
def Claims.moves (d : Desc) (k : Nat) (data : HostData) (a : Bread) (i : Nat) (t : State) (w : PWord) : Prop :=
  a.err = none ∧
  (d.sf = 0 → a.s.bmvRefused (d.src + (64 * k + i)) false = false ∧ a.s.idleRd 0x17 (d.src + (64 * k + i)) = (t, w)) ∧
  (d.sf ≠ 0 → (∀ e, data.errAt = some e → (i * fmtBits d.sf + fmtBits d.sf + 7) / 8 ≤ e) ∧ t = a.s ∧
    w = { v := hostWord d data.bytes i,
          p := epHit data.ep (i * fmtBits d.sf / 8) ((i * fmtBits d.sf + fmtBits d.sf + 7) / 8) })

/-- The width of a host end that the check knows (R256). -/
def Claims.checked (d : Desc) (w : Nat) : Prop := (d.df = 2 ∧ w = 32) ∨ (d.df = 3 ∧ w = 16) ∨ (d.df = 4 ∧ w = 8)

/-- A word fits w bits (R257). -/
def Claims.fits (ext : Bool) (w : Nat) (x : Word) : Prop :=
  if ext = true then (∀ j, w - 1 ≤ j → j < 36 → x.getLsbD j = x.getLsbD 35) else ∀ j, w ≤ j → j < 36 → x.getLsbD j = false

/-- Requests follow one another from an address on, for a number of bytes. -/
def Claims.covers : Nat → Nat → List (Nat × Nat) → Prop
  | _, len, [] => len = 0
  | a, len, r :: rs => r.1 = a ∧ 0 < r.2 ∧ r.2 ≤ len ∧ Claims.covers (a + r.2) (len - r.2) rs

end Sys2Proof

open Sys2Proof Sys2Proof.Machine Sys2Proof.Safety

/-- R58, R108-R112, R136, R138: the integer firings complete with these results. -/
def Obligations.IntegerFirings : Prop :=
  ∀ (c : Instr) (n : Fin 6) (k : Fin 64) (op : FOp), Claims.integer c = some (n, k, op) →
  ∀ (s s1 : State) (lane : Nat) (it : Item) (r : OpRow) (i : Insn) (v : Vals) (place : Option Place) (x : List PWord)
    (rs : Rs) (t : State),
    Begins s s1 n.val k.val lane it op r i →
    StepOne s1 (firing s1 n.val k.val lane it r i) v place x rs →
    trapCause v.g13 (fireFlags (firing s1 n.val k.val lane it r i) v
      (Claims.poisonedBy (v.a.p || v.b.p || v.d.p) (Claims.intResult op v.a.v v.b.v)).fl) = none →
    Claims.step3 rs.s (firing s1 n.val k.val lane it r i) v
      (Claims.poisonedBy (v.a.p || v.b.p || v.d.p) (Claims.intResult op v.a.v v.b.v)) place = .ok t →
    exec c s = .next (Claims.ended t (firing s1 n.val k.val lane it r i) v
      (Claims.poisonedBy (v.a.p || v.b.p || v.d.p) (Claims.intResult op v.a.v v.b.v)) rs.pins).finish

/-- R109, R112-R114: the carry and routing firings complete with these outcomes. -/
def Obligations.RouteFirings : Prop :=
  ∀ (c : Instr) (n : Fin 6) (k : Fin 64) (op : FOp), Claims.routing c = some (n, k, op) →
  ∀ (s s1 : State) (lane : Nat) (it : Item) (r : OpRow) (i : Insn) (v : Vals) (place : Option Place) (x : List PWord)
    (rs : Rs) (o : FOut) (t : State),
    Begins s s1 n.val k.val lane it op r i →
    StepOne s1 (firing s1 n.val k.val lane it r i) v place x rs →
    Claims.routeOut op v.a v.b v.d = some o →
    trapCause v.g13 (fireFlags (firing s1 n.val k.val lane it r i) v o.fl) = none →
    Claims.step3 rs.s (firing s1 n.val k.val lane it r i) v o place = .ok t →
    exec c s = .next (Claims.ended t (firing s1 n.val k.val lane it r i) v o rs.pins).finish

/-- R58, R115, R116, R136: the floating-point firings complete with these results.
Readings and choices of the model in it: log entry 35. -/
def Obligations.FloatFirings : Prop :=
  ∀ (c : Instr) (n : Fin 6) (k : Fin 64) (op : FOp), Claims.floating c = some (n, k, op) →
  ∀ (s s1 : State) (lane : Nat) (it : Item) (r : OpRow) (i : Insn) (v : Vals) (place : Option Place) (x : List PWord)
    (rs : Rs) (o : FOut) (t : State),
    Begins s s1 n.val k.val lane it op r i →
    StepOne s1 (firing s1 n.val k.val lane it r i) v place x rs →
    o = Claims.poisonedBy (v.a.p || v.b.p || v.d.p) (Claims.floatResult op i.x v.a.v v.b.v v.d.v v.g13) →
    trapCause v.g13 (fireFlags (firing s1 n.val k.val lane it r i) v o.fl) = none →
    Claims.step3 rs.s (firing s1 n.val k.val lane it r i) v o place = .ok t →
    exec c s = .next (Claims.ended t (firing s1 n.val k.val lane it r i) v o rs.pins).finish

/-- R118-R121, R124, R130: the context firings complete with these outcomes.
Readings and choices of the model in it: log entries 49, 61. -/
def Obligations.ContextFirings : Prop :=
  ∀ (c : Instr) (n : Fin 6) (k : Fin 64) (op : FOp), Claims.context c = some (n, k, op) →
  ∀ (s s1 : State) (lane : Nat) (it : Item) (r : OpRow) (i : Insn) (v : Vals) (place : Option Place) (x : List PWord)
    (rs : Rs) (o : FOut) (t : State),
    Begins s s1 n.val k.val lane it op r i →
    StepOne s1 (firing s1 n.val k.val lane it r i) v place x rs →
    Claims.contextOut op rs.s (firing s1 n.val k.val lane it r i) v x = some o →
    trapCause v.g13 (fireFlags (firing s1 n.val k.val lane it r i) v o.fl) = none →
    Claims.step3 rs.s (firing s1 n.val k.val lane it r i) v o place = .ok t →
    exec c s = .next (Claims.ended t (firing s1 n.val k.val lane it r i) v o rs.pins).finish

/-- R104, R122, R123, R125: the firings of units send their request and wait.
Readings and choices of the model in it: log entries 49, 50. -/
def Obligations.RequestFirings : Prop :=
  ∀ (n : Fin 6) (k : Fin 64) (s s1 : State) (lane : Nat) (it : Item) (op : FOp) (r : OpRow) (i : Insn) (a b : PWord),
    Begins s s1 n.val k.val lane it op r i →
    G13Ready s1 (firing s1 n.val k.val lane it r i) →
    DirectOperands s1 (firing s1 n.val k.val lane it r i) a b → a.p = false → b.p = false →
    (op = .ltbAcq → a.v.toNat < 4096 →
      exec (.ltbAcq n k) s = .next (Claims.waiting { s1 with
        units := s1.units ++ [.acquire n.val s1.nextUnit a.v.toNat it.cid it.graph
          (BitVec.ofNat 3 (s1.currentClass n.val it.cid.toNat))], nextUnit := s1.nextUnit + 1 }
        s1 n.val k.val lane it (firing s1 n.val k.val lane it r i) (.unit s1.nextUnit)).finish) ∧
    (op = .ltbRel → a.v.toNat < 4096 →
      exec (.ltbRel n k) s = .next (Claims.waiting { s1 with
        units := s1.units ++ [.release n.val s1.nextUnit a.v.toNat], nextUnit := s1.nextUnit + 1 }
        s1 n.val k.val lane it (firing s1 n.val k.val lane it r i) (.unit s1.nextUnit)).finish) ∧
    (op = .falloc →
      exec (.falloc n k) s = .next (Claims.waiting (Claims.listRequest s1 n.val)
        s1 n.val k.val lane it (firing s1 n.val k.val lane it r i) (.mem (s1.die n.val).freeTxn)).finish) ∧
    (op = .ffree →
      exec (.ffree n k) s = .next (Claims.waiting (Claims.listRequest s1 n.val)
        s1 n.val k.val lane it (firing s1 n.val k.val lane it r i) (.mem (s1.die n.val).freeTxn)).finish)

/-- R91, R92, R94, R127-R129: how a repeated pair begins, repeats and resumes.
Readings and choices of the model in it: log entries 49, 62. -/
def Obligations.RepeatedPairs : Prop :=
  (∀ (u : Bool) (n : Fin 6) (k : Fin 64) (s t : State) (p : RepRun) (rest : List RepRun) (r : OpRow) (i : Insn) (v : Vals)
      (place : Option Place) (x : List PWord) (rs : Rs) (o : FOut) (c : Instr) (op : FOp),
    (s.pe (peKey n.val k.val)).runs = p :: rest → p.unbroken = u → (s.die n.val).stopped = false →
    s.repGate n.val k.val p = .go →
    readSlot ((Claims.repeating s n.val k.val p).slot n.val (p.item.ip.toNat + 1)) = .ok r i → i.op = op →
    Claims.integer c = some (n, k, op) →
    StepOne (Claims.repeating s n.val k.val p) (Claims.repetition (Claims.repeating s n.val k.val p) n.val k.val p r i)
      v place x rs →
    o = Claims.poisonedBy (v.a.p || v.b.p || v.d.p) (Claims.intResult op v.a.v v.b.v) →
    trapCause v.g13 (fireFlags (Claims.repetition (Claims.repeating s n.val k.val p) n.val k.val p r i) v o.fl) = none →
    Claims.step3 rs.s (Claims.repetition (Claims.repeating s n.val k.val p) n.val k.val p r i) v o place = .ok t →
    Claims.repRow u n k 1 s = .next (Claims.lastLeaves (Claims.ended t
        (Claims.repetition (Claims.repeating s n.val k.val p) n.val k.val p r i) v o rs.pins) n.val k.val p).finish) ∧
  (∀ (u : Bool) (n : Fin 6) (k : Fin 64) (reps : Nat) (s s1 : State) (lane : Nat) (it : Item) (r0 r1 : OpRow) (i0 i1 : Insn)
      (w : PWord) (q : Rs),
    (s.pe (peKey n.val k.val)).runs = [] → Picks s n.val k.val lane it →
    wantOp n.val (if u then .repU else .repI) s it = true →
    s1 = Claims.pairBegun s n.val k.val lane it →
    (((s.popHead n.val k.val lane).noteBad n.val k.val lane it).beginOn n.val k.val it).isPair n.val it.ip.toNat = true →
    (u = true ∨ ((s1.graph it.graph.toNat).state ≠ .parked ∧ s1.discards it = false)) → readSlot (s1.slot n.val it.ip.toNat) = .ok r0 i0 →
    s1.decodePair n.val it = .ok r1 i1 → readSlot (s1.slot n.val (it.ip.toNat + 1)) = .ok r1 i1 →
    (rdSpec (firing s1 n.val k.val (lane % 8) it r0 i0) 0 i0.a).run.run (Rs.start s1 [] (tokenVals it)) = (.ok w, q) →
    q.s = s1 → w.p = false → w.v.toNat < 2 ^ 32 → (u = true → w.v.toNat ≤ 4096) →
    i1.a.m ≠ .pin → i1.b.m ≠ .pin → i1.d.m ≠ .pin →
    Claims.repRow u n k reps s = .next (if w.v.toNat = 0 then State.repeatRun n.val k.val reps s1
      else State.repeatRun n.val k.val reps
        (Claims.taken s1 n.val k.val (Claims.pairOf it lane u w.v.toNat))).finish) ∧
  (∀ (n : Fin 6) (k : Fin 64) (reps : Nat) (s : State) (lane : Nat) (it : Item),
    Picks s n.val k.val lane it → it.kind = 1 →
    exec (.resumeItem n k reps) s = .next (State.repeatRun n.val k.val reps
      (Claims.resumed s n.val k.val lane it)).finish)

/-- R57, R65-R67, R107, R218: exceptions that end a firing before step 1, and discarded items.
Readings and choices of the model in it: log entries 60, 62. -/
def Obligations.Exceptions : Prop :=
  ∀ (n : Fin 6) (k : Fin 64) (s : State) (lane : Nat) (it : Item),
  (∀ s1 : State, Picks s n.val k.val lane it → it.kind = 2 →
    s1 = ((s.popHead n.val k.val lane).noteBad n.val k.val lane it).beginOn n.val k.val it →
    ∃ t, exec (.duplicate n k) s = .next t.finish ∧
      Claims.excepted s1 n.val lane it it.ip.toNat (s1.opAt n.val it.ip.toNat) 4
        (if bitOf it.pmask.toNat 0 then 0 else if bitOf it.pmask.toNat 1 then 1 else 2) it.v0 it.v1 PWord.zero t) ∧
  (∀ s1 : State, Picks s n.val k.val lane it → it.kind = 0 → s1 = begun s n.val k.val lane it →
    (opRowOf (s.opAt n.val it.ip.toNat)).isNone → (opRowOf (s1.opAt n.val it.ip.toNat)).isNone →
    (s1.slot n.val it.ip.toNat).parityOk = true →
    ∃ t, exec (.undefinedOpcode n k) s = .next t.finish ∧
      Claims.excepted s1 n.val lane it it.ip.toNat (s1.opAt n.val it.ip.toNat) 0
        (if s1.rawListBad n.val (s1.graph it.graph.toNat) it.ip.toNat then 0 else 1)
        (Claims.tokenAt it 0) (Claims.tokenAt it 1) (Claims.tokenAt it 2) t) ∧
  (s.select n.val k.val = some (lane, it) → it.broken = false → s.discards it = true →
    exec (.frozenItemDiscard n k) s = .next (((s.popHead n.val k.val lane).noteBad n.val k.val lane it).bump (tmpOff 0x30) 0 32 1).finish)

/-- R80-R83, R87, R94: the operand forms.
Readings and choices of the model in it: log entry 61. -/
def Obligations.OperandForms : Prop :=
  ∀ (f : Fire) (pos : Nat) (sp : Spec) (r : Rs), r.old = [] →
    (sp.m = .tok ∨ sp.m = .toka → Claims.reads (rdSpec f pos sp) r = (.ok (f.it.val pos), r)) ∧
    (sp.m = .imm → Claims.reads (rdSpec f pos sp) r = (.ok (.clean (sextWord 12 sp.f)), r)) ∧
    (∀ x, sp.m = .itx → f.rep = some x →
      Claims.reads (rdSpec f pos sp) r = (.ok (.clean (BitVec.ofNat 36 x.i)), r)) ∧
    (∀ g b s1 w, sp.m = .cpl → r.s.blockOfCtx f.cid = some (g, b) →
      s1 = (r.s.accessNow (isBank f.n ((2 * (g.base + b.pool) + sp.f) / 2))).1 →
      (s1.isWord f.n (2 * (g.base + b.pool) + sp.f) = (w, true) →
        Claims.reads (rdSpec f pos sp) r = (.ok (.clean w), { r with s := s1, got := r.got ++ [.word (.clean w)] })) ∧
      (s1.isWord f.n (2 * (g.base + b.pool) + sp.f) = (w, false) →
        Claims.reads (rdSpec f pos sp) r = (.ok { v := w, p := true },
          { r with s := s1.unreported 5 f.k f.n f.it.graph.toNat 0x1F f.tag,
                   got := r.got ++ [.word { v := w, p := true }] }))) ∧
    (sp.m = .frm → Claims.gServed r.s f sp.f →
      Claims.reads (rdSpec f pos sp) r =
        (.ok (Claims.gval r.s f sp.f), { r with got := r.got ++ [.word (Claims.gval r.s f sp.f)] })) ∧
    (sp.m = .frm → 8388608 ≤ r.s.cdt f.cid + sp.f → Claims.reads (rdSpec f pos sp) r = (.error (.exc 1 0), r)) ∧
    (Claims.pointerMode f sp → (∀ k ∈ Claims.slotsOf sp, Claims.gServed r.s f k) →
      (∀ k ∈ Claims.slotsOf sp, (Claims.gval r.s f k).p = false) →
      (∀ a off, Claims.addressOf r.s f sp = some a → r.s.addrFault a false = none → r.s.kindOf a = .frame f.n off →
        r.s.bankState (f.n * 256 + off / 131072) = 0 →
        Claims.reads (rdSpec f pos sp) r = (.ok (r.s.frameRd f.n off),
          { r with got := r.got ++ (Claims.slotsOf sp).map (fun k => .word (Claims.gval r.s f k)) ++
                            [.word (r.s.frameRd f.n off)],
                   pins := r.pins ++ Claims.writeBack r.s f sp })) ∧
      (∀ a c, Claims.addressOf r.s f sp = some a → r.s.addrFault a false = some c →
        (Claims.reads (rdSpec f pos sp) r).1 = .error (.exc 1 c)) ∧
      (Claims.addressOf r.s f sp = none → (Claims.reads (rdSpec f pos sp) r).1 = .error (.exc 1 1))) ∧
    (Claims.pointerMode f sp → (∀ k ∈ Claims.slotsOf sp, Claims.gServed r.s f k) →
      (∃ k ∈ Claims.slotsOf sp, (Claims.gval r.s f k).p = true) →
      (Claims.reads (rdSpec f pos sp) r).1 = .error (.exc 1 2))

/-- R164, R171: the outcomes of an arrival at a set without a chain.
Readings and choices of the model in it: log entries 12, 60. -/
def Obligations.TokensMeet : Prop :=
  ∀ (n : Fin 6) (s s0 s1 : State) (t : Token) (rest : List Token) (v : View),
    (s.die n.val).arr = t :: rest → s0 = Claims.tokenTaken s n.val rest → Claims.sliceReady s0 n.val t →
    Claims.looked s0 n.val t.ip.toNat s1 v →
    (v.now = true ∨ (t.port.toNat ∉ v.need ∧ v.toka.all (fun q => q.1 != t.port.toNat) = true) →
      Claims.localRow n s (Claims.enabled s1 n.val t 0 (2 ^ t.port.toNat)
        (Claims.alone t 0) (Claims.alone t 1) (Claims.alone t 2) false)) ∧
    (v.now = false → t.port.toNat ∈ v.need → v.toka.all (fun q => q.1 != t.port.toNat) = true →
      (∀ x, ((Claims.partners s1 n.val t).filter (fun x => !x.e.acc)).find? (fun x => x.e.port == t.port.toNat) = some x →
        Claims.localRow n s (Claims.enabled (s1.bump (lmOff n.val 0x42C) 0 32 1) n.val t 2 (2 ^ t.port.toNat)
          x.e.val t.val PWord.zero false)) ∧
      (((Claims.partners s1 n.val t).filter (fun x => !x.e.acc)).find? (fun x => x.e.port == t.port.toNat) = none →
        (v.toka = none → (Claims.partners s1 n.val t).any (fun x => x.e.acc) = false → (∀ q ∈ v.need, q = t.port.toNat ∨
            ((Claims.partners s1 n.val t).filter (fun x => !x.e.acc)).any (fun x => x.e.port == q) = true) →
          Claims.localRow n s (Claims.enabled
            ((Claims.partners s1 n.val t).foldl (fun u x => u.putWay n.val (s1.setOf n.val t) x.idx MsEntry.empty) s1) n.val t 0
            (maskOf 3 (fun p => v.need.contains p))
            (portVal t t.val (Claims.partners s1 n.val t) 0) (portVal t t.val (Claims.partners s1 n.val t) 1)
            (portVal t t.val (Claims.partners s1 n.val t) 2)
            false)) ∧
        (∀ q i, q ∈ v.need → q ≠ t.port.toNat →
          ((Claims.partners s1 n.val t).filter (fun x => !x.e.acc)).any (fun x => x.e.port == q) = false →
          (s1.mset n.val (s1.setOf n.val t)).ways.findIdx? (fun w => !w.valid) = some i →
          Claims.localRow n s (s1.putWay n.val (s1.setOf n.val t) i (plainEntry t))) ∧
        (∀ q k, q ∈ v.need → q ≠ t.port.toNat →
          ((Claims.partners s1 n.val t).filter (fun x => !x.e.acc)).any (fun x => x.e.port == q) = false →
          (s1.mset n.val (s1.setOf n.val t)).ways.all (fun w => w.valid) = true → (s1.die n.val).freeSlot = some k →
          Claims.localRow n s (s1.updDie n.val (fun d => { d with walks := d.walks ++
            [{ slot := k, set := s1.setOf n.val t, tok := t, acc := none, held := false }] }))))) ∧
    (v.now = false → ∀ sp count, v.toka = some (t.port.toNat, sp, count) →
      ((Claims.partners s1 n.val t).find? (fun x => x.e.acc) = none → (firstFold t sp count).rem ≠ 0 →
        ∀ i, (s1.mset n.val (s1.setOf n.val t)).ways.findIdx? (fun w => !w.valid) = some i →
        Claims.localRow n s (s1.putWay n.val (s1.setOf n.val t) i (firstFold t sp count))) ∧
      (∀ x, (Claims.partners s1 n.val t).find? (fun x => x.e.acc) = some x → (x.e.fold t.val).rem ≠ 0 →
        Claims.localRow n s (s1.putWay n.val (s1.setOf n.val t) x.idx (x.e.fold t.val))))

/-- R169, R170, R175, R184: the rows of walks and of the dispatch unit.
Readings and choices of the model in it: log entries 12, 60. -/
def Obligations.WalksAndDispatch : Prop :=
  (∀ (n : Fin 6) (slot : Fin 64) (s s1 : State) (w : Walk) (v : View),
    (s.die n.val).walks.find? (fun w => w.slot == slot.val && !w.held) = some w →
    s.bankState (isBank n.val w.tok.ip.toNat) = 0 → Claims.looked s n.val w.tok.ip.toNat s1 v →
    (∀ l, Claims.walkReads s1 n.val w v l →
      (∀ t, Claims.walkOutcome s1 n.val w v l = some t →
        exec (.chainWalkEnd n slot) s = .next (Claims.slotFreed t n.val w).finish) ∧
      (Claims.walkOutcome s1 n.val w v l = none →
        exec (.chainWalkEnd n slot) s = .next (s1.holdInsert n.val w).finish)) ∧
    ((s1.mset n.val w.set).ovf = true → (s1.rd (s1.regionBase n.val + w.set)).p = true →
      exec (.chainWalkEnd n slot) s = .next (State.retryWaiting (State.abandonChain
        (s1.updDie n.val (fun d => { d with walks := d.walks.filter (fun x => x.slot != w.slot) })) n.val w.set
        (tagDetail w.tok.cid.toNat w.tok.ip.toNat w.tok.colour.toNat)) n.val).finish)) ∧
  (∀ (n : Fin 6) (s s1 t : State) (w : Walk) (v : View) (l : List (Nat × MsEntry)),
    (s.die n.val).walks.find? (fun w => w.held) = some w →
    (s.die n.val).freeHead ≠ 0 ∨ (s.die n.val).bump < 67108864 →
    s.bankState (isBank n.val w.tok.ip.toNat) = 0 → Claims.looked s n.val w.tok.ip.toNat s1 v →
    Claims.walkReads s1 n.val w v l → Claims.walkOutcome s1 n.val w v l = some t →
    ((Claims.slotFreed t n.val w).die n.val).walks.any (fun x => x.held) = false →
    exec (.regionFullRelease n) s = .next ((Claims.slotFreed t n.val w).updDie n.val (fun d =>
      { d with regionFull := false, regionSince := none })).finish) ∧
  (∀ (n : Fin 6) (s s1 : State) (kept : List DispIn) (x : DispIn) (rest : List DispIn) (h : Hdr) (a m : Nat),
    (s.die n.val).disp = kept ++ x :: rest → Claims.held s n.val kept (x :: rest) → h = s.hdr x.item.cid.toNat →
    Claims.hdrServed s x.item.cid.toNat → s1 = Claims.inputs s n.val (kept ++ rest) →
    a = s.affinityPe n.val h.aff → m = Claims.placement s n.val a x.released →
    (h.st = 1 → ∀ t, s1.lanePush (peKey n.val m) h.cls (Claims.dispatched s n.val x.item h) = some t →
      (m = a → a = h.aff → exec (.dispatchPlacement n) s = .next t.finish) ∧
      (m ≠ a → m ≠ h.aff → exec (.dispatchPlacement n) s = .next ((t.bump (lmOff n.val 0x508) 0 32 1).setHdr
        x.item.cid.toNat { (t.bump (lmOff n.val 0x508) 0 32 1).hdr x.item.cid.toNat with aff := m }).finish)) ∧
    (h.st = 2 → exec (.dispatchPlacement n) s =
      .next (s1.parkItem h.graph (Claims.dispatched s n.val x.item h)).finish) ∧
    (h.st ≠ 1 → h.st ≠ 2 → exec (.dispatchPlacement n) s = .next (((s1.bump (fabOff 0x408) 0 32 1).event 0 n.val
      (fabOff 0x408) 0 0 (tagDetail x.item.cid.toNat x.item.ip.toNat x.item.colour.toNat))).finish)) ∧
  (∀ (n : Fin 6) (s : State), Claims.held s n.val (s.die n.val).disp [] →
    exec (.dispatchPlacement n) s = .next s.finish)

/-- R243-R249: acquires, releases, host accesses and lift messages.
Readings and choices of the model in it: log entries 12, 34. -/
def Obligations.Latches : Prop :=
  (∀ (g : Fin 64) (s t : State) (n id k : Nat) (cid : BitVec 24) (gr : BitVec 8) (cls : BitVec 3) (rest : List UnitReq)
      (v : BitVec 32),
    Claims.oldest s (Claims.acquireOf g.val) (.acquire n id k cid gr cls) rest → n < 6 →
    Claims.acquires { s with units := rest } k (0x11 + n) cid.toNat gr.toNat cls.toNat t v →
    exec (.latchAcquire g) s = .next (t.wake n (fun w => w == .unit id) (some (.latch v))).finish) ∧
  (∀ (g : Fin 64) (s t : State) (n id k : Nat) (rest : List UnitReq) (v : BitVec 32),
    Claims.oldest s (Claims.releaseOf g.val) (.release n id k) rest →
    Claims.releases { s with units := rest } k (0x11 + n) t v →
    exec (.latchRelease g) s = .next (t.wake n (fun w => w == .unit id) (some (.latch v))).finish) ∧
  (∀ (n : Fin 6) (s : State) (m : LiftMsg) (rest : List LiftMsg), (s.die n.val).liftMsgs = m :: rest →
    exec (.liftMessage n) s = .next (s.updDie n.val (fun d =>
      { d with liftMsgs := rest, lifts := if m.cls.isSome then tins d.lifts m.latch m else tdel d.lifts m.latch })).finish) ∧
  (∀ (fn : Fin 17) (k : Fin 4096) (s t : State) (v : BitVec 32), s.pcieUp = true → s.ready = true →
    Claims.acquires s k.val fn.val 0 0 0 t v → exec (.ltbWinRead fn k) s = .next (t.emit (.regData v)).finish) ∧
  (∀ (fn : Fin 17) (k : Fin 4096) (s t : State) (v : BitVec 32), s.pcieUp = true → s.ready = true →
    Claims.releases s k.val fn.val t v → exec (.ltbWinWrite fn k 15) s = .next t.finish)

/-- R61, R205, R228, R234, R235: the rows of the storage side.
Readings and choices of the model in it: log entries 5, 12, 19, 51, 60. -/
def Obligations.Storage : Prop :=
  (∀ (b st : Nat) (s t : State), (s.bank b).target = some st → t = Claims.arrivedBank s b st →
    s.ce.open_ = [] → (t.bank b).req = t.bankState b →
    (st ≠ 0 → exec (.bankTransitionDone b) s = .next t.finish) ∧
    (st = 0 → (∀ n < 6, (t.die n).firing.all (fun g => g.wait != .bank b) = true) →
      exec (.bankTransitionDone b) s = .next t.finish)) ∧
  (∀ (n : Fin 6) (k : Fin 64) (s : State) (pre rest : List WBuf) (e : WBuf),
    (s.die n.val).wbuf = pre ++ e :: rest → e.pe = k.val → pre.all (fun x => x.pe != k.val) = true →
    pre.all (fun x => x.addr != e.addr) = true →
    s.bankState (n.val * 256 + (e.addr % 0x1000000) / 131072) = 0 →
    exec (.writeBufferDrain n k) s =
      .next ((s.updDie n.val (fun d => { d with wbuf := pre ++ rest })).wr e.addr e.w).finish) ∧
  (∀ (n : Fin 6) (s : State), exec (.heldWriteLand n) s =
    .next (((Claims.landing n.val (s.die n.val).wbuf [] (s.die n.val).held).foldl (fun t h => t.landOne n.val h)
      (s.updDie n.val (fun d => { d with held := Claims.staying n.val (s.die n.val).wbuf [] (s.die n.val).held }))).bmvGoOn).finish) ∧
  (∀ (n : Fin 6) (s : State) (h : HeldWr), s.bankState (frameBank n.val h.addr) = 0 →
    s.landOne n.val h = (s.wr h.addr h.w).issued h.chan h.w) ∧
  (∀ (n : Fin 6) (s t : State), (s.die n.val).building = true →
    t = s.passCycles n.val ((s.die n.val).buildFrom + (s.die n.val).isdTotal) →
    exec (.isdBuildDone n) s = .next (t.updDie n.val (fun x => { x with building := false })).finish) ∧
  (∀ (s : State) (n id g : Nat) (rest : List UnitReq), Claims.oldest s Claims.isReserve (.reserve n id g) rest →
    (Claims.admits s g = true → exec .kboundReservation s = .next
      ((({ s with units := rest } : State).updGraph g (fun x => { x with active := x.active + 1 })).wake n
        (fun w => w == .unit id) (some (.grant true))).finish) ∧
    (Claims.admits s g = false → exec .kboundReservation s = .next
      (({ s with units := rest } : State).wake n (fun w => w == .unit id) (some (.grant false))).finish)) ∧
  (∀ (s : State) (g : Nat) (rest : List UnitReq), Claims.oldest s Claims.isUnreserve (.unreserve g) rest →
    exec .reservationRelease s = .next (({ s with units := rest } : State).decActive g).finish)

/-- R17-R24: the rows of the D2D links.
Readings and choices of the model in it: log entries 31, 59. -/
def Obligations.D2dFlits : Prop :=
  ∀ (d : Fin 24) (s : State) (f err : BitVec 128) (rest : List (Option (BitVec 9) × BitVec 128)),
  (∀ ty num, Claims.numberedType ty → Claims.nothingWaits ty s → flitType f = ty → Claims.atFront s d.val num f rest →
    flitOk (f ^^^ err) = false →
    (Claims.listens s d.val → Claims.flitRow ty d err s =
      .next (Claims.flowed ty (Claims.nakked s d.val { s.dir d.val with wire := rest, skip := none })).finish) ∧
    (¬ Claims.listens s d.val → Claims.flitRow ty d err s =
      .next (Claims.flowed ty (Claims.nakked s d.val (Claims.skipped s d.val rest))).finish)) ∧
  (∀ num, Claims.atFront s d.val num f rest → flitOk f = true → ¬ Claims.listens s d.val →
    (∀ ty, Claims.numberedType ty → Claims.nothingWaits ty s → flitType f = ty →
      Claims.flitRow ty d 0 s = .next (Claims.flowed ty (s.setDir d.val (Claims.skipped s d.val rest))).finish) ∧
    (flitType f = ftCredit → exec (.d2dCredit d 0) s = .next (s.setDir d.val (Claims.skipped s d.val rest)).finish)) ∧
  (∀ ty k, Claims.numberedType ty → Claims.nothingWaits ty s → flitType f = ty → Claims.front s d.val (some k) f rest →
    flitOk f = true → k ≠ (s.dir d.val).expect →
    Claims.flitRow ty d 0 s = .next (Claims.flowed ty (Claims.unwired s d.val rest)).finish) ∧
  (∀ t, flitType f = ftToken → s.anyWait = false → Claims.front s d.val (some (s.dir d.val).expect) f rest →
    flitOk f = true → flitBad f = false →
    Claims.tokenArrives (Claims.expected s d.val rest) d.val f t →
    exec (.token (.link d 0)) s = .next (Claims.creditBack t d.val (flitToken f).cls.toNat).twkFlow.finish) ∧
  (∀ ty t, Claims.numberedType ty → ty ≠ ftToken → flitType f = ty →
    Claims.front s d.val (some (s.dir d.val).expect) f rest → flitOk f = true → flitBad f = false → flitDest f = dirTo d.val →
    Claims.arrives (Claims.expected s d.val rest) d.val f t →
    Claims.flitRow ty d 0 s = .next (Claims.creditBack t d.val (flitPool f)).finish) ∧
  (∀ ty, Claims.numberedType ty → ty ≠ ftToken → flitType f = ty →
    Claims.front s d.val (some (s.dir d.val).expect) f rest → flitOk f = true → flitBad f = false →
    flitDest f ≠ dirTo d.val → (flitDest f < 6 → (s.die (flitDest f)).up = true) →
    Claims.flitRow ty d 0 s = .next (Claims.creditBack ((Claims.expected s d.val rest).queueFlit
      ((Claims.expected s d.val rest).nextHop (dirTo d.val) (flitDest f)) f) d.val (flitPool f)).finish) ∧
  (Claims.front s d.val none f rest → flitOk f = true → flitBad f = false →
    (∀ x e, flitType f = ftCredit → fieldOf f 16 4 < 11 → e = Claims.reverse d.val →
      x = (Claims.unwired s d.val rest).dir e →
      exec (.d2dCredit d 0) s = .next (((Claims.unwired s d.val rest).setDir e
        { x with seen := lset x.seen (fieldOf f 16 4) (BitVec.ofNat 16 (fieldOf f 20 16)) }).pumpDir e).finish) ∧
    (∀ x e q, flitType f = ftCtrl → fieldOf f 16 4 = 0 → e = Claims.reverse d.val →
      x = (Claims.unwired s d.val rest).dir e → q = BitVec.ofNat 9 (fieldOf f 20 9) →
      x.replay.any (fun p => p.1 == q) = true →
      exec (.ack d 0) s = .next (((Claims.unwired s d.val rest).setDir e
        { x with replay := (x.replay.dropWhile (fun p => p.1 != q)).drop 1, replays := 0 }).pumpDir e).finish) ∧
    (∀ x e q, flitType f = ftCtrl → fieldOf f 16 4 = 1 → e = Claims.reverse d.val →
      x = (Claims.unwired s d.val rest).dir e → q = BitVec.ofNat 9 (fieldOf f 20 9) → x.replays + 1 < 16 →
      exec (.nak d 0) s = .next ((Claims.unwired s d.val rest).setDir e
        { x with replays := x.replays + 1,
                 skip := if x.discarding = true ∧ x.skip = none then some x.wire.length else x.skip,
                 wire := x.wire ++ (x.replay.dropWhile (fun p => p.1 != q)).map (fun p => (some p.1, p.2)) }).finish) ∧
    (flitType f = ftCtrl → fieldOf f 16 4 = 2 →
      exec (.trainDone d 0) s = .next ((Claims.unwired s d.val rest).setDir d.val
        { (Claims.unwired s d.val rest).dir d.val with training := false }).finish)) ∧
  (s.dirUp d.val = true → (s.dir d.val).sinceAck ≠ 0 →
    exec (.d2dAckDue d) s = .next ((s.setDir d.val { s.dir d.val with sinceAck := 0 }).sendBack d.val
      (ctrlFlit (dirFrom d.val) 0 ((s.dir d.val).expect - 1).toNat)).finish)

/-- R276-R290: the rows of a port's link.
Readings and choices of the model in it: log entries 5, 30, 66, 67. -/
def Obligations.PortLinks : Prop :=
  ∀ (p : Fin 16) (s : State),
  (∀ (lane : Fin 16) (sync : BitVec 2) (skew : Nat) (blk : BitVec 64) (n : Nat) (fl : FrameLink), Claims.trains s p.val lane.val →
    n = 4 * s.pfpBond p.val → fl = (s.port p.val).fl → lget 0 fl.sync lane.val < 64 →
    (Claims.validSync sync →
      exec (.pfpTs1 p lane ⟨sync, skew⟩ blk) s = .next (Claims.withLink s p.val { fl with sync := bumpAt fl.sync n lane.val }).finish ∧
      exec (.pfpTs2 p lane ⟨sync, skew⟩ blk) s = .next (Claims.withLink s p.val { fl with sync := bumpAt fl.sync n lane.val }).finish) ∧
    (¬ Claims.validSync sync →
      exec (.pfpTs1 p lane ⟨sync, skew⟩ blk) s =
        .next (Claims.withLink s p.val { fl with sync := lset (bumpAt fl.sync n lane.val) lane.val 0 }).finish ∧
      exec (.pfpTs2 p lane ⟨sync, skew⟩ blk) s =
        .next (Claims.withLink s p.val { fl with sync := lset (bumpAt fl.sync n lane.val) lane.val 0 }).finish)) ∧
  (∀ (lane : Fin 16) (sync : BitVec 2) (skew : Nat) (blk : BitVec 64) (n : Nat) (fl : FrameLink), Claims.trains s p.val lane.val →
    Claims.readsBlock (s.port p.val).fl lane.val sync skew →
    n = 4 * s.pfpBond p.val → fl = Claims.placed s p.val lane.val blk.toNat sync → blkOk blk.toNat = true →
    Claims.laneOf blk.toNat < n → laneOrderOk fl.lanes n = true →
    (bitsOf blk.toNat 0 8 = 0xB5 → Claims.tsZero blk.toNat false →
      (allAtLeast (bumpAt fl.ts1 n lane.val) n 16 = false → exec (.pfpTs1 p lane ⟨sync, skew⟩ blk) s =
        .next (Claims.withLink s p.val { fl with ts1 := bumpAt fl.ts1 n lane.val }).finish) ∧
      (∀ t g, allAtLeast (bumpAt fl.ts1 n lane.val) n 16 = true → fl.ts2Start = none →
        t = Claims.withLink s p.val { fl with ts1 := bumpAt fl.ts1 n lane.val } →
        g = t.updPort p.val (fun x => { x with
          farCredits := t.fld (pfpOff p.val 0x10) 13 10 - t.heldRecords p.val, owed := 0,
          fl := { x.fl with grant := t.fld (pfpOff p.val 0x10) 13 10 - t.heldRecords p.val, ts2Start := some t.clk.edges } }) →
        g.pfpPowered p.val = true →
        exec (.pfpTs1 p lane ⟨sync, skew⟩ blk) s = .next (g.emit (Claims.trainOut g p.val true)).finish)) ∧
    (bitsOf blk.toNat 0 8 = 0xB6 → Claims.tsZero blk.toNat true → bitsOf blk.toNat 24 8 = 1 →
      bitsOf blk.toNat 16 8 = s.pfpBond p.val → ∀ t, fl.ts2Start = some t →
      (allAtLeast (bumpAt fl.ts2 n lane.val) n 8 = false → exec (.pfpTs2 p lane ⟨sync, skew⟩ blk) s =
        .next (Claims.withLink s p.val { fl with ts2 := bumpAt fl.ts2 n lane.val }).finish) ∧
      (allAtLeast (bumpAt fl.ts2 n lane.val) n 8 = true → t + 33 ≤ s.clk.edges → exec (.pfpTs2 p lane ⟨sync, skew⟩ blk) s =
        .next ((Claims.withLink s p.val { fl with ts2 := bumpAt fl.ts2 n lane.val }).updPort p.val (fun y =>
          { y with state := .idle, avail := bitsOf blk.toNat 32 16,
                   fl := { FrameLink.reset with lanes := fl.lanes, inverted := fl.inverted, grant := fl.grant,
                                                reversed := laneReversed fl.lanes n } })).finish))) ∧
  (∀ (lane : Fin 16) (sync : BitVec 2) (skew : Nat) (blk : BitVec 64), Claims.trains s p.val lane.val →
    Claims.readsBlock (s.port p.val).fl lane.val sync skew →
    (blkOk blk.toNat = false ∨ bitsOf blk.toNat 0 8 ≠ 0xB5 ∨ ¬ Claims.tsZero blk.toNat false) →
    exec (.pfpTs1 p lane ⟨sync, skew⟩ blk) s = .next (Claims.withLink s p.val { (s.port p.val).fl with
        ts1 := lset (bumpAt (s.port p.val).fl.ts1 (4 * s.pfpBond p.val) lane.val) lane.val 0 }).finish) ∧
  ((s.port p.val).state = .training → (s.port p.val).fl.failedAt = none → s.pfpPowered p.val = true →
    ∀ t, t = s.passEdges ((s.port p.val).fl.trainStart + 10000000) →
    exec (.trainingTimeout p) s = .next (((t.bump (pfpOff p.val 0x44) 24 8 1).pfpErr 0 p.val 0x44 24 0 0).updPort p.val (fun x =>
      { x with fl := { FrameLink.begin t.clk.edges with failedAt := some t.clk.edges } })).finish) ∧
  (∀ e, (s.port p.val).state = .training → (s.port p.val).fl.failedAt = some e →
    exec (.trainingRestart p) s = .next (Claims.trainBegun (s.passEdges (e + 1000000)) p.val).finish) ∧
  (∀ (f : BitVec 256), Claims.goodFrame s p.val f.toNat →
    (frameType f.toNat = 2 → ((Claims.ackTaken s p.val f.toNat).port p.val).fl.judge f.toNat = .inOrder →
      ((Claims.inOrder s p.val f.toNat).port p.val).farCredits ≠ 0 →
      exec (.fail p f) s = .next (((Claims.inOrder s p.val f.toNat).updPort p.val (fun x =>
        { x with farCredits := x.farCredits - 1 })).offer (256 + p.val) (failWords f.toNat)).finish) ∧
    (frameType f.toNat = 3 → ((Claims.ackTaken s p.val f.toNat).port p.val).fl.judge f.toNat = .inOrder →
      frameBits f.toNat 4 0 8 = 0 →
      exec (.pfpCredit p f) s = .next ((Claims.inOrder s p.val f.toNat).updPort p.val (fun x =>
        { x with avail := x.avail + sextNat 16 (frameBits f.toNat 6 0 16) })).finish) ∧
    (frameType f.toNat = 5 → exec (.pfpRetry p f) s =
      .next ((Claims.ackTaken s p.val f.toNat).updPort p.val (fun y =>
        { y with fl := { y.fl with tx := y.fl.tx.filter (fun t => t.num.isNone) ++
          (y.fl.replay.dropWhile (fun q => q.1.toNat != frameBits f.toNat 4 0 8)).map (fun q =>
            { rank := rankReplay, ready := s.now64, body := q.2, num := some q.1 }) } })).finish) ∧
    (frameType f.toNat = 0 → exec (.pfpIdle p f) s = .next (Claims.ackTaken s p.val f.toNat).finish)) ∧
  (∀ (f : BitVec 256) (t : State), (s.port p.val).active = true → frameOk 32 f.toNat = false →
    t = s.bump (pfpOff p.val 0x44) 0 16 1 →
    ((s.port p.val).fl.discarding = true → exec (.fail p f) s = .next t.finish) ∧
    ((s.port p.val).fl.discarding = false → (s.port p.val).fl.replay.length < 128 → (s.port p.val).fl.retries + 1 < 16 →
      exec (.fail p f) s = .next ((Claims.withLink t p.val { Claims.offered (s.port p.val).fl rankRetry s.now64 0 with
        discarding := true, retries := (s.port p.val).fl.retries + 1, retryAt := s.now64 }).bump
          (pfpOff p.val 0x44) 16 8 1).finish)) ∧
  ((s.port p.val).active = true → (s.port p.val).fl.discarding = false → (s.port p.val).fl.owesAck = true →
    ∀ d, d = ((s.port p.val).fl.ackAt / s.slotLen p.val + 32) * s.slotLen p.val →
    exec (.pfpAckDue p) s = .next ((Claims.withLink s p.val (Claims.offered (s.port p.val).fl rankIdle d 0)).passUntil
      ((d + 63) / 64)).finish) ∧
  ((s.port p.val).active = true → (s.port p.val).fl.discarding = true →
    ∀ t, t = s.passUntil (((s.port p.val).fl.retryAt + 256 * s.slotLen p.val + 63) / 64) →
    (t.port p.val).fl.discarding = true → exec (.pfpAckDue p) s = .next (t.pfpRetryOut p.val).finish) ∧
  (∀ d t, s.failCreditAt p.val = some d → t = s.passUntil (d / 64) →
    exec (.failCreditDue p) s = .next ((t.setPort p.val { t.port p.val with
        owed := 0, farCredits := (t.port p.val).farCredits + (t.port p.val).owed }).pfpQueue p.val rankCredit (max d t.now64)
      (creditBody 1 (t.port p.val).owed)).finish) ∧
  ((s.port p.val).state = .idle →
    ∀ t, t = s.updPort p.val (fun x => { x with
      avail := 0, farCredits := 0, owed := 0, run := x.run.lose, state := .disabled, fl := FrameLink.reset }) →
    (s.pfpOn p.val = true → exec (.pfpLinkDown p) s = .next (Claims.trainBegun t p.val).finish) ∧
    (s.pfpOn p.val = false → exec (.pfpLinkDown p) s = .next t.finish))

/-- R289-R306: the rows of a port's runs.
Readings and choices of the model in it: log entries 5, 29, 30, 66. -/
def Obligations.PortRuns : Prop :=
  ∀ (p : Fin 16) (s : State),
  (∀ (t : State) (r : Run), (s.port p.val).run.clearing = true → t = s.passEdges (s.port p.val).run.clearEnd →
    r = (t.port p.val).run →
    (r.clearLost = false → (t.port p.val).state = .idle →
      (r.trigger = 0 → r.prefill = 0 → exec (.presenceClearDone p) s = .next (Claims.armAnswer
        (Claims.startFixed (Claims.armed t p.val) p.val (slotAt (t.slotLen p.val) (t.now64 + 1024))) p.val 0 0).finish) ∧
      (r.trigger = 0 → r.prefill ≠ 0 → exec (.presenceClearDone p) s =
        .next (Claims.armAnswer (Claims.armed t p.val) p.val 0 0).finish) ∧
      (r.trigger = 1 → t.now + 16 ≤ r.trigT → exec (.presenceClearDone p) s = .next (Claims.armAnswer
        (Claims.startFixed (Claims.armed t p.val) p.val (slotAt (t.slotLen p.val) (64 * r.trigT))) p.val 0 0).finish)) ∧
    (r.clearLost = true ∨ (t.port p.val).state ≠ .idle → exec (.presenceClearDone p) s = .next (Claims.armAnswer
      (t.setPort p.val { t.port p.val with present := [], run := { Run.reset with next := r.next, base := r.base } })
      p.val 0x12 1).finish)) ∧
  (∀ (s0 : Nat) (t : State), (s.port p.val).state = .armed → (s.port p.val).run.stop = none →
    (s.port p.val).run.s0 = some s0 →
    exec (.controlStart p) s = .next (s.passUntil ((s0 - s.slotLen p.val) / 64 + 1)).finish ∧
    (t = s.passUntil ((s0 + 63) / 64) → (t.port p.val).run.s0 = some s0 →
      exec (.runStart p) s = .next (t.updPort p.val (fun x => { x with state := .running, s0Time := s0 })).finish)) ∧
  (∀ (e r : Nat) (t : State) (run : Run), Claims.ticks s p.val e r → t = s.goUntil e → run = (t.port p.val).run →
    (t.slotPresent p.val run.next e = true → (Claims.examined s p.val e).all (fun w => !w.p) = true →
      exec (.tickExamination p) s = .next ((t.pfpQueue p.val rankTick r (tickBody 0 run.next (t.pfpLen p.val)
          ((Claims.examined s p.val e).map (fun w => w.v)) false)).updPort p.val (fun x =>
        { x with present := tclear x.present (run.next % 65536 * 4) (run.next % 65536 * 4 + 4),
                 run := { x.run with
                   ticks := x.run.ticks + 1, burstLeft := x.run.burstLeft - 1, next := (run.next + 1) % 2 ^ 36,
                   released := run.released + 1, consec := 0, holding := false,
                   last := some (run.next, (Claims.examined s p.val e).map (fun w => w.v)) } })).finish) ∧
    (t.slotPresent p.val run.next e = true → (Claims.examined s p.val e).any (fun w => w.p) = true →
      exec (.tickExamination p) s = .next ((Claims.begunRun t p.val).endRunIn p.val 5 r).finish) ∧
    (t.slotPresent p.val run.next e = false → t.fld (pfpOff p.val 0x0C) 0 2 = 0 → t.fld (pfpOff p.val 0x0C) 2 16 = 0 →
      ∀ u, u = ((if run.underRecorded then t.bump (pfpOff p.val 0x3C) 0 32 1
          else (t.bump (pfpOff p.val 0x3C) 0 32 1).pfpErr 0 p.val 0x3C 0 (t.pfpGraph p.val) 0).updPort p.val (fun x =>
        { x with run := { x.run with under := x.run.under + 1, consec := x.run.consec + 1, holding := true,
                                     underRecorded := true } })) →
      exec (.tickExamination p) s = .next ((u.pfpQueue p.val rankTick r
        (tickBody 2 (u.port p.val).run.next (t.pfpLen p.val) [] false)).updPort p.val (fun x =>
        { x with run := { x.run with ticks := x.run.ticks + 1, burstLeft := x.run.burstLeft - 1 } })).finish)) ∧
  (∀ (reason slot : Nat) (t : State), (s.port p.val).state = .armed → (s.port p.val).run.stop = some (reason, slot) →
    t = s.passUntil (slot / 64) →
    exec (.armedRunEnd p) s = .next ((t.pfpQueue p.val rankTick slot (if reason = 1 ∨ reason = 2
        then controlBody 2 0 (t.port p.val).run.next (t.port p.val).run.ticks 0
        else controlBody 3 reason (t.port p.val).run.next (t.port p.val).run.ticks 0)).endRun p.val reason).finish) ∧
  ((s.queue (256 + p.val)).diag = false → s.handlerParked p.val = false → s.siltTake (256 + p.val) 3 = none → exec (.failRecord p) s = .next s.finish) ∧
  (∀ (w1 w2 : SWord) (t1 t2 t3 t4 : State), (s.queue (256 + p.val)).diag = false →
    s.handlerParked p.val = false → s.siltTake (256 + p.val) 3 = some (w1, t1) → w1.mark = .good → t1.failWord p.val w1 = (t2, false) →
    t2.siltTake (256 + p.val) 3 = some (w2, t3) → w2.mark = .good → t3.failWord p.val w2 = (t4, true) →
    exec (.failRecord p) s = .next t4.finish) ∧
  ((s.queue (256 + p.val)).diag = true ∨ s.handlerParked p.val = true → exec (.failRecord p) s = .next s.finish)

/-- R26: training of a Twikel link; R28, R29, R32: its acknowledgements, credits, epoch check and end.
Readings and choices of the model in it: log entries 30, 32, 66, 67. -/
def Obligations.TwikelLinks : Prop :=
  ∀ (n : Fin 2) (s : State),
  (∀ (lane : Fin 8) (sync : BitVec 2) (skew : Nat) (blk : BitVec 64) (fl : FrameLink), Claims.twkTrains s n.val →
    fl = (s.twk n.val).fl → lget 0 fl.sync lane.val < 64 →
    (Claims.validSync sync → exec (.twikelTs1 n lane ⟨sync, skew⟩ blk) s =
      .next (Claims.twkLink s n.val { fl with sync := bumpAt fl.sync 8 lane.val }).finish) ∧
    (¬ Claims.validSync sync → exec (.twikelTs1 n lane ⟨sync, skew⟩ blk) s =
      .next (Claims.twkLink s n.val { fl with sync := lset (bumpAt fl.sync 8 lane.val) lane.val 0 }).finish)) ∧
  (∀ (lane : Fin 8) (sync : BitVec 2) (skew : Nat) (blk : BitVec 64) (fl : FrameLink), Claims.twkTrains s n.val →
    Claims.readsBlock (s.twk n.val).fl lane.val sync skew →
    fl = Claims.twkPlaced s n.val lane.val blk.toNat sync → blkOk blk.toNat = true → laneOrderOk fl.lanes 8 = true →
    (bitsOf blk.toNat 0 8 = 0xC5 → Claims.twkZero blk.toNat false →
      (allAtLeast (bumpAt fl.ts1 8 lane.val) 8 16 = false ∨ fl.ts2Start ≠ none → exec (.twikelTs1 n lane ⟨sync, skew⟩ blk) s =
        .next (Claims.twkLink s n.val { fl with ts1 := bumpAt fl.ts1 8 lane.val }).finish) ∧
      (∀ t, allAtLeast (bumpAt fl.ts1 8 lane.val) 8 16 = true → fl.ts2Start = none →
        t = Claims.twkLink s n.val { fl with ts1 := bumpAt fl.ts1 8 lane.val, ts2Start := some s.clk.edges } →
        exec (.twikelTs1 n lane ⟨sync, skew⟩ blk) s = .next (t.emit (Claims.twkOut t n.val true)).finish)) ∧
    (bitsOf blk.toNat 0 8 = 0xC6 → Claims.twkZero blk.toNat true → bitsOf blk.toNat 24 8 = 1 → bitsOf blk.toNat 16 8 = 8 →
      ∀ t, fl.ts2Start = some t →
      (allAtLeast (bumpAt fl.ts2 8 lane.val) 8 8 = false → exec (.twikelTs2 n lane ⟨sync, skew⟩ blk) s =
        .next (Claims.twkLink s n.val { fl with ts2 := bumpAt fl.ts2 8 lane.val }).finish) ∧
      (allAtLeast (bumpAt fl.ts2 8 lane.val) 8 8 = true → t + 33 ≤ s.clk.edges → exec (.twikelTs2 n lane ⟨sync, skew⟩ blk) s =
        .next ((Claims.twkLink s n.val { fl with ts2 := bumpAt fl.ts2 8 lane.val }).twkLinkUp n.val
          (bitsOf blk.toNat 32 16) { fl with ts2 := bumpAt fl.ts2 8 lane.val }).finish)) ∧
    (bitsOf blk.toNat 0 8 = 0xC6 → Claims.twkZero blk.toNat true → (bitsOf blk.toNat 24 8 ≠ 1 ∨ bitsOf blk.toNat 16 8 ≠ 8) →
      exec (.twikelTs2 n lane ⟨sync, skew⟩ blk) s = .next (s.twkFail n.val).finish)) ∧
  (∀ (lane : Fin 8) (sync : BitVec 2) (skew : Nat) (blk : BitVec 64), Claims.twkTrains s n.val →
    Claims.readsBlock (s.twk n.val).fl lane.val sync skew →
    (blkOk blk.toNat = false ∨ bitsOf blk.toNat 0 8 ≠ 0xC5 ∨ ¬ Claims.twkZero blk.toNat false) →
    exec (.twikelTs1 n lane ⟨sync, skew⟩ blk) s = .next (Claims.twkLink s n.val { (s.twk n.val).fl with
        ts1 := lset (bumpAt (s.twk n.val).fl.ts1 8 lane.val) lane.val 0 }).finish) ∧
  (∀ t, Claims.twkTrains s n.val → t = s.passEdges ((s.twk n.val).fl.trainStart + 10000000) →
    exec (.twikelTrainingTimeout n) s =
      .next (((t.bump (twkOff n.val 8) 24 8 1).event 0 6 (twkOff n.val 8) 24 n.val 0).setTwk n.val
        { ((t.bump (twkOff n.val 8) 24 8 1).event 0 6 (twkOff n.val 8) 24 n.val 0).twk n.val with
          fl := { FrameLink.begin t.clk.edges with failedAt := some t.clk.edges } }).finish) ∧
  (∀ e, (s.twk n.val).training = true → s.twkUse n.val = true → (s.twk n.val).fl.failedAt = some e →
    exec (.twikelRetrain n) s = .next (Claims.twkBegun (s.passEdges (e + 1000000)) n.val).finish) ∧
  (∀ due i e rest t u, (s.twk n.val).checks = (due, i, e) :: rest → t = s.passEdges due →
    u = t.setTwk n.val { t.twk n.val with checks := rest } →
    (u.clk.recent.any (fun p => Claims.within1us p.1 i && p.2 == e) = true →
      exec (.epochCheck n) s = .next u.finish) ∧
    (u.clk.recent.any (fun p => Claims.within1us p.1 i && p.2 == e) = false →
      exec (.epochCheck n) s =
        .next ((u.setFld (twkOff n.val 4) 11 1 1).event 0 6 (twkOff n.val 4) 11 n.val 0).finish)) ∧
  ((s.twk n.val).up = true → (s.twk n.val).fl.discarding = false → (s.twk n.val).fl.owesAck = true →
    ∀ d, d = ((s.twk n.val).fl.ackAt / 132 + 32) * 132 →
    exec (.twikelAckDue n) s = .next ((Claims.twkLink s n.val (Claims.offered (s.twk n.val).fl rankIdle d 0)).passUntil
      ((d + 63) / 64)).twkFlow.finish) ∧
  (∀ d t, s.twkCreditAt n.val = some d → t = s.passUntil (d / 64) →
    exec (.twikelCreditDue n) s = .next ((t.setTwk n.val { t.twk n.val with
      owed := List.replicate 8 0, fl := Claims.offered (t.twk n.val).fl rankCredit (max d t.now64)
        (Claims.creditPayload (t.twk n.val)) }).twkFlow).finish) ∧
  ((s.twk n.val).up = true → ∀ t u, t = (s.bump (hostOff 0x80) 0 32
      ((s.twk n.val).txBuf.foldl (fun k l => k + l.length) 0)).setFld (twkOff n.val 4) 10 1 1 →
    u = t.setTwk n.val (Claims.twkDropped (s.twk n.val)) →
    (s.twkUse n.val = true → exec (.twikelLinkDown n) s = .next ((Claims.twkBegun u n.val).event 1 6
      (twkOff n.val 4) 10 n.val 0).finish) ∧
    (s.twkUse n.val = false → exec (.twikelLinkDown n) s = .next (u.event 1 6 (twkOff n.val 4) 10 n.val 0).finish))

/-- R27, R29, R30, R32: what a frame received on a Twikel link does.
Readings and choices of the model in it: log entries 13, 30, 32, 66. -/
def Obligations.TwikelFrames : Prop :=
  ∀ (n : Fin 2) (s : State) (f : BitVec 512),
  (Claims.twkGood s n.val f.toNat →
    (((Claims.twkAcked s n.val f.toNat).twk n.val).fl.judge f.toNat = .inOrder →
      (frameType f.toNat = 1 → exec (.tokens n f) s =
        .next ((Claims.twkInOrder s n.val f.toNat).setTwk n.val
          { (Claims.twkInOrder s n.val f.toNat).twk n.val with
            rxBuf := Claims.twkBuffered ((Claims.twkInOrder s n.val f.toNat).twk n.val) f.toNat }).twkFlow.finish) ∧
      (frameType f.toNat = 2 → exec (.twikelCredit n f) s =
        .next ((Claims.twkInOrder s n.val f.toNat).setTwk n.val
          { (Claims.twkInOrder s n.val f.toNat).twk n.val with
            credits := Claims.twkCredits ((Claims.twkInOrder s n.val f.toNat).twk n.val) f.toNat }).finish) ∧
      (frameType f.toNat = 3 → exec (.version n f) s =
        .next (((Claims.twkInOrder s n.val f.toNat).setTwk n.val
          (Claims.twkPeer ((Claims.twkInOrder s n.val f.toNat).twk n.val) f.toNat)).setCompat n.val
            (Claims.twkCompat (Claims.twkInOrder s n.val f.toNat)
              ((Claims.twkInOrder s n.val f.toNat).twk n.val) f.toNat)).finish) ∧
      (frameType f.toNat = 4 → exec (.epoch n f) s =
        .next ((Claims.twkInOrder s n.val f.toNat).setTwk n.val
          (Claims.twkEpoch ((Claims.twkInOrder s n.val f.toNat).twk n.val) f.toNat
            (Claims.twkInOrder s n.val f.toNat).clk.edges)).finish)) ∧
    (((Claims.twkAcked s n.val f.toNat).twk n.val).fl.judge f.toNat = .old →
      1 ≤ frameType f.toNat → frameType f.toNat ≤ 4 →
      exec (.tokens n f) s = .next (Claims.twkAcked s n.val f.toNat).finish) ∧
    (frameType f.toNat = 5 → exec (.twikelRetry n f) s =
      .next (Claims.twkLink (Claims.twkAcked s n.val f.toNat) n.val { ((Claims.twkAcked s n.val f.toNat).twk n.val).fl with
        tx := ((Claims.twkAcked s n.val f.toNat).twk n.val).fl.tx.filter (fun t => t.num.isNone) ++
          (((Claims.twkAcked s n.val f.toNat).twk n.val).fl.replay.dropWhile
            (fun q => q.1.toNat != frameBits f.toNat 4 0 8)).map (fun q =>
              { rank := rankReplay, ready := s.now64, body := q.2, num := some q.1 }) }).finish) ∧
    (frameType f.toNat = 0 → exec (.twikelIdle n f) s = .next (Claims.twkAcked s n.val f.toNat).finish)) ∧
  ((s.twk n.val).up = true → frameOk 64 f.toNat = false → (s.twk n.val).fl.discarding = true →
    exec (.tokens n f) s = .next (s.bump (twkOff n.val 8) 0 16 1).finish) ∧
  ((s.twk n.val).up = false → exec (.tokens n f) s = .next s.finish)

/-- R192-R202: the commands of the Silt queues.
Readings and choices of the model in it: log entries 9, 11, 25, 53, 63. -/
def Obligations.SiltCommands : Prop :=
  ∀ (s : State) (q : Nat),
  (∀ w rest, q < 192 → Claims.pushing s q w rest →
    ((s.queue q).full 1 = true → exec (.siltPush q .word) s =
      .next (s.setQueue q { s.queue q with status := .refuse }).finish) ∧
    ((s.queue q).full 1 = false → exec (.siltPush q .word) s =
      .next (s.putQueue q 1 (s.queue q) (Claims.committed (s.queue q) w rest) false).finish) ∧
    ((s.queue q).full 1 = false → exec (.siltPush q .badParity) s =
      .next ((s.bump (statReg 1) 0 8 1).putQueue q 1 (s.queue q)
        { (s.queue q).rewind 1 with inbox := rest, drop := if w.eop then .none else .rewound, status := .dropRewound } false).finish) ∧
    exec (.siltPush q .abort) s =
      .next ((s.bump (statReg 1) 0 8 1).putQueue q 1 (s.queue q)
        { (s.queue q).rewind 1 with inbox := Claims.afterPacket ((s.queue q).rewind 1).inbox } false).finish) ∧
  (∀ w rest, q < 192 → (s.queue q).inbox = w :: rest → (s.queue q).drop = .flushed →
    exec (.siltPush q .word) s = .next ((s.bump (statReg 1) 16 8 1).putQueue q 1 (s.queue q)
      { s.queue q with inbox := rest, drop := if w.eop then .none else .flushed, status := .dropFlushed } false).finish) ∧
  (q < 192 → (s.queue q).drop ≠ .none → exec (.siltPush q .abort) s = .next (s.putQueue q 1 (s.queue q)
    { s.queue q with inbox := Claims.afterPacket (s.queue q).inbox, drop := .none } false).finish) ∧
  (∀ e : BitVec 8, exec (.siltPop ⟨q, e⟩) s = exec (.siltPop ⟨q, 0⟩) (s.upsetFront q e)) ∧
  (∀ (e : BitVec 8) w rest, q < 192 → e ≠ 0 → (s.queue q).head = w :: rest → s.upsetFront q e =
    s.setQueue q { s.queue q with head := { w with par := w.par ^^^ e.setWidth 2 } :: rest }) ∧
  (q < 192 → (s.queue q).diag = true → exec (.siltPop ⟨q, 0⟩) s = .next s.finish) ∧
  (∀ w t, q < 192 → (s.queue q).diag = false → ((s.queue q).asm ≠ [] ∨ s.linkReady (q / 8) (q % 8) = true) →
    s.behindWrite (q / 8) (s.queue q).asm = false → s.siltTake q 1 = some (w, t) →
    (w.eop = false → exec (.siltPop ⟨q, 0⟩) s =
      .next (t.setQueue q { t.queue q with asm := (t.queue q).asm ++ [w] }).finish) ∧
    (∀ u ws, w.eop = true →
      (t.setQueue q { t.queue q with asm := [] }).takeItem q 1 ((t.queue q).asm ++ [w]) = (u, some ws) →
      exec (.siltPop ⟨q, 0⟩) s =
        .next (u.queueFlit (q / 8) (tokenFlit (itemToken ws) (s.tokenDest (itemToken ws)))).finish) ∧
    (∀ u, w.eop = true →
      (t.setQueue q { t.queue q with asm := [] }).takeItem q 1 ((t.queue q).asm ++ [w]) = (u, none) →
      exec (.siltPop ⟨q, 0⟩) s = .next u.finish)) ∧
  (∀ w t, 256 ≤ q → q < 272 → (s.queue q).diag = false → s.handlerParked (q - 256) = false → s.siltTake q 3 = some (w, t) →
    exec (.siltPop ⟨q, 0⟩) s = .next (((t.noteLost q w).failWord (q - 256) w).1).finish) ∧
  (∀ c w rest, (s.queue q).abortDue = false → (s.queue q).visible (s.cutThr c) ≠ 0 → (s.queue q).head = w :: rest →
    s.siltTake q c = some (Claims.delivered w, s.putQueue q c (s.queue q) (Claims.popped (s.queue q) w rest
      (decide (0 < (s.queue q).openWords) && (s.queue q).stored == (s.queue q).openStored)) true)) ∧
  (∀ c, (s.queue q).abortDue = true → s.siltTake q c = some (Claims.abortWord, (s.bump (statReg c) 8 8 1).putQueue q c
    (s.queue q) { s.queue q with abortDue := false, last := Claims.abortWord } true)) ∧
  (∀ c, siltClass q = some c → (s.queue q).refill = true → (s.queue q).mid ≠ [] →
    exec (.refillDone q []) s = .next (s.putQueue q c (s.queue q)
      { s.queue q with head := (s.queue q).head ++ (s.queue q).mid.take 32, mid := (s.queue q).mid.drop 32 } false).finish) ∧
  (∀ c due t, siltClass q = some c → Claims.dripping s q due → t = Claims.dripped s q due →
    (t.fld (sqOff (4 * c)) 6 2 = 0 → exec (.drip q) s = .next t.finish) ∧
    (t.fld (sqOff (4 * c)) 6 2 = 1 → exec (.drip q) s = .next (t.unreported 4 q (queueSrc q) 0 (queueFn q) 0).finish) ∧
    (t.fld (sqOff (4 * c)) 6 2 = 2 → exec (.drip q) s = .next (t.msi 0 (t.fld (sqOff (4 * c)) 8 11)).finish))

/-- R192, R196, R200: the consumer sees the words in push order.
Readings and choices of the model in it: log entry 63. -/
def Obligations.SiltOrder : Prop :=
  (∀ (cls : Nat) (x : Silt), Claims.words (x.settle cls) = Claims.words x) ∧
  (∀ (cls : Nat) (x : Silt), Claims.words (x.rewind cls) = (Claims.words x).take (x.stored - x.openStored)) ∧
  (∀ (s : State) (q cls : Nat) (x y : Silt) (b : Bool), Claims.words ((s.putQueue q cls x y b).queue q) = Claims.words y) ∧
  (∀ (s : State) (q cls : Nat) (w : SWord) (rest : List SWord), Claims.pushing s q w rest → (s.queue q).full cls = false →
    Claims.words ((s.siltPush q cls .word).queue q) = Claims.words (s.queue q) ++ [Claims.sealed w]) ∧
  (∀ (s t : State) (q cls : Nat) (w : SWord), (s.queue q).abortDue = false → s.siltTake q cls = some (w, t) →
    ∃ v, Claims.words (s.queue q) = v :: Claims.words (t.queue q) ∧ w = Claims.delivered v ∧ w.w.v = v.w.v) ∧
  (∀ (s : State) (q cls : Nat), Claims.words ((s.siltRefill q cls []).queue q) = Claims.words (s.queue q)) ∧
  (∀ (s : State) (q cls : Nat), Claims.words ((s.siltFlush q cls).queue q) = [])

/-- R206-R216: the rows of the storage-pressure controller.
Readings and choices of the model in it: log entries 5, 24, 60. -/
def Obligations.PressureRows : Prop :=
  ∀ (s : State),
  (∀ (n : Fin 6),
    ((s.die n.val).up = true → exec (.dieLevelEvaluation n) s = .next ((s.updDie n.val (fun d =>
      { d with level := Claims.levelOf s (s.die n.val).level 0 (s.dieFigures n.val) })).syncCredits n.val).finish) ∧
    ((s.die n.val).up = false → exec (.dieLevelEvaluation n) s = .next s.finish) ∧
    ((s.die n.val).up = true → exec (.creditWindowRefill n) s = .next ((List.range 64).foldl (fun t k =>
      t.setPe (peKey n.val k) (Claims.refilled s (s.effLevel n.val) (t.pe (peKey n.val k)))) s).finish)) ∧
  (∀ t, t = s.passMod 256 192 → exec .packageFigureSample s = .next (t.upDies.foldl (fun u n =>
    u.updDie n (fun d => { d with figs := [d.occ, d.chainUsed, u.midItems n] })) t).finish) ∧
  (∀ t u, t = s.passMod 256 0 → u = (Claims.leveled t).syncInject →
    exec .packageLevelEvaluation s = .next
      (((u.graphs.map (fun p => p.1)).filter u.quiescent).foldl (fun v g => v.respond 1 g 0 0xFF 0) u).finish) ∧
  (∀ t, t = s.passMod 256 128 → exec .packageLevelApply s = .next (t.upDies.foldl (fun u n =>
    (u.updDie n (fun d => { d with pkgLevel := t.pkgLevel })).syncCredits n) t).finish) ∧
  (∀ t, t = s.passMod 1024 0 → exec .injectCreditRefill s = .next { t with ce := { t.ce with
    injCr := creditMap (fun c v => creditRefill (t.budget t.pkgLevel c) v) t.ce.injCr } }.finish) ∧
  (∀ (n : Fin 6) (c : Fin 8) (e : Nat) (t : State), (s.die n.val).up = true → lget none (s.die n.val).floorSince c.val = some e →
    t = s.passEdges (e + 1000001) →
    (lget false (s.die n.val).floorDone c.val = false → exec (.floorHeld n c) s =
      .next (((t.updDie n.val (fun d => { d with floorDone := lset d.floorDone c.val true })).setFld (tmpOff 0x28) c.val 1 1).err
        0 3 n.val (tmpOff 0x28) c.val 0 0x1F c.val 0).finish) ∧
    (lget false (s.die n.val).floorDone c.val = true → exec (.floorHeld n c) s = .next s.finish)) ∧
  (∀ (n : Fin 6) (r : Region) (b k : Nat) (t : State), (s.die n.val).up = true → s.fullSince n.val r = some (b, k) →
    tfind s.victims (regionKey n.val r) = none → t = s.passCycles n.val (b + k) →
    (t.victim (t.candidates n.val r) = none → exec (.storageDeadlock n r) s = .next t.finish) ∧
    (∀ g, t.victim (t.candidates n.val r) = some g → exec (.storageDeadlock n r) s =
      .next (match r with
        | .overflow => { t with victims := tins t.victims (regionKey n.val r) (t.period n.val) }.respond 2 g 1 n.val 0
        | .lane p c => { t with victims := tins t.victims (regionKey n.val r) (t.period n.val) }.respond 2 g 2 n.val
            (n.val * 512 + p.val * 8 + c.val)).finish))

/-- R7-R12, R448-R452: register writes and reads.
Readings and choices of the model in it: log entries 36, 47, 48, 58. -/
def Obligations.RegisterAccess : Prop :=
  ∀ (s : State) (fn : Fin 17) (off : BitVec 26) (l : Loc),
  (∀ (v : BitVec 32) (be : BitVec 4),
    (s.answers (busTarget fn.val off.toNat) = false → exec (.registerWrite fn off v (Claims.plainWr be)) s = .next s.finish) ∧
    (busTarget fn.val off.toNat = .none → s.answers .none = true →
      exec (.registerWrite fn off v (Claims.plainWr be)) s = .next (s.refuseWrite fn.val (off.toNat / 4 * 4)).finish) ∧
    (busTarget fn.val off.toNat = .reg l → s.answers (.reg l) = true → be ≠ 15 →
      exec (.registerWrite fn off v (Claims.plainWr be)) s =
        .next (s.err 0 2 (if l.row.code = 4 then l.inst else 6) l.off 0 0 fn.val 0 0).finish) ∧
    (busTarget fn.val off.toNat = .reg l → s.answers (.reg l) = true → s.closed fn.val l = true →
      exec (.registerWrite fn off v (Claims.plainWr 15)) s = .next (s.refuseWrite fn.val l.off).finish) ∧
    (Claims.reaches s fn.val off.toNat l →
      (Claims.refuses s l v.toNat →
        exec (.registerWrite fn off v (Claims.plainWr 15)) s = .next (s.refuseWrite fn.val l.off).finish) ∧
      (¬ Claims.refuses s l v.toNat →
        (Claims.discards s l v.toNat = [] → exec (.registerWrite fn off v (Claims.plainWr 15)) s =
          .next ((Claims.stored s l v.toNat).act s l v.toNat 0xFFFFFFFF 0 fn.val).finish) ∧
        (∀ rej, rej = (Claims.discards s l v.toNat).foldl (fun a f => a + f.mask) 0 → rej ≠ 0 →
          exec (.registerWrite fn off v (Claims.plainWr 15)) s =
            .next ((((Claims.stored s l v.toNat).act s l v.toNat 0xFFFFFFFF rej fn.val).rejectBit fn.val
              l.row.code).refuseWrite fn.val l.off).finish)))) ∧
  (∀ (be : BitVec 4),
    (s.pcieUp = false → exec (.registerRead fn off (Claims.plainRd be)) s = .next s.finish) ∧
    (s.pcieUp = true → (busTarget fn.val off.toNat = .none ∨ s.answers (busTarget fn.val off.toNat) = false) →
      exec (.registerRead fn off (Claims.plainRd be)) s = .next (s.emit (.regData (BitVec.ofNat 32 (enabled be.toNat 0)))).finish) ∧
    (busTarget fn.val off.toNat = .reg l → s.answers (.reg l) = true →
      (l.row.code = 4 → (s.die l.inst).up = false → exec (.registerRead fn off (Claims.plainRd be)) s =
        .next (s.emit (.regData (BitVec.ofNat 32 (enabled be.toNat 0)))).finish) ∧
      ((l.row.code ≠ 4 ∨ (s.die l.inst).up = true) → l.row.id ≠ .lmMsOccHwm → l.row.id ≠ .sqDbgPopLo →
        (s.captured l = none → exec (.registerRead fn off (Claims.plainRd be)) s = .next ((s.clearRc l 0xFFFFFFFF).emit
          (.regData (BitVec.ofNat 32 (enabled be.toNat (s.regVal fn.val l))))).finish) ∧
        (∀ o hi, s.captured l = some (o, hi) → exec (.registerRead fn off (Claims.plainRd be)) s = .next ((s.setReg o hi).emit
          (.regData (BitVec.ofNat 32 (enabled be.toNat (s.regVal fn.val l))))).finish)) ∧
      ((s.die l.inst).up = true → l.row.id = .lmMsOccHwm → exec (.registerRead fn off (Claims.plainRd be)) s =
        .next ((s.updDie l.inst (fun d => { d with hwm := d.occ })).emit
          (.regData (BitVec.ofNat 32 (enabled be.toNat (s.regVal fn.val l))))).finish)))

/-- R7, R8, R338-R341, R451: the other forms of a host access.
Readings and choices of the model in it: log entries 7, 48, 52, 58, 64. -/
def Obligations.HostForms : Prop :=
  ∀ (s : State) (fn : Fin 17) (off : BitVec 26) (a : Nat), a = off.toNat / 4 * 4 →
  (∀ (v : BitVec 32) (be : BitVec 4) (sp : HostSpace) (more : List (BitVec 32 × BitVec 4)),
    (s.pcieUp = true → exec (.registerWrite fn off v ⟨be, sp, more, true⟩) s =
      .next ((s.err 0 5 6 0 0 0 0x1F (Config.aerCap + 4) 12).emit (.aer 12)).finish) ∧
    (s.pcieUp = false → exec (.registerWrite fn off v ⟨be, sp, more, true⟩) s = .next s.finish) ∧
    exec (.registerWrite fn off v ⟨be, sp, more, false⟩) s = .next (((v, be) :: more).zipIdx.foldl (fun t p =>
      t.spaceWrite sp fn.val (off.toNat + 4 * p.2) p.1.1.toNat p.1.2.toNat) s).finish) ∧
  (∀ (v be : Nat),
    (∀ vec dw, busTarget fn.val off.toNat = .vector vec dw → s.answers (.vector vec dw) = true →
      s.spaceWrite .bar0 fn.val off.toNat v be = Claims.vecSet s fn.val vec dw (Claims.overlaid be (s.vectorRd fn.val vec dw) v)) ∧
    (∀ w, busTarget fn.val off.toNat = .pba w → s.spaceWrite .bar0 fn.val off.toNat v be = s) ∧
    (∀ k, busTarget fn.val off.toNat = .latch k → s.answers (.latch k) = true →
      (be = 15 → s.spaceWrite .bar0 fn.val off.toNat v be = (s.latchRelease k fn.val).1) ∧
      (be ≠ 15 → s.spaceWrite .bar0 fn.val off.toNat v be = s.err 0 2 6 (0x240000 + 4 * k) 0 0 fn.val 0 0)) ∧
    (s.pcieUp = true → fn.val = 0 → s.ready = true → a < 0x8000 → s.spaceWrite .bar4 fn.val off.toNat v be =
      Claims.vecSet s 0 (a / 16) (a / 4 % 4) (Claims.overlaid be (s.vectorRd 0 (a / 16) (a / 4 % 4)) v)) ∧
    (s.pcieUp = false ∨ fn.val ≠ 0 ∨ s.ready = false ∨ 0x8000 ≤ a → s.spaceWrite .bar4 fn.val off.toNat v be = s) ∧
    (∀ w, s.pcieUp = true → fn.val = 0 → a = Config.pcieCap + 8 → w = Claims.overlaid be (s.cfgVal 0 a).toNat v →
      s.spaceWrite .cfg fn.val off.toNat v be = { s with cfg := { s.cfg with
        mps := BitVec.ofNat 3 (w / 2 ^ 5), mrrs := BitVec.ofNat 3 (w / 2 ^ 12) } }) ∧
    (s.pcieUp = false ∨ fn.val ≠ 0 → s.spaceWrite .cfg fn.val off.toNat v be = s)) ∧
  (∀ (be : BitVec 4) (sp : HostSpace) (more : List (BitVec 4)),
    exec (.registerRead fn off ⟨be, sp, more⟩) s = .next ((be :: more).zipIdx.foldl (fun t p =>
      t.hostRead sp fn.val (off.toNat + 4 * p.2) p.1.toNat) s).finish ∧
    (s.pcieUp = false → s.hostRead sp fn.val off.toNat be.toNat = s) ∧
    (s.pcieUp = true → ∀ t (d : Nat), s.spaceRead sp fn.val off.toNat = (t, d) →
      s.hostRead sp fn.val off.toNat be.toNat = t.emit (.regData (BitVec.ofNat 32 (enabled be.toNat d))))) ∧
  (∀ vec dw, busTarget fn.val off.toNat = .vector vec dw → s.answers (.vector vec dw) = true →
    s.spaceRead .bar0 fn.val off.toNat = (s, s.vectorRd fn.val vec dw)) ∧
  (∀ w, busTarget fn.val off.toNat = .pba w → s.answers (.pba w) = true →
    s.spaceRead .bar0 fn.val off.toNat = (s, s.pbaRd fn.val w)) ∧
  (∀ k, busTarget fn.val off.toNat = .latch k → s.answers (.latch k) = true → s.spaceRead .bar0 fn.val off.toNat =
    ((s.latchAcquire k fn.val 0 0 0).1, (s.latchAcquire k fn.val 0 0 0).2.toNat)) ∧
  (fn.val = 0 → s.ready = true →
    (a < 0x8000 → s.spaceRead .bar4 fn.val a = (s, s.vectorRd 0 (a / 16) (a / 4 % 4))) ∧
    (0x8000 ≤ a → a < 0x8100 → s.spaceRead .bar4 fn.val a = (s, s.pbaRd 0 ((a - 0x8000) / 4))) ∧
    (0x8100 ≤ a → s.spaceRead .bar4 fn.val a = (s, 0))) ∧
  (fn.val ≠ 0 ∨ s.ready = false → s.spaceRead .bar4 fn.val a = (s, 0)) ∧
  (a = 0 → fn.val = 0 → s.spaceRead .cfg fn.val off.toNat = (s, 0x88101F3C)) ∧
  (a = 8 → s.spaceRead .cfg fn.val off.toNat = (s, 0x12000001)) ∧
  (a = Config.pcieCap + 0x10 → fn.val = 0 → s.cfg.gen < 16 → s.cfg.width < 64 →
    s.spaceRead .cfg fn.val off.toNat = (s, s.cfg.gen * 2 ^ 16 + s.cfg.width * 2 ^ 20))

/-- R9, R12, R376: the part of a write that one field takes.
Readings and choices of the model in it: log entry 47. -/
def Obligations.FieldWrites : Prop :=
  ∀ (s t : State) (o v : Nat) (l : Loc) (f : Field), locate o = some l →
  (Claims.storesField s l v f →
    (f.acc = .rw → f.cls ≠ .boundary →
      (State.putField s l v t f).fld l.off f.lsb f.width = bitsOf v f.lsb f.width) ∧
    (f.acc = .rw → f.cls = .boundary → s.running l f.lsb = false →
      (State.putField s l v t f).fld l.off f.lsb f.width = bitsOf v f.lsb f.width ∧
      ∀ x, tfind (State.putField s l v t f).shadows l.off = some x → x.mask &&& BitVec.ofNat 32 f.mask = 0) ∧
    (f.acc = .rw → f.cls = .boundary → s.running l f.lsb = true →
      (State.putField s l v t f).reg l.off = t.reg l.off ∧
      ∃ x, tfind (State.putField s l v t f).shadows l.off = some x ∧
        x.mask &&& BitVec.ofNat 32 f.mask = BitVec.ofNat 32 f.mask ∧
        x.val &&& BitVec.ofNat 32 f.mask = BitVec.ofNat 32 v &&& BitVec.ofNat 32 f.mask) ∧
    (f.acc = .w1c → (State.putField s l v t f).fld l.off f.lsb f.width =
      Nat.land (t.fld l.off f.lsb f.width) (2 ^ f.width - 1 - bitsOf v f.lsb f.width)) ∧
    (f.acc = .ro ∨ f.acc = .wo ∨ f.acc = .rc → State.putField s l v t f = t)) ∧
  (s.lockedOut l v f = true ∨ ownField l.row.id f.lsb = true → State.putField s l v t f = t) ∧
  (∀ r, r ≠ l.off → (State.putField s l v t f).reg r = t.reg r) ∧
  (f ∈ l.row.fields → ∀ i, i < f.lsb ∨ f.lsb + f.width ≤ i →
    bitOf ((State.putField s l v t f).reg l.off) i = bitOf (t.reg l.off) i)

/-- R43, R61, R200, R228, R260, R278, R301, R371: the writes of one register by the PF.
Readings and choices of the model in it: log entries 19, 33, 47. -/
def Obligations.RegisterRows : Prop :=
  ∀ (s : State) (v : BitVec 32) (l : Loc),
  (∀ (k : Fin 12), Claims.isWrite s (.crcInject k v) 0 (lnkOff k.val 4) v.toNat ∧
    (Claims.accepts s 0 (lnkOff k.val 4) v.toNat l →
      (bitOf v.toNat 1 = false → exec (.crcInject k v) s = .next (Claims.stored s l v.toNat).finish) ∧
      (bitOf v.toNat 1 = true → exec (.crcInject k v) s =
        .next (Claims.injected (Claims.stored s l v.toNat) k.val).finish))) ∧
  (Claims.isWrite s (.flush v) 0 (sqOff 0x8C) v.toNat ∧
    (∀ c, Claims.accepts s 0 (sqOff 0x8C) v.toNat l → siltClass s.sqSel = some c →
      (bitOf v.toNat 1 = false → exec (.flush v) s = .next (Claims.diagSet s (bitOf v.toNat 0)).finish) ∧
      (bitOf v.toNat 1 = true → c ≠ 3 → exec (.flush v) s =
        .next ((Claims.diagSet s (bitOf v.toNat 0)).siltFlush s.sqSel c).finish) ∧
      (bitOf v.toNat 1 = true → c = 3 → exec (.flush v) s =
        .next ((Claims.diagSet s (bitOf v.toNat 0)).flushFail (s.sqSel - 256)).finish))) ∧
  (∀ (n : Fin 6), Claims.isWrite s (.isdPoolBuild n v) 0 (lmOff n.val 0x208) v.toNat ∧
    (Claims.accepts s 0 (lmOff n.val 0x208) v.toNat l →
      (s.anyGraph = false → exec (.isdPoolBuild n v) s = .next ((Claims.stored s l v.toNat).updDie n.val
        (Die.buildPool (bitsOf v.toNat 0 20))).finish) ∧
      (s.anyGraph = true → exec (.isdPoolBuild n v) s = .next (Claims.stored s l v.toNat).finish))) ∧
  (∀ (b : Nat), (bankKind b).isSome = true → Claims.isWrite s (.bankRequest b v) 0 (bankReg b) v.toNat ∧
    (Claims.accepts s 0 (bankReg b) v.toNat l → exec (.bankRequest b v) s =
      .next ((Claims.wakeSet s b (bitOf v.toNat 2)).bankAsk b (bitsOf v.toNat 0 2)).finish)) ∧
  (∀ (ch : Fin 32), Claims.isWrite s (.bmvDoorbell ch v) 0 (bmvOff ch.val 0x10) v.toNat ∧
    (Claims.accepts s 0 (bmvOff ch.val 0x10) v.toNat l →
      ((s.chan ch.val).active = false → s.bmvOwner ch.val = 0 → exec (.bmvDoorbell ch v) s =
        .next (Claims.listRead (s.setChan ch.val { s.chan ch.val with
          active := true, byList := true, starter := 0, running := false, entry := 0, count := bitsOf v.toNat 0 13,
          ahead := none, stopping := none, doneWords := 0 }) ch.val 0).finish) ∧
      ((s.chan ch.val).active = true ∨ s.bmvOwner ch.val ≠ 0 → exec (.bmvDoorbell ch v) s =
        .next ((s.setFld (bmvOff ch.val 0x14) 2 1 1).err 0 0 6 (bmvOff ch.val 0x14) 2 0 0 ch.val 0).finish))) ∧
  (∀ (p : Fin 16), Claims.isWrite s (.portEnable p v) 0 (pfpOff p.val 4) (v ||| 1).toNat ∧
    Claims.isWrite s (.portDisable p v) 0 (pfpOff p.val 4) (v &&& ~~~1).toNat ∧
    (∀ t, Claims.accepts s 0 (pfpOff p.val 4) (v ||| 1).toNat l →
      t = (Claims.stored s l (v ||| 1).toNat).setFld (pfpOff p.val 4) 0 1 1 →
      (s.pfpOn p.val = false → t.pfpLead p.val = p.val → exec (.portEnable p v) s = .next (t.portEnable p.val).finish) ∧
      (s.pfpOn p.val = true ∨ t.pfpLead p.val ≠ p.val → exec (.portEnable p v) s = .next t.finish)) ∧
    (∀ t, Claims.accepts s 0 (pfpOff p.val 4) (v &&& ~~~1).toNat l →
      t = (Claims.stored s l (v &&& ~~~1).toNat).setFld (pfpOff p.val 4) 0 1 0 →
      (s.pfpOn p.val = true → t.pfpLead p.val = p.val → exec (.portDisable p v) s = .next (t.portDisable p.val).finish) ∧
      (s.pfpOn p.val = false ∨ t.pfpLead p.val ≠ p.val → exec (.portDisable p v) s = .next t.finish))) ∧
  (Claims.isWrite s (.tbArm v) 0 (epochOff 0) v.toNat ∧
    (Claims.accepts s 0 (epochOff 0) v.toNat l → exec (.tbArm v) s = .next (Claims.stored s l v.toNat).finish))

/-- R340, R346-R349, R383, R402-R406, R419, R426: the host's register rows.
Readings and choices of the model in it: log entries 47, 52. -/
def Obligations.HostRegisterRows : Prop :=
  ∀ (s : State) (v : BitVec 32) (l : Loc),
  (∀ (fn : Fin 17) (q : Fin 64), Claims.mayName fn.val q.val →
    (Claims.accepts s fn.val (Claims.pairOff fn.val q.val 0x18) v.toNat l →
      (s.qpOn q.val = true → bitsOf v.toNat 0 12 < s.sqSize q.val → exec (.qpSqTail fn q v) s =
        .next (s.setQp q.val { s.qp q.val with tail := bitsOf v.toNat 0 12 }).finish) ∧
      (s.qpOn q.val = false ∨ s.sqSize q.val ≤ bitsOf v.toNat 0 12 → exec (.qpSqTail fn q v) s =
        .next ((s.setFld (Sys2Proof.Machine.qpOff q.val 0x28) 0 1 1).err 0 0 6 (Sys2Proof.Machine.qpOff q.val 0x28) 0 0
          (qpFn q.val) q.val (bitsOf v.toNat 0 12)).finish)) ∧
    (Claims.accepts s fn.val (Claims.pairOff fn.val q.val 0x24) v.toNat l →
      ((s.qp q.val).writing = false → exec (.qpCqHead fn q v) s = .next (Claims.headMoved s q.val v.toNat).finish) ∧
      ((s.qp q.val).writing = true → exec (.qpCqHead fn q v) s =
        .next ((Claims.headMoved s q.val v.toNat).ringWrite q.val).finish)) ∧
    (Claims.accepts s fn.val (Claims.pairOff fn.val q.val 0x14) (v ||| 1).toNat l →
      (s.qpOn q.val = false → exec (.queuePairEnable fn q v) s =
        .next ((Claims.pairBit s l q.val (v ||| 1).toNat 1).setQp q.val Qp.reset).finish) ∧
      (s.qpOn q.val = true → exec (.queuePairEnable fn q v) s =
        .next (Claims.pairBit s l q.val (v ||| 1).toNat 1).finish)) ∧
    (Claims.accepts s fn.val (Claims.pairOff fn.val q.val 0x14) (v &&& ~~~1).toNat l →
      (s.qpOn q.val = true → exec (.queuePairDisable fn q v) s =
        .next ((Claims.pairBit s l q.val (v &&& ~~~1).toNat 0).qpDisable q.val).finish) ∧
      (s.qpOn q.val = false → exec (.queuePairDisable fn q v) s =
        .next (Claims.pairBit s l q.val (v &&& ~~~1).toNat 0).finish))) ∧
  (Claims.accepts s 0 (erqOff 4) v.toNat l → exec (.erqRd v) s = .next { s with erq := { s.erq with
    rd := BitVec.ofNat 8 (bitsOf v.toNat 0 8),
    pending := s.erq.pending - (bitsOf v.toNat 0 8 + 256 - s.erq.rd.toNat) % 256 } }.finish) ∧
  (Claims.accepts s 0 (mcOff 0x34) v.toNat l → exec (.rbBurn v) s =
    .next { s with blend := { s.blend with burning := some (bitsOf v.toNat 0 7) } }.finish) ∧
  (Claims.accepts s 0 (mcOff 0x40) v.toNat l →
    (bitOf v.toNat 0 = true → exec (.pssCommit v) s = .next s.pssCommit.finish) ∧
    (bitOf v.toNat 0 = false → exec (.pssCommit v) s = .next s.finish)) ∧
  (∀ (d : Fin 80), Claims.accepts s 0 (pwrOff (0x100 + 4 * d.val)) v.toNat l → exec (.domainRequest d v) s =
    .next ((s.setDom d.val { s.dom d.val with req := bitOf v.toNat 0 }).domFollow d.val).finish) ∧
  (Claims.accepts s 0 (startOff 4) (v ||| 1).toNat l →
    (bitOf v.toNat 1 = false → exec (.startCtrlRestart v) s =
      .next { s with start := { s.start with due := some 5 } }.finish) ∧
    (bitOf v.toNat 1 = true → exec (.startCtrlRestart v) s =
      .next { s with start := { s.start with due := some 5, cleared := true, sinceClear := 0 } }.finish)) ∧
  (∀ (fn : Fin 17) (vec : Nat),
    (vec < vecCount fn.val → tget false s.msix.pba (fn.val * 2048 + vec) = false →
      exec (.msiXUnmask fn vec) s = .next (Claims.unmasked s (fn.val * 2048 + vec)).finish) ∧
    (∀ t, vec < vecCount fn.val → tget false s.msix.pba (fn.val * 2048 + vec) = true →
      t = Claims.unmasked s (fn.val * 2048 + vec) → exec (.msiXUnmask fn vec) s = .next ({ t with msix := { t.msix with
        pba := tput false t.msix.pba (fn.val * 2048 + vec) false } }.emit (.msix fn.val vec)).finish) ∧
    (vecCount fn.val ≤ vec → exec (.msiXUnmask fn vec) s = .next s.finish)) ∧
  (∀ (be : BitVec 4), s.pcieUp = true → s.ready = true →
    (s.sqDiag s.sqSel = true → exec (.diagPop be) s =
      .next ((s.diagTake.1.setReg (sqOff 0x94) s.diagTake.2.2).emit
        (.regData (BitVec.ofNat 32 (enabled be.toNat (fieldOf s.diagTake.2.1.v 0 32))))).finish) ∧
    (s.sqDiag s.sqSel = false → exec (.diagPop be) s =
      .next (s.emit (.regData (BitVec.ofNat 32 (enabled be.toNat 0)))).finish)) ∧
  (∀ (b : Bool), s.pcieUp = true → exec (.pciePowerState b) s = .next { s with d3hot := b }.finish)

/-- R236, R260-R270, R339, R341: the rows of the Block Mover.
Readings and choices of the model in it: log entries 33, 56, 64. -/
def Obligations.BlockMover : Prop :=
  ∀ (s : State),
  (∀ (ch : Fin 32),
    (∀ data, (s.chan ch.val).reading = false → exec (.listEntryFetch ch data) s = .next s.finish) ∧
    (∀ data t e, (s.chan ch.val).reading = true → t = Claims.reported s data → Claims.entry t ch.val data e →
      exec (.listEntryFetch ch data) s = .next (Claims.entered t ch.val e).finish) ∧
    ((s.chan ch.val).reading = true → exec (.completionTimeout (.listEntry ch)) s =
      .next (Claims.entered (s.aer 14) ch.val (0x16, [])).finish)) ∧
  ((256 ≤ s.bmvHeld ∨ s.bmvPick = none) → exec .burstGrant s = .next s.finish) ∧
  (∀ l c k d t lo, s.bmvHeld < 256 → s.bmvPick = some (l, c) → k = (s.chan c).granted → d = Claims.running s c →
    lo = fmtBytes d.sf (64 * k) →
    t = { s.setChan c { s.chan c with bursts := (s.chan c).bursts ++ [{ k := k, words := none, at_ := 0 }],
                                      granted := k + 1 } with lastGrant := lset s.lastGrant l c } →
    (d.sf = 0 → exec .burstGrant s = .next t.finish) ∧
    (d.sf ≠ 0 → exec .burstGrant s = .next (t.readHost (d.src + lo)
      (fmtBytes d.sf (64 * k + min 64 (d.n - 64 * k)) - lo) d.nsS (s.bmvOwner c)).finish)) ∧
  (∀ (ch : Fin 32) (data : HostData),
    ((s.chan ch.val).unread = none → exec (.burstReadDone ch data) s = .next s.bmvGoOn.finish) ∧
    (∀ b t r y, (s.chan ch.val).unread = some b →
      t = (if (Claims.running s ch.val).sf = 0 then s else Claims.reported s data) →
      r = Claims.readBurst t (Claims.running s ch.val) b.k data → y = r.s.chan ch.val →
      (r.err = none → exec (.burstReadDone ch data) s =
        .next (r.s.setChan ch.val { y with bursts := y.bursts.map (Claims.fills b r.words) }).bmvGoOn.finish) ∧
      (∀ c, r.err = some c → exec (.burstReadDone ch data) s = .next (r.s.setChan ch.val { y with
        bursts := (y.bursts.filter (fun x => decide (x.k ≤ b.k))).map (Claims.fills b r.words),
        err := some (64 * b.k + r.words.length, c) }).bmvGoOn.finish))) ∧
  ((∀ ch, s.bmvStep ch = none) → s.bmvGoOn = s) ∧
  (∀ (d : Desc) (k i : Nat) (data : HostData) (a : Bread), a.err = none →
    (d.sf = 0 → a.s.bmvRefused (d.src + (64 * k + i)) false = true → Bread.step d k data a i = { a with err := some 0x10 }) ∧
    (∀ x, d.sf ≠ 0 → data.errAt = some x → x < (i * fmtBits d.sf + fmtBits d.sf + 7) / 8 →
      Bread.step d k data a i = { a with err := some 0x11 }) ∧
    (∀ t w, ((d.sf = 0 ∧ a.s.bmvRefused (d.src + (64 * k + i)) false = false ∧ a.s.idleRd 0x17 (d.src + (64 * k + i)) = (t, w)) ∨
        (d.sf ≠ 0 ∧ data.errAt = none ∧ t = a.s ∧ w.v = hostWord d data.bytes i ∧
          w.p = epHit data.ep (i * fmtBits d.sf / 8) ((i * fmtBits d.sf + fmtBits d.sf + 7) / 8))) →
      (w.p = true → d.sop = true → Bread.step d k data a i = { a with s := t, err := some 0x13 }) ∧
      (w.p = false → fitsHost d w.v = false → Bread.step d k data a i = { a with s := t, err := some 0x12 }) ∧
      ((w.p = true ∧ d.sop = false) ∨ (w.p = false ∧ fitsHost d w.v = true) →
        Bread.step d k data a i = { a with s := t, words := a.words ++ [w] }))) ∧
  (∀ (ch : Nat) (b : Burst) (rest : List Burst) (ws : List PWord) (d : Desc) (a : Nat), (s.chan ch).bursts = b :: rest →
    b.words = some ws → d = Claims.running s ch → a = d.dst + 64 * b.k + b.at_ →
    (d.df ≠ 0 → s.bmvStep ch = some ((ws.foldl (fun t w => t.chanWord ch w)
      (State.hostBytes 512 s (d.dst + fmtBytes d.df (64 * b.k)) (destBytes d ws) d.nsD (s.bmvOwner ch))).updChan ch
        (fun y => { y with bursts := rest }))) ∧
    (d.df = 0 → ws.length ≤ b.at_ →
      (s.chanHeld ch = [] → s.bmvStep ch = some (s.setChan ch { s.chan ch with bursts := rest })) ∧
      (s.chanHeld ch ≠ [] → s.bmvStep ch = none)) ∧
    (∀ w, d.df = 0 → ws[b.at_]? = some w →
      (s.bmvRefused a true = true → s.bmvStep ch = some (s.setChan ch { s.chan ch with
        bursts := [{ b with words := some (ws.take b.at_) }], err := some (64 * b.k + b.at_, 0x10) })) ∧
      (s.bmvRefused a true = false → (∃ h ∈ s.chanHeld ch, h.addr / 131072 ≠ a / 131072) → s.bmvStep ch = none) ∧
      (s.bmvRefused a true = false → (∀ h ∈ s.chanHeld ch, h.addr / 131072 = a / 131072) → s.bmvStep ch =
        some ((s.setChan ch { s.chan ch with bursts := { b with at_ := b.at_ + 1 } :: rest }).idleWr a w (some ch))))) ∧
  (∀ (ch : Fin 32), (s.bmvAtEnd ch.val = false → exec (.descriptorEnd ch) s = .next s.finish) ∧
    (∀ t, s.bmvAtEnd ch.val = true → Claims.silent (Claims.running s ch.val) → (s.chan ch.val).byList = true →
      (s.chan ch.val).status = 0 →
      t = s.setChan ch.val { s.chan ch.val with running := false, entry := (s.chan ch.val).entry + 1, last := 0, err := none } →
      ((s.chan ch.val).stopping = none → (s.chan ch.val).entry + 1 < (s.chan ch.val).count →
        ((s.chan ch.val).ahead = none → exec (.descriptorEnd ch) s = .next t.finish) ∧
        (∀ e, (s.chan ch.val).ahead = some e → exec (.descriptorEnd ch) s = .next (Claims.entered t ch.val e).finish)) ∧
      ((s.chan ch.val).count ≤ (s.chan ch.val).entry + 1 → exec (.descriptorEnd ch) s =
        .next ((s.setChan ch.val { (s.chan ch.val).idle with last := 0 }).bmvStopped ch.val 0 0
          (s.chan ch.val).doneWords).finish)) ∧
    (∀ t d, s.bmvAtEnd ch.val = true → d = Claims.running s ch.val → d.recEn = true → d.latchEn = false →
      d.tokEn = false → d.msixEn = false → (s.chan ch.val).byList = true → (s.chan ch.val).status = 0 →
      (s.chan ch.val).count ≤ (s.chan ch.val).entry + 1 →
      t = s.emit (.hostWrite d.recAddr (bmvRec (s.chan ch.val) ch.val d) d.nsD (s.bmvOwner ch.val)) →
      exec (.descriptorEnd ch) s = .next ((t.setChan ch.val { (s.chan ch.val).idle with last := 0 }).bmvStopped ch.val 0 0
          (s.chan ch.val).doneWords).finish))

/-- R36, R40, R344: the BAR2 window.
Readings and choices of the model in it: log entries 12, 48. -/
def Obligations.Bar2Window : Prop :=
  ∀ (s : State) (off : Nat),
  (∀ len, (s.pcieUp = false ∨ bar2Size < off + len) → exec (.bar2Read off len) s = .next s.finish) ∧
  (∀ len, s.pcieUp = true → off + len ≤ bar2Size → s.ready = false →
    exec (.bar2Read off len) s = .next (s.emit (.bar2Data (List.replicate len 0) false)).finish) ∧
  (∀ len r, Claims.inBar2 s off len → r = s.bar2Words off len → exec (.bar2Read off len) s =
    .next (r.1.emit (.bar2Data (slice ((r.2.map (fun w => leBytes 8 w.v.toNat)).flatten) (off % 8) len)
      (r.2.any (fun w => w.p)))).bmvGoOn.finish) ∧
  (∀ t w, Claims.inBar2 s off 8 → off % 8 = 0 → s.bar2RdRefused (s.bar2Word off) = false →
    s.idleRd 0 (s.bar2Word off) = (t, w) →
    exec (.bar2Read off 8) s = .next (t.emit (.bar2Data (leBytes 8 w.v.toNat) w.p)).bmvGoOn.finish) ∧
  (Claims.inBar2 s off 8 → off % 8 = 0 → s.bar2RdRefused (s.bar2Word off) = true → exec (.bar2Read off 8) s =
    .next ((s.unreported 2 0 6 0 0 (s.bar2Word off)).emit (.bar2Data (List.replicate 8 0) false)).bmvGoOn.finish) ∧
  (∀ data ep, (s.pcieUp = false ∨ s.ready = false ∨ bar2Size < off + data.length) →
    exec (.bar2Write off data ep) s = .next s.finish) ∧
  (∀ (data : List (Option Byte)) (ep : Bool) (t : State), Claims.inBar2 s off 8 → off % 8 = 0 → data.length = 8 →
    t = (if ep then s.aer aerPoison else s) →
    ((∀ i < 5, (lget none data i).isSome = true) →
      (t.bar2WrRefused (s.bar2Word off) = false → exec (.bar2Write off data ep) s =
        .next (t.idleWr (s.bar2Word off) (Claims.laneWord (data.take 5) ep) none).finish) ∧
      (t.bar2WrRefused (s.bar2Word off) = true → exec (.bar2Write off data ep) s =
        .next (t.unreported 2 1 6 0 0 (s.bar2Word off)).finish)) ∧
    ((∃ i < 5, (lget none data i).isSome = true) → (∃ i < 5, lget none data i = none) →
      exec (.bar2Write off data ep) s = .next (t.unreported 3 1 6 0 0 (s.bar2Word off)).finish) ∧
    ((∀ i < 5, lget none data i = none) → exec (.bar2Write off data ep) s = .next t.finish))

/-- R106, R234, R235, R344: what the storing rows leave unchanged in memory.
Readings and choices of the model in it: log entry 3. -/
def Obligations.MemoryFrames : Prop :=
  ∀ (s : State), Safety.Quiet s = true →
  (∀ (off x : Nat) (data : List (Option Byte)), Claims.inBar2 s off 8 → off % 8 = 0 → data.length = 8 →
    (∀ i < 5, (lget none data i).isSome = true) → s.kindOf (s.bar2Word off) = .ddr x → x < s.carve →
    Claims.writesOnly (.bar2Write off data false) s (s.bar2Word off) (Claims.laneWord (data.take 5) false)) ∧
  (∀ (d : Fin 24) (f : BitVec 128) (x : Nat) (rest : List (Option (BitVec 9) × BitVec 128)), flitType f = ftWr →
    Claims.front s d.val (some (s.dir d.val).expect) f rest → flitOk f = true → flitBad f = false →
    flitDest f = dirTo d.val → s.kindOf (flitAddr f) = .ddr x →
    Claims.writesOnly (.memWr d 0) s (flitAddr f) (flitData f)) ∧
  (∀ (n : Fin 6) (k : Fin 64) (pre rest : List WBuf) (e : WBuf),
    (s.die n.val).wbuf = pre ++ e :: rest → e.pe = k.val → pre.all (fun x => x.pe != k.val) = true →
    pre.all (fun x => x.addr != e.addr) = true →
    s.bankState (n.val * 256 + (e.addr % 0x1000000) / 131072) = 0 →
    Claims.writesOnly (.writeBufferDrain n k) s e.addr e.w) ∧
  (∀ (n : Fin 6) (h : HeldWr), (s.die n.val).held = [h] → Claims.noBurst s →
    (s.die n.val).wbuf.all (fun b => b.addr != h.addr) = true → s.bankState (frameBank n.val h.addr) = 0 →
    Claims.writesOnly (.heldWriteLand n) s h.addr h.w) ∧
  (∀ (fn : Fin 17) (off : BitVec 26) (be : BitVec 4) (l : Loc), busTarget fn.val off.toNat = .reg l →
    l.row.id ≠ .sqDbgPopLo → Claims.writesNothing (.registerRead fn off (Claims.plainRd be)) s) ∧
  (∀ (fn : Fin 17) (off : BitVec 26) (be : BitVec 4) (sp : HostSpace) (hi : List (BitVec 4)), sp ≠ .bar0 →
    Claims.writesNothing (.registerRead fn off ⟨be, sp, hi⟩) s) ∧
  (∀ (off x : Nat), Claims.inBar2 s off 8 → off % 8 = 0 → s.kindOf (s.bar2Word off) = .ddr x → Claims.noBurst s →
    Claims.writesNothing (.bar2Read off 8) s) ∧
  (∀ (d : Fin 24), Claims.writesNothing (.d2dAckDue d) s) ∧
  (∀ (p : Fin 16), (s.port p.val).active = true → (s.port p.val).fl.discarding = false →
    (s.port p.val).fl.owesAck = true → Claims.writesNothing (.pfpAckDue p) s)

/-- R347, R351, R354-R356: the fetch of a command.
Readings and choices of the model in it: log entries 38, 64. -/
def Obligations.CommandFetch : Prop :=
  ∀ (s : State) (q : Fin 64),
  (∀ r, (s.engineOn = false ∨ s.fetchPick ≠ some q.val) → exec (.commandFetch q r) s = .next s.finish) ∧
  (Claims.serves s q.val →
    (∀ pkt c t, c = Claims.made s q.val pkt → t = Claims.passed s q.val →
      (c.fence = true → s.outstanding q.val = true → exec (.commandFetch q (.ok pkt)) s =
        .next { Claims.ringAsked s q.val with ce := { (Claims.ringAsked s q.val).ce with
          fenceWait := (Claims.ringAsked s q.val).ce.fenceWait ++ [q.val] } }.finish) ∧
      ((c.fence = false ∨ s.outstanding q.val = false) →
        (∀ st w0 w1, t.cmdRefused c = some (st, w0, w1) →
          exec (.commandFetch q (.ok pkt)) s = .next (t.answer c st w0 w1).finish) ∧
        (t.cmdRefused c = none → c.atBoundary = false → exec (.commandFetch q (.ok pkt)) s =
          .next ({ t with ce := { t.ce with begun := t.ce.begun ++ [c] } }.bump (hostOff 0x88) 0 32 1).finish) ∧
        (t.cmdRefused c = none → c.atBoundary = true → t.ce.deferred.length + t.ce.due.length < 64 →
          exec (.commandFetch q (.ok pkt)) s =
            .next ({ t with ce := { t.ce with deferred := t.ce.deferred ++ [c] } }.answer c 1 0 0).finish) ∧
        (t.cmdRefused c = none → c.atBoundary = true → 64 ≤ t.ce.deferred.length + t.ce.due.length →
          exec (.commandFetch q (.ok pkt)) s = .next (t.answer c 0x30 0 0).finish))) ∧
    (∀ t, t = (Claims.ringAsked s q.val).aer 12 → exec (.commandFetch q .poisoned) s = .next (Claims.badFetch t q.val).finish) ∧
    (∀ t, t = (Claims.ringAsked s q.val).aer 15 → exec (.commandFetch q .failed) s = .next (Claims.badFetch t q.val).finish) ∧
    (∀ t, t = (Claims.ringAsked s q.val).aer 14 →
      exec (.completionTimeout (.fetch q)) s = .next (Claims.badFetch t q.val).finish)) ∧
  (0 < (s.qp q.val).ahead → s.ringRead q.val = s) ∧
  (∀ k x, (s.qp q.val).ahead = 0 → x = s.qp q.val →
    k = min 8 (min ((x.tail + s.sqSize q.val - x.head) % s.sqSize q.val) (s.sqSize q.val - x.head)) →
    s.ringRead q.val = (s.setQp q.val { x with ahead := k }).readHost (s.sqBase q.val + 64 * x.head) (64 * k)
      (s.flag (Sys2Proof.Machine.qpOff q.val 0x14) 1) (qpFn q.val)) ∧
  (s.d3hot = true → exec .deferredCommandBegin s = .next s.finish) ∧
  (∀ e u, s.d3hot = false → s.ce.deferAt = some e → u = (s.goUntil e.toNat).bump (hostOff 0x88) 0 32 s.ce.due.length →
    exec .deferredCommandBegin s = .next (Claims.dueBegun u).finish) ∧
  (s.ce.deferAt = none → exec .deferredCommandBegin s = .next s.finish)

/-- R354, R357-R359, R366: the order of commands, and the commands on fields.
Readings and choices of the model in it: log entries 40, 65. -/
def Obligations.FieldCommands : Prop :=
  ∀ (s t : State) (c : Cmd),
  (∀ op i, Claims.commandRow op = some i → Claims.noTurn s op → exec i s = .next s.finish) ∧
  (Claims.turn s 0x0001 c t →
    exec .nop s = .next (t.reply c 0 (c.beganAt.toNat % 2 ^ 36) (c.beganAt.toNat / 2 ^ 36) 0).finish) ∧
  (Claims.turn s 0x0002 c t → exec .identify s = .next (t.reply c 0 (t.identity c.fn (c.par 0 8)).1
    (t.identity c.fn (c.par 0 8)).2.1 (t.identity c.fn (c.par 0 8)).2.2).finish) ∧
  (∀ l f, Claims.turn s 0x0010 c t → c.field = some (l, f) →
    (t.closed c.fn l = true → exec .setField s = .next (t.reply c 0x12 0 0 0).finish) ∧
    (t.closed c.fn l = false →
      (∀ u, t.writeReg c.fn l (Claims.setValue c f) f.mask = (u, .refused) →
        exec .setField s = .next (t.reply c 0x12 0 0 0).finish) ∧
      (∀ u, t.writeReg c.fn l (Claims.setValue c f) f.mask = (u, .locked) →
        exec .setField s = .next (u.reply c 0x31 0 0 0).finish) ∧
      (∀ u, t.writeReg c.fn l (Claims.setValue c f) f.mask = (u, .done) →
        exec .setField s = .next (u.reply c 0 0 0 0).finish))) ∧
  (Claims.turn s 0x0010 c t → c.field = none → exec .setField s = .next (t.reply c 0x12 0 0 0).finish) ∧
  (∀ l f u v, Claims.turn s 0x0011 c t → c.field = some (l, f) → t.readReg c.fn l f.mask = (u, v) →
    exec .getField s = .next (u.reply c 0 (bitsOf v f.lsb f.width) ((Claims.shadowOf t l f).getD 0)
      (pack [(b2n (Claims.shadowOf t l f).isSome, 0), (f.cls.code, 1), (f.acc.code, 3)])).finish) ∧
  (Claims.turn s 0x0011 c t → c.field = none → exec .getField s = .next (t.reply c 0x12 0 0 0).finish)

/-- R69-R73, R177-R179, R219, R221, R360-R363: the commands on graphs.
Readings and choices of the model in it: log entries 24, 39, 60. -/
def Obligations.GraphCommands : Prop :=
  ∀ (s t : State) (c : Cmd),
  (∀ d t0, Claims.turn s 0x0100 c t0 → Claims.clean d → t = Claims.fetched t0 c (c.par 0 64) (c.par 64 32) →
    (∀ r w, t.imageRefused (Claims.image d c) = some (r, w) →
      exec (.graphLoad d) s = .next (t.reply c 0x12 r w 0).finish) ∧
    (t.imageRefused (Claims.image d c) = none → t.building = true →
      exec (.graphLoad d) s = .next (t.reply c 0x30 0 0 0).finish) ∧
    (∀ base g, t.imageRefused (Claims.image d c) = none → t.building = false →
      t.freeBase (imgSlots (Claims.image d c)) = some base → t.freeHandle = some g →
      exec (.graphLoad d) s = .next (((Claims.imaged (Claims.fetched t c (c.par 0 64) (c.par 64 32)) (Claims.image d c)
        base g).setGraph g (Claims.loaded (Claims.image d c) base c.fn)).reply c 0 g base 0).finish)) ∧
  (∀ u, Claims.turn s 0x0101 c t → u = (t.readHdr (c.par 32 24)).1 →
    (∀ st r, t.startRefused c = some (st, r) → (st ≠ 0x12 ∨ r ≠ 4) →
      exec .graphStart s = .next (t.reply c st r 0 0).finish) ∧
    (t.startRefused c = some (0x12, 4) → exec .graphStart s = .next (u.reply c 0x12 4 0 0).finish) ∧
    (∀ ip, t.startRefused c = none → ip = Claims.startIp (u.graph c.graph) (c.par 64 12) →
      exec .graphStart s = .next ((((Claims.started u c).injectCharge (c.par 8 8)).setRes c.id
        [ip, ((Claims.started u c).graph c.graph).active]).injectTokens c.qp (startTokens c ip u.ownPkg)).finish)) ∧
  (Claims.turn s 0x0102 c t →
    (∀ e, t.graphRefused c.graph [.loaded, .running, .parked, .frozen] = some e →
      exec .graphAbort s = .next (t.reply c e 0 0 0).finish) ∧
    (t.graphRefused c.graph [.loaded, .running, .parked, .frozen] = none → exec .graphAbort s =
      .next ((t.updGraph c.graph (fun x => { x with state := .aborting, proc := .abort (bitOf (c.par 8 1) 0) [], moved := none })).stopPairs
        c.graph false).finish)) ∧
  (Claims.turn s 0x0103 c t →
    (∀ e, t.graphRefused c.graph [.running] = some e → exec .graphPark s = .next (t.reply c e 0 0 0).finish) ∧
    (∀ u bs, t.graphRefused c.graph [.running] = none → t.declare 3 c.graph 1 0 0xFF 0 = (u, bs) →
      exec .graphPark s = .next (u.beginPark c.graph bs).finish)) ∧
  (Claims.turn s 0x0104 c t →
    (∀ e, t.graphRefused c.graph [.parked] = some e → exec .graphResume s = .next (t.reply c e 0 0 0).finish) ∧
    (∀ u k, t.graphRefused c.graph [.parked] = none → t.resumeGraph c.graph = (u, k) →
      exec .graphResume s = .next (u.reply c 0 (lget 0 k 0) (lget 0 k 1) (lget 0 k 2)).finish)) ∧
  (Claims.turn s 0x0105 c t →
    (∀ e, t.graphRefused c.graph (if c.par 8 8 = 3 then [.frozen] else [.running, .frozen]) = some e →
      exec .orphanSweep s = .next (t.reply c e 0 0 0).finish) ∧
    (t.graphRefused c.graph (if c.par 8 8 = 3 then [.frozen] else [.running, .frozen]) = none →
      (t.sweep ≠ none → exec .orphanSweep s = .next (t.reply c 0x30 0 0 0).finish) ∧
      (t.sweep = none → exec .orphanSweep s = .next (Claims.sweeping t c).runSweep.finish))) ∧
  (∀ w, s.sweep = some w →
    (∀ u, s.sweepOn w = (u, false) → s.runSweep = u) ∧
    (∀ u v, s.sweepOn w = (u, true) → u.sweep = some v → s.runSweep =
      ({ u with sweep := none }.toHost w.cmd (w.cmd.par 64 64) v.listed).reply w.cmd 0 v.found (v.listed.length / 16) 0)) ∧
  (∀ (w : Sweep) (n set : Nat) (x : Ent) (u : State) (h : Hdr), s.readHdr x.e.cid.toNat = (u, h) →
    (w.cmd.par 8 8 ≠ 3 → h.st ≠ 0 → h.graph = w.cmd.graph → s.sweepEnt w n set x = u) ∧
    (w.cmd.par 8 8 = 3 ∨ h.st = 0 ∨ h.graph ≠ w.cmd.graph →
      (w.cmd.par 8 8 = 0 → s.sweepEnt w n set x =
        { u with sweep := some (Claims.swept w n x (decide (w.listed.length < 16 * w.cmd.par 128 32))) }) ∧
      (w.cmd.par 8 8 = 2 → s.sweepEnt w n set x = { u.dropEnt n set x with
        sweep := some (Claims.swept w n x (decide (w.listed.length < 16 * w.cmd.par 128 32))) }) ∧
      (w.cmd.par 8 8 = 1 ∨ w.cmd.par 8 8 = 3 → s.sweepEnt w n set x =
        { u.dropEnt n set x with sweep := some (Claims.swept w n x false) }))) ∧
  (∀ d, Claims.turn s 0x0106 c t →
    (c.par 0 8 = 0 → exec (.injectTokens d) s =
      .next ((t.setRes c.id [c.par 16 16, 0]).injectTokens c.qp c.inline).finish) ∧
    (∀ u xs, c.par 0 8 ≠ 0 → Claims.clean d → u = Claims.fetched t c (c.par 64 64) (16 * c.par 16 16) → xs = (List.range (c.par 16 16)).map (fun k => leAt d.bytes (16 * k) 16) →
      (xs.any (fun x => bitsOf x 61 3 != 0 || bitsOf x 104 23 != 0) = true →
        exec (.injectTokens d) s = .next (u.reply c 0x13 0 0 0).finish) ∧
      (xs.any (fun x => bitsOf x 61 3 != 0 || bitsOf x 104 23 != 0) = false → (xs.map tokenOf).any tokenBad = true →
        exec (.injectTokens d) s = .next (u.reply c 0x12 0 0 0).finish) ∧
      (xs.any (fun x => bitsOf x 61 3 != 0 || bitsOf x 104 23 != 0) = false → (xs.map tokenOf).any tokenBad = false →
        exec (.injectTokens d) s =
          .next ((u.setRes c.id [c.par 16 16, 0]).injectTokens c.qp (xs.map tokenOf)).finish)))

/-- R242, R260, R270, R295, R296, R364: the commands on channels, banks, repairs, ports and the epoch.
Readings and choices of the model in it: log entries 19, 29, 40, 65. -/
def Obligations.UnitCommands : Prop :=
  ∀ (s t : State) (c : Cmd),
  (Claims.turn s 0x0200 c t →
    ((t.chan c.index).active = true → exec .bmvStart s = .next (t.reply c 0x30 0 0 0).finish) ∧
    ((t.chan c.index).active = false →
      (∀ e w, t.descCheck c.index c.fn c.bytes = some (e, w) → exec .bmvStart s = .next (t.reply c e 0 0 0).finish) ∧
      (t.descCheck c.index c.fn c.bytes = none →
        exec .bmvStart s = .next (t.setChan c.index (Claims.startedChan (t.chan c.index) c)).finish))) ∧
  (Claims.turn s 0x0201 c t →
    ((t.chan c.index).active = false → exec .bmvStop s = .next (t.reply c 0 0xFF 0 0).finish) ∧
    ((t.chan c.index).active = true → (t.chan c.index).stopping.isSome = true →
      exec .bmvStop s = .next (t.reply c 0x30 0 0 0).finish) ∧
    ((t.chan c.index).active = true → (t.chan c.index).stopping = none → (t.chan c.index).running = true →
      (t.chan c.index).doneWords ≠ (descOf (t.chan c.index).desc).n → exec .bmvStop s =
        .next (t.setChan c.index (Claims.stoppingChan (t.chan c.index) (c.par 0 8 == 1))).finish) ∧
    ((t.chan c.index).active = true → (t.chan c.index).stopping = none → (t.chan c.index).running = true →
      (t.chan c.index).doneWords = (descOf (t.chan c.index).desc).n → exec .bmvStop s =
        .next (t.setChan c.index { t.chan c.index with
          stopping := some (c.par 0 8 == 1), err := some ((t.chan c.index).doneWords, 0) }).finish) ∧
    ((t.chan c.index).active = true → (t.chan c.index).stopping = none → (t.chan c.index).running = false →
      exec .bmvStop s = .next (t.bmvStopAt c.index (if c.par 0 8 == 1 then 2 else 1)).finish)) ∧
  (Claims.turn s 0x0202 c t →
    (c.par 0 16 < 0x600 → (t.die (c.par 0 16 / 256)).up = false →
      exec .bankPower s = .next (t.reply c 0x12 0 0 0).finish) ∧
    ((0x600 ≤ c.par 0 16 ∨ (t.die (c.par 0 16 / 256)).up = true) →
      (Claims.bankWaited t c = true → exec .bankPower s = .next (t.reply c 0x30 0 0 0).finish) ∧
      (∀ e, Claims.bankWaited t c = false → t.bankRefused (c.par 0 16) (c.par 16 8) = some e →
        exec .bankPower s = .next (t.reply c e 0 0 0).finish) ∧
      (Claims.bankWaited t c = false → t.bankRefused (c.par 0 16) (c.par 16 8) = none → exec .bankPower s =
        .next (((t.setRes c.id [c.par 0 16, c.par 16 8]).bankAsk (c.par 0 16) (c.par 16 8)).bankReplies
          (c.par 0 16)).finish))) ∧
  (Claims.turn s 0x0203 c t →
    (∀ r, t.repairRefused (c.par 0 16) (c.par 16 16) = some r →
      exec .repairAdd s = .next (t.reply c 0x12 r 0 0).finish) ∧
    (t.repairRefused (c.par 0 16) (c.par 16 16) = none →
      exec .repairAdd s = .next ((Claims.repaired t c).reply c 0 (t.repairs.length + 1) 0 0).finish)) ∧
  (Claims.turn s 0x0300 c t →
    (c.images.any (fun p => t.dynBad p.1 p.2 (2 ^ 32 - 1) || t.foreignGraph c.fn p.1 p.2) = true →
      exec .portConfig s = .next (t.reply c 0x12 0 0 0).finish) ∧
    (c.images.any (fun p => t.dynBad p.1 p.2 (2 ^ 32 - 1) || t.foreignGraph c.fn p.1 p.2) = false →
      (c.images.any (fun p => p.1.row.fields.any (t.lockedOut p.1 p.2)) = true →
        exec .portConfig s = .next ((Claims.imagesRejected t c).reply c 0x31 0 0 0).finish) ∧
      (c.images.any (fun p => p.1.row.fields.any (t.lockedOut p.1 p.2)) = false →
        exec .portConfig s = .next ((Claims.imagesAct t (Claims.imagesAct t (Claims.imagesStored t c) c
          (Claims.plainImages c)) c (Claims.cfgImages c)).reply c 0 0 0 0).finish))) ∧
  (Claims.turn s 0x0301 c t →
    (c.par 8 8 = 0 → (t.port (c.par 0 8)).run.clearing = true →
      exec .pourArm s = .next (t.reply c 0x30 0 0 0).finish) ∧
    (c.par 8 8 = 0 → (t.port (c.par 0 8)).run.clearing = false → (t.port (c.par 0 8)).state ≠ .idle →
      exec .pourArm s = .next (t.reply c 0x12 0 0 0).finish) ∧
    (c.par 8 8 = 0 → (t.port (c.par 0 8)).run.clearing = false → (t.port (c.par 0 8)).state = .idle →
      exec .pourArm s = .next (t.setPort (c.par 0 8) { t.port (c.par 0 8) with run := t.armedRun c }).finish) ∧
    (c.par 8 8 ≠ 0 → (t.port (c.par 0 8)).state = .running ∨
        ((t.port (c.par 0 8)).state = .armed ∧ (t.port (c.par 0 8)).run.ticks ≠ 0) → (t.port (c.par 0 8)).run.stop = none →
      exec .pourArm s = .next (t.setPort (c.par 0 8) (Claims.stopAsked (t.port (c.par 0 8)) (c.par 8 8 + 1))).finish) ∧
    (∀ d, c.par 8 8 ≠ 0 → (t.port (c.par 0 8)).state = .armed → (t.port (c.par 0 8)).run.ticks = 0 →
      (t.port (c.par 0 8)).run.stop = none →
      d = slotAt (t.slotLen (c.par 0 8)) (max (64 * (c.beganAt.toNat + 16)) t.now64) → exec .pourArm s =
        .next ((t.dropStart (c.par 0 8)).updPort (c.par 0 8) (fun y =>
          { y with run := { y.run with stop := some (c.par 8 8 + 1, d) } })).finish) ∧
    (c.par 8 8 ≠ 0 → (t.port (c.par 0 8)).state = .armed ∨ (t.port (c.par 0 8)).state = .running →
      (t.port (c.par 0 8)).run.stop.isSome = true → exec .pourArm s = .next (t.reply c 0x30 0 0 0).finish) ∧
    (c.par 8 8 ≠ 0 → (t.port (c.par 0 8)).state ≠ .armed → (t.port (c.par 0 8)).state ≠ .running →
      exec .pourArm s = .next (t.reply c 0x12 0 0 0).finish)) ∧
  (Claims.turn s 0x0302 c t →
    (c.par 64 8 = 1 → exec .epochSchedule s = .next (Claims.reply64 (Claims.scheduledAt t none) c
      (match t.clk.sched with | some x => x.toNat | none => 0)).finish) ∧
    (c.par 64 8 ≠ 1 → c.par 0 64 < c.beganAt.toNat + 1000 → exec .epochSchedule s = .next (t.reply c 0x12 0 0 0).finish) ∧
    (c.par 64 8 ≠ 1 → c.beganAt.toNat + 1000 ≤ c.par 0 64 → exec .epochSchedule s =
      .next (Claims.reply64 (Claims.scheduledAt t (some (BitVec.ofNat 64 (c.par 0 64)))) c (c.par 0 64)).finish))

/-- R365, R402, R410, R418-R428: the commands on Blends, ledger, log and rows, and the steps they start.
Readings and choices of the model in it: log entries 21, 27, 28. -/
def Obligations.BlendCommands : Prop :=
  ∀ (s t : State) (c : Cmd),
  (∀ d, Claims.turn s 0x0500 c t →
    ((t.blend.act.isSome = true ∨ t.blend.revert.isSome = true) →
      exec (.blendStage d) s = .next (t.reply c 0x30 0 0 0).finish) ∧
    (∀ u, t.blend.act = none → t.blend.revert = none →
      u = (Claims.fetched t c (c.par 0 64) (c.par 64 32)).noteData d →
      (dataBad d = true →
        exec (.blendStage d) s = .next ((u.setBslot u.otherSlot Claims.unstaged).reply c 0x12 0 0 0).finish) ∧
      (dataBad d = false → exec (.blendStage d) s = .next (((u.setBslot u.otherSlot (Claims.staged
        (slice d.bytes 0 (c.par 64 32)))).blendLog 16 u.otherSlot 0).reply c 0 u.otherSlot 0 0).finish))) ∧
  (Claims.turn s 0x0501 c t →
    ((t.bslot (c.par 0 8)).failure t.blend.counter = none → ∀ u,
      u = (t.setBslot (c.par 0 8) (Claims.verified (t.bslot (c.par 0 8)))).blendLog 17 (c.par 0 8) 0 →
      exec .blendVerify s = .next (u.reply c 0 (u.bslot (c.par 0 8)).ver 0 0).finish) ∧
    (∀ e w, (t.bslot (c.par 0 8)).failure t.blend.counter = some (e, w) → exec .blendVerify s =
      .next (((t.setBslot (c.par 0 8) { t.bslot (c.par 0 8) with verified := false }).blendLog 18 (c.par 0 8) e).reply c e w
        0 0).finish)) ∧
  (Claims.turn s 0x0502 c t →
    (∀ e w, t.activateRefused (c.par 0 8) (c.par 64 64) = some (e, w) →
      exec .blendActivateAt s = .next (t.reply c e w 0 0).finish) ∧
    (t.activateRefused (c.par 0 8) (c.par 64 64) = none →
      exec .blendActivateAt s = .next ((Claims.actPending t c).reply c 0 0 0 0).finish)) ∧
  (Claims.turn s 0x0503 c t →
    (t.blend.act.isSome = true → exec .blendCancel s =
      .next ((State.blendOutcome { t with blend := { t.blend with act := none } } 3).reply c 0 1 0 0).finish) ∧
    (t.blend.act = none → t.blend.revert = none → exec .blendCancel s = .next (t.reply c 0 0 0 0).finish)) ∧
  (∀ es, Claims.turn s 0x0504 c t → es = t.start.ledger.reverse.take (c.par 64 32 / 64) → exec .ledgerRead s =
    .next ((t.toHost c (c.par 0 64) (es.map LedgerEntry.bytes).flatten).reply c 0 (64 * es.length) 0 0).finish) ∧
  (Claims.turn s 0x0505 c t → exec .ledgerClear s =
    .next (State.reply { t with start := { t.start with cleared := true, sinceClear := 0 } } c 0 0 0 0).finish) ∧
  (∀ f k n, Claims.turn s 0x0506 c t → logRange t.logNext.toNat t.log.length (c.par 64 32) = (f, k) →
    n = min k (c.par 96 32) → exec .logRead s =
      .next ((t.toHost c (c.par 0 64) (Claims.logEntries t f n)).reply c 0 n ((f + n) % 2 ^ 32) 0).finish) ∧
  (∀ d, Claims.turn s 0x0600 c t →
    ((t.die c.index).up = false → exec (.snapshot d) s = .next (t.reply c 0x12 0 0 0).finish) ∧
    ((t.die c.index).up = true →
      (∀ u, c.par 0 8 = 0 → u = Claims.rowsAwake t c → exec (.snapshot d) s = .next ((u.toHost c (c.par 128 64)
        ((Claims.snapRows c).map (u.rowBytes c.index (c.par 8 8))).flatten).reply c 0 (c.par 64 32) 0 0).finish) ∧
      (c.par 0 8 ≠ 0 → t.anyGraph = true → exec (.snapshot d) s = .next (t.reply c 0x31 0 0 0).finish) ∧
      (∀ u, c.par 0 8 ≠ 0 → t.anyGraph = false → (t.die c.index).sweeping = false → Claims.clean d →
        u = Claims.rowsAwake (Claims.fetched t c (c.par 128 64) (rowSize (c.par 8 8) * c.par 64 32)) c →
        exec (.snapshot d) s = .next (((Claims.snapRows c).zipIdx.foldl (fun v p =>
          v.rowWrite c.index (c.par 8 8) p.1 (slice d.bytes (rowSize (c.par 8 8) * p.2) (rowSize (c.par 8 8)))) u).reply
            c 0 (c.par 64 32) 0 0).finish))) ∧
  ((s.blend.selDue = true → exec .selectorWrite s = .next (State.finish { s with blend := { s.blend with
      selDue := false, selSlot := s.blend.active, selSeq := s.blend.selSeq + 1 } })) ∧
    (s.blend.selDue = false → exec .selectorWrite s = .next s.finish)) ∧
  (∀ o u, s.blend.reading = some o → u = Claims.readDone s →
    (∀ r ign, s.blend.read s.activeSlot = .ok (r, ign) → exec .pssReadDone s =
      .next (State.blendOutcome { u with blend := { u.blend with ignored := ign } } 1).finish) ∧
    (∀ code, s.blend.read s.activeSlot = .error code → (o = 1 ∨ (o = 0 ∧ s.activeSlot.mandatory = false)) →
      exec .pssReadDone s = .next (State.blendOutcome { u with blend := { u.blend with settingsFb := true } } 7).finish) ∧
    (∀ code, s.blend.read s.activeSlot = .error code → o ≠ 1 → (o ≠ 0 ∨ s.activeSlot.mandatory = true) →
      exec .pssReadDone s = .next (State.blendOutcome { u with blend := { u.blend with
        revert := some (s.clk.tb + 1000) } } code).finish)) ∧
  (∀ k, s.blend.burning = some k →
    (s.blend.counter + 1 < k → exec .burnStepDone s =
      .next (State.finish { s with blend := Claims.burned s.blend (s.blend.counter + 1) })) ∧
    (k ≤ s.blend.counter + 1 → exec .burnStepDone s = .next (State.finish (State.blendLog { s with
      blend := Claims.burnEnded s.blend (s.blend.counter + 1) } 19 s.blend.active 0))))

/-- R313, R314, R321, R324-R333: Kaolin's commands and the requests of the Seal Port.
Readings and choices of the model in it: log entries 7, 8, 42. -/
def Obligations.SealRequests : Prop :=
  ∀ (s t : State) (c : Cmd) (r : SealReq),
  (Claims.turn s 0x0400 c t → ∀ n, n = (t.sealPort.waitingR.filter (fun x => x.ty == 1)).length →
    (64 ≤ n → exec .kaoMeasure s = .next (t.reply c 0x30 0 0 0).finish) ∧
    (n < 64 → exec .kaoMeasure s = .next (t.ask c 1 c.bytes (c.par 128 64)).finish)) ∧
  (Claims.turn s 0x0401 c t →
    (c.par 0 8 = 5 → exec .kaoReadRecords s = .next (t.ask c 3 [] 0).finish) ∧
    (c.par 0 8 = 6 → exec .kaoReadRecords s = .next (t.ask c 4 [] 0).finish) ∧
    (c.par 0 8 < 5 → exec .kaoReadRecords s = .next (t.ask c 2 [] 0).finish)) ∧
  (∀ d, Claims.turn s 0x0402 c t → ∀ b, b = (t.sealPort.waitingR ++ t.sealPort.sent).any (fun x => decide (5 ≤ x.ty)) →
    (b = true → exec (.kaoCalWrite d) s = .next (t.reply c 0x30 0 0 0).finish) ∧
    (∀ u, b = false → u = State.noteRead (Claims.fetched t c (c.par 0 64) (min (c.par 64 32) 33552)) false d →
      (dataBad d = true → exec (.kaoCalWrite d) s = .next (u.reply c 0x12 0 0 0).finish) ∧
      (dataBad d = false → exec (.kaoCalWrite d) s =
        .next (u.ask c 5 (slice d.bytes 0 (min (c.par 64 32) 33552)) 0).finish))) ∧
  (∀ good ns, (s.sealPort.up = false ∨ s.kao.ready = false ∨ 16 ≤ s.kao.open_ ∨ s.measurePick = none) →
    exec (.measure ⟨good, ns⟩) s = .next s.finish) ∧
  (s.sealPort.up = true → s.kao.ready = true → s.kao.open_ < 16 → s.measurePick = some r → ∀ u ns,
    u = (s.passUntil r.sendAt.toNat).dropReq r →
    exec (.measure ⟨true, ns⟩) s = .next (Claims.arrived (Claims.kaoAt u ns) (Claims.newRun r u.clk.tb)).finish ∧
    exec (.measure ⟨false, ns⟩) s = .next (Claims.frameLost u r).finish) ∧
  (∀ ty good ns cut i, Claims.sealRow ty good ns cut = some i → Claims.unasked s ty → exec i s = .next s.finish) ∧
  (∀ ty ns cut i, Claims.sealRow ty false ns cut = some i → Claims.asked s ty r t →
    exec i s = .next (Claims.frameLost t r).finish) ∧
  (r.cmd = some c →
    (Claims.asked s 2 r t →
      (c.par 0 8 = 0 → c.par 64 64 < t.kao.oldest → exec (.read true) s = .next (t.reply c 0x12 0 0 0).finish) ∧
      (∀ its bs n, (c.par 0 8 ≠ 0 ∨ t.kao.oldest ≤ c.par 64 64) → its = Claims.readItems t.kao c →
        bs = Claims.itemBytes its → n = Claims.itemNext its (c.par 64 64) → exec (.read true) s =
        .next (((State.hostBytes (bs.length + 1) t (c.par 192 64) bs false c.fn).reply c 0
          (if c.par 0 8 = 4 then bs.length else its.length) (n % 2 ^ 32) (n / 2 ^ 32)).finish))) ∧
    (Claims.asked s 3 r t → ∀ ns u, u = Claims.kaoAt t ns →
      ((c.par 64 64 < t.kao.oldest ∨ t.kao.coveredEnd < c.par 64 64) →
        exec (.release ⟨true, ns⟩) s = .next (u.reply c 0x12 0 0 0).finish) ∧
      (∀ upto v, upto = c.par 64 64 → t.kao.oldest ≤ upto → upto ≤ t.kao.coveredEnd →
        v = State.kaoSettle { u with kao := Claims.released u.kao upto } →
        exec (.release ⟨true, ns⟩) s = .next (v.reply c 0 0 (upto % 2 ^ 32) (upto / 2 ^ 32)).finish)) ∧
    (Claims.asked s 4 r t →
      (256 < t.kao.blocks.length + t.kao.signing.length + 129 →
        exec (.sign true) s = .next (t.reply c 0x30 0 0 0).finish) ∧
      (t.kao.blocks.length + t.kao.signing.length + 129 ≤ 256 →
        (t.kao.seqNext ≤ t.kao.coveredEnd → exec (.sign true) s = .next (t.reply c 0 0 0 0).finish) ∧
        (t.kao.coveredEnd < t.kao.seqNext →
          (t.kao.signing.any (fun m => m.n + 1 == t.kao.seqNext) = true →
            exec (.sign true) s = .next (State.finish { t with kao := Claims.signWaits t.kao c })) ∧
          (t.kao.signing.any (fun m => m.n + 1 == t.kao.seqNext) = false →
            exec (.sign true) s = .next (State.finish { t with kao := Claims.signStarts t.kao c }))))) ∧
    (Claims.asked s 5 r t →
      (t.kao.sealClosed = true → exec (.calBegin true) s = .next (Claims.calRefused t c 0x60 0).finish) ∧
      (t.kao.sealClosed = false → t.kao.blocked = true →
        exec (.calBegin true) s = .next (Claims.calRefused t c 0x12 1).finish) ∧
      (t.kao.sealClosed = false → t.kao.blocked = false →
        exec (.calBegin true) s = .next (Claims.calOn t r [] 6).finish)) ∧
    (Claims.asked s 6 r t →
      (t.kao.cal = none → exec (.calData true) s = .next (Claims.calRefused t c 0x12 2).finish) ∧
      (∀ b, t.kao.cal = some b → exec (.calData true) s = .next (Claims.calOn t r r.body 7).finish)) ∧
    (Claims.asked s 7 r t → ∀ ns u, u = Claims.kaoAt t ns →
      (∀ cut, t.kao.cal = none → exec (.calCommit ⟨true, ns, cut⟩) s = .next (Claims.calRefused u c 0x12 2).finish) ∧
      (∀ b, t.kao.cal = some b →
        (∀ cut e w, Claims.calCheck t.kao r b = some (e, w) →
          exec (.calCommit ⟨true, ns, cut⟩) s = .next (Claims.calRefused u c e w).finish) ∧
        (Claims.calCheck t.kao r b = none →
          exec (.calCommit ⟨true, ns, false⟩) s =
            .next (State.reply { u with kao := (u.kao.applyCal b).auditCal } c 0 0 0 0).finish ∧
          exec (.calCommit ⟨true, ns, true⟩) s = .next (Claims.cutAfter u r b).finish)))) ∧
  (∀ (k : Kao) (b : List Byte), (k.applyCal b).mec = k.nextMec ∧
    (leAt b 4 2 = 1 → (k.applyCal b).active = !k.active ∧ (k.applyCal b).bank = slice b 64 33424 ∧
      (k.applyCal b).calId = k.calId + 1 ∧ (k.applyCal b).bankDigest = sha256 (slice b 64 33424) ∧
      (k.applyCal b).uncal = false ∧ (k.applyCal b).authKey = k.authKey) ∧
    (leAt b 4 2 = 2 → (k.applyCal b).authKey = slice b 64 64 ∧ (k.applyCal b).active = k.active ∧
      (k.applyCal b).bank = k.bank ∧ (k.applyCal b).calId = k.calId)) ∧
  (∀ good, s.sealPort.up = false → exec (.status good) s = .next s.finish) ∧
  (s.sealPort.up = true → s.kao.ready = true → exec (.status true) s = .next (Claims.polled s).finish)

/-- R312-R335: the events of Kaolin.
Readings and choices of the model in it: log entries 8, 41, 43. -/
def Obligations.KaolinEvents : Prop :=
  ∀ (s : State) (r : KRun) (rest : List KRun),
  (∀ (ch : Fin 32) (f : Bool) (coarse : Nat) (code : Fin 2048) (p : KRun → Bool) (t : Nat),
    p = (fun x => x.awaits ch.val f) → t = rawTime coarse code.val →
    (s.kao.ready = false → exec (.qualifyingEdge ch f coarse code) s = .next s.finish) ∧
    (∀ u, s.kao.ready = true → u = Claims.kaoAt s (t / 2048000000) →
      ((s.kao.dead ch.val t = true ∨ takeFirst p s.kao.held = none) →
        exec (.qualifyingEdge ch f coarse code) s = .next u.finish) ∧
      (s.kao.dead ch.val t = false → takeFirst p s.kao.held = some (r, rest) → ∀ x, x = r.edgeTime ch.val coarse code.val →
        (r.startEdge = none →
          (t < r.sampleFrom → exec (.qualifyingEdge ch f coarse code) s = .next u.finish) ∧
          (r.sampleFrom ≤ t → r.startLimit < t → exec (.qualifyingEdge ch f coarse code) s =
            .next (Claims.runEnds u r rest 1).finish) ∧
          (r.sampleFrom ≤ t → t ≤ r.startLimit → exec (.qualifyingEdge ch f coarse code) s =
            .next ((Claims.putBack u r (Claims.opened r x t)).stamp ch.val t).finish)) ∧
        (∀ y t0, r.startEdge = some (y, t0) →
          (t0 + stopLimit < t → exec (.qualifyingEdge ch f coarse code) s = .next (Claims.runEnds u r rest 2).finish) ∧
          (t ≤ t0 + stopLimit → r.stops + 1 < r.q → exec (.qualifyingEdge ch f coarse code) s =
            .next ((Claims.putBack u r (Claims.counted r)).stamp ch.val t).finish) ∧
          (t ≤ t0 + stopLimit → r.q ≤ r.stops + 1 → exec (.qualifyingEdge ch f coarse code) s =
            .next (Claims.afterSample (u.stamp ch.val t) r rest
              (Claims.sampled (Claims.sampleOver r t) (r.interval y x))).finish))))) ∧
  (∀ (ch : Fin 32) (p : KRun → Bool),
    p = (fun x => x.running && !x.isDc && (x.chanA == ch.val && x.startEdge.isNone)) →
    (Claims.noRun s p → exec (.startTimeout ch) s = .next s.finish) ∧
    (Claims.runFor s p r rest → exec (.startTimeout ch) s =
      .next (Claims.runEnds (Claims.kaoAt s (r.startLimit / 2048000000)) r rest 1).finish)) ∧
  (∀ (ch : Fin 32) (p : KRun → Bool),
    p = (fun x => x.running && !x.isDc && (x.chanB == ch.val && x.startEdge.isSome)) →
    (Claims.noRun s p → exec (.stopTimeout ch) s = .next s.finish) ∧
    (∀ y t0, Claims.runFor s p r rest → r.startEdge = some (y, t0) → exec (.stopTimeout ch) s =
      .next (Claims.runEnds (Claims.kaoAt s ((t0 + stopLimit) / 2048000000)) r rest 2).finish)) ∧
  (∀ (ch : Fin 8) (code : BitVec 24) (ns : Nat) (p : KRun → Bool),
    p = (fun x => x.running && x.isDc && bitsOf x.byteA 0 3 == ch.val) →
    (s.kao.ready = false → exec (.dcConversion ch ⟨code, ns⟩) s = .next s.finish) ∧
    (∀ u, s.kao.ready = true → u = Claims.kaoAt s ns →
      (takeFirst p s.kao.held = none → exec (.dcConversion ch ⟨code, ns⟩) s = .next u.finish) ∧
      (takeFirst p s.kao.held = some (r, rest) →
        (r.conv < 5 → exec (.dcConversion ch ⟨code, ns⟩) s = .next (Claims.putBack u r (Claims.converted r)).finish) ∧
        (5 ≤ r.conv → (code.toInt = -8388608 ∨ code.toInt = 8388607) → exec (.dcConversion ch ⟨code, ns⟩) s =
          .next (Claims.runEnds u (Claims.converted r) rest 3).finish) ∧
        (5 ≤ r.conv → code.toInt ≠ -8388608 → code.toInt ≠ 8388607 → exec (.dcConversion ch ⟨code, ns⟩) s =
          .next (Claims.afterSample u r rest
            (Claims.sampled (Claims.converted r) (r.dcValue ch.val code.toInt))).finish)))) ∧
  ((s.kao.ready = false ∨ s.kao.signing = []) → exec .signatureBlockDone s = .next s.finish) ∧
  (∀ b bs u, s.kao.ready = true → s.kao.signing = b :: bs → u = Claims.kaoIs s (Claims.blockWritten s.kao b bs) →
    (s.sealPort.up = false → exec .signatureBlockDone s = .next u.finish) ∧
    (s.sealPort.up = true → exec .signatureBlockDone s = .next (((s.kao.signCmd.filter
      (fun p => decide (p.1 ≤ b.n))).foldl (fun v p => v.reply p.2 0 0 0 0) u).finish))) ∧
  (s.kao.rstLow = true → exec .krefLost s = .next s.finish ∧ exec .krefLocked s = .next s.finish) ∧
  (s.kao.rstLow = false → exec .krefLost s = .next (Claims.kaoIs s (Claims.refLost s.kao)).finish ∧
    exec .krefLocked s = .next (Claims.kaoIs s { s.kao with refOk := true }).finish) ∧
  (s.kao.ready = true →
    (s.kao.sealClosed = true → exec .sealBroken s = .next (Claims.kaoIs s (Claims.breaks s.kao)).finish ∧
      exec .sealClosed s = .next s.finish) ∧
    (s.kao.sealClosed = false → exec .sealClosed s = .next (Claims.kaoIs s (Claims.closes s.kao)).finish ∧
      exec .sealBroken s = .next s.finish)) ∧
  (s.kao.ready = false → exec .sealBroken s = .next s.finish ∧ exec .sealClosed s = .next s.finish) ∧
  (∀ k100 u, (s.kao.rstLow = true → u = Claims.kaoIs s { s.kao with rstLow := false, kref100 := k100 }) →
    (s.kao.rstLow = false → u = s) → exec (.krstN true ⟨k100, true⟩) s = .next (Claims.kaoPower u true).finish) ∧
  (∀ level k100 v t, (level = false ∨ v = false) → exec (.krstN level ⟨k100, v⟩) s = .next t →
    ∃ u : State, t = (Claims.kaoPower u v).finish ∧ u.kao = Claims.inReset s.kao ∧
      u.sealPort.sent.length = s.sealPort.sent.length + s.kao.held.length + s.kao.signCmd.length ∧ u.pes = s.pes) ∧
  (∀ hi, (s.kao.rstLow = true ∨ s.kao.ready = true) → exec (.kaolinReady hi) s = .next s.finish) ∧
  (s.kao.rstLow = false → s.kao.ready = false →
    (s.kao.sealClosed = true → exec (.kaolinReady true) s =
      .next (Claims.kaoIs s (Claims.breaks (Claims.kaoStarts s.kao)).beginSign).finish) ∧
    (s.kao.sealClosed = false → exec (.kaolinReady true) s = .next (Claims.kaoIs s (Claims.kaoStarts s.kao).beginSign).finish) ∧
    exec (.kaolinReady false) s = .next (Claims.kaoIs s (Claims.kaoStarts s.kao).beginSign).finish) ∧
  (s.lateReq = none → exec .kaoCommandTimeout s = .next s.finish) ∧
  (∀ q c u, s.lateReq = some q → q.cmd = some c → u = Claims.givenUp (s.passEdges (q.since + 1000000)) q →
    exec .kaoCommandTimeout s = .next ((u.bump (kaoOff 4) 0 32 1).reply c 0x70 0 0 0).finish)

/-- R343, R403, R404, R433: the resets.
Readings and choices of the model in it: log entry 44. -/
def Obligations.Resets : Prop :=
  ∀ (s t : State) (c : Cmd),
  (∀ env n, Claims.turn s 0x0003 c t → n = c.index →
    (c.kind = 1 →
      (Claims.bringUpStep env → exec (.resetScope env) s =
        .next ((((t.countPartials n).dieDown n).postFail (2 ^ n)).reply c 0 1 0 0).finish) ∧
      (¬ Claims.bringUpStep env → exec (.resetScope env) s =
        .next ((((t.countPartials n).dieDown n).bringUp n env).reply c 0 0 0 0).finish)) ∧
    (c.kind = 2 →
      (¬ Claims.ddrIdle t → exec (.resetScope env) s = .next (t.reply c 0x30 0 0 0).finish) ∧
      (Claims.ddrIdle t →
        (env.failStep.isSome = true → exec (.resetScope env) s = .next
          ((((t.postFail (2 ^ (6 + n))).reply c 0 1 0 0).event 4 6 (startOff 0) 0 n 0).finish)) ∧
        (env.failStep = none →
          exec (.resetScope env) s = .next ((Claims.scrubbed t n).reply c 0 0 0 0).finish ∧
          ∀ a, (Claims.scrubbed t n).rd a = if a < t.ddrWords ∧ t.ddrChannel a = some n then PWord.zero else t.rd a))) ∧
    (c.kind = 3 →
      ((t.portDisable n).pfpOn n = true →
        exec (.resetScope env) s = .next (((t.portDisable n).portEnable n).reply c 0 0 0 0).finish) ∧
      ((t.portDisable n).pfpOn n = false → exec (.resetScope env) s = .next ((t.portDisable n).reply c 0 0 0 0).finish)) ∧
    (c.kind = 4 → ∀ u, u = (t.bump (hostOff 0x80) 0 32 ((t.twk n).txBuf.foldl (fun k l => k + l.length) 0)).setTwk n Twk.reset →
      ((u.twkUse n && u.twkPowered n) = true → exec (.resetScope env) s = .next ((u.twkTrain n).reply c 0 0 0 0).finish) ∧
      ((u.twkUse n && u.twkPowered n) = false → exec (.resetScope env) s = .next (u.reply c 0 0 0 0).finish)) ∧
    (c.kind = 5 → exec (.resetScope env) s = .next ((t.flr n).reply c 0 0 0 0).finish) ∧
    (c.kind = 6 → exec (.resetScope env) s = .next ((t.qpOff n).reply c 0 0 0 0).finish) ∧
    (c.kind = 8 → exec (.resetScope env) s = .next (Claims.startDue (t.reply c 0 0 0 0) 3).finish)) ∧
  (s.pcieUp = false → (∀ fn, exec (.flr fn) s = .next s.finish) ∧ exec .hotReset s = .next s.finish) ∧
  (s.pcieUp = true → ∀ u, u = Claims.noKao ((List.range 17).foldl State.flrOne s) →
    exec (.flr 0) s = .next u.finish ∧ exec .hotReset s = .next (State.finish { u with d3hot := false, cfg := Claims.cfgCleared s.cfg }) ∧
    ∀ fn : Fin 17, fn ≠ 0 → exec (.flr fn) s = .next (s.flrOne fn.val).finish) ∧
  exec (.perstN false) s = .next (Claims.heldReset s).finish ∧
  (s.start.perstHigh = true → exec (.perstN true) s = .next s.finish) ∧
  (s.start.perstHigh = false → Claims.perstReleased s t →
    ((s.start.vin && s.start.vio && s.start.vstby) = false → exec (.perstN true) s = .next t.finish) ∧
    ((s.start.vin && s.start.vio && s.start.vstby) = true →
      (s.start.poweredOn = true → exec (.perstN true) s = .next (Claims.startDue t 2).finish) ∧
      (s.start.poweredOn = false → exec (.perstN true) s =
        .next (State.finish { t with start := { t.start with due := some 1, poweredOn := true } }))))

/-- R342: the mailbox's messages.
Readings and choices of the model in it: log entries 7, 22. -/
def Obligations.Spdm : Prop :=
  ∀ (s : State) (req : List Byte),
  (s.pcieUp = false → exec (.doeDiscovery req) s = .next s.finish ∧ ∀ k, exec (Claims.spdmRow k req) s = .next s.finish) ∧
  (s.pcieUp = true → exec (.doeDiscovery req) s = .next (s.doeAnswer 0 (if leAt req 0 1 = 0 then [1, 0, 0, 1]
    else if leAt req 0 1 = 1 then [1, 0, 1, 0] else [0xFF, 0xFF, 0, 0])).finish) ∧
  (∀ k, s.pcieUp = true →
    ((leAt req 1 1 ≠ Claims.spdmCode k ∨ req.length < 4) →
      exec (Claims.spdmRow k req) s = .next (Claims.spdmErr s 1).finish) ∧
    (leAt req 1 1 = Claims.spdmCode k → 4 ≤ req.length →
      (Claims.spdmNeed s k = false → exec (Claims.spdmRow k req) s = .next (Claims.spdmErr s 4).finish) ∧
      (Claims.spdmNeed s k = true → leAt req 0 1 ≠ Claims.spdmVer k →
        exec (Claims.spdmRow k req) s = .next (Claims.spdmErr s 0x41).finish))) ∧
  (Claims.spdmServes s 0 req → exec (.getVersion req) s = .next (Claims.says s (Claims.newExchange s.spdm)
    [0x10, 0x04, 0, 0, 0, 1, 0, 0x12]).finish) ∧
  (Claims.spdmServes s 1 req → exec (.getCapabilities req) s = .next (Claims.says s { s.spdm with capable := true }
    (s.spdmCaps.2)).finish ∧ s.spdmCaps.2.length = 20) ∧
  (Claims.spdmServes s 2 req → exec (.negotiateAlgorithms req) s = .next (Claims.says s { s.spdm with negotiated := true }
    (s.spdmAlgs req).2).finish ∧ (s.spdmAlgs req).2.length = 36) ∧
  (Claims.spdmServes s 3 req → exec (.getDigests req) s =
    .next (s.doeAnswer 1 ([0x12, 0x01, 0, 1] ++ sha384 certChain)).finish) ∧
  (Claims.spdmServes s 4 req → ∀ off, off = leAt req 4 2 →
    ((leAt req 2 1 ≠ 0 ∨ certChain.length ≤ off) → exec (.getCertificate req) s = .next (Claims.spdmErr s 1).finish) ∧
    (∀ p, leAt req 2 1 = 0 → off < certChain.length → p = (certChain.drop off).take (leAt req 6 2) →
      exec (.getCertificate req) s = .next (s.doeAnswer 1 ([0x12, 0x02, 0, 0] ++ leBytes 2 p.length ++
        leBytes 2 (certChain.length - off - p.length) ++ p)).finish)) ∧
  (Claims.spdmServes s 5 req → ∀ ty, ty = leAt req 3 1 →
    ((leAt req 2 1 ≠ 0 ∨ req.length < 36 ∨ ¬ (ty = 0 ∨ ty = 1 ∨ ty = 0xFF)) →
      exec (.challenge req) s = .next (Claims.spdmErr s 1).finish) ∧
    (leAt req 2 1 = 0 → 36 ≤ req.length → (ty = 0 ∨ ty = 1 ∨ ty = 0xFF) → exec (.challenge req) s =
      .next (Claims.says s { s.spdm with rnd := s.spdm.rnd + 1 } ([0x12, 0x03, 0, 1] ++ sha384 certChain ++
        slice (Config.spdmNonce s.spdm.rnd) 0 32 ++ s.measSummary ty ++ [0, 0] ++
        slice (Config.spdmSign s.spdm.rnd) 0 96)).finish)) ∧
  (Claims.spdmServes s 6 req → ∀ op sig, op = leAt req 3 1 → sig = bitOf (leAt req 2 1) 0 →
    (((4 < op ∧ op ≠ 0xFF) ∨ (sig = true ∧ (req.length < 37 ∨ leAt req 36 1 ≠ 0))) →
      exec (.getMeasurements req) s = .next (Claims.spdmErr s 1).finish) ∧
    (∀ r, (op ≤ 4 ∨ op = 0xFF) → (sig = true → 37 ≤ req.length ∧ leAt req 36 1 = 0) →
      r = s.measRecord (bitOf (leAt req 2 1) 1) (Claims.indices op) → exec (.getMeasurements req) s =
      .next (Claims.says s { s.spdm with rnd := s.spdm.rnd + 1 } ([0x12, 0x60, if op = 0 then 4 else 0, 0] ++
        leBytes 1 (Claims.indices op).length ++ leBytes 3 r.length ++ r ++ slice (Config.spdmNonce s.spdm.rnd) 0 32 ++
        [0, 0] ++ (if sig = true then slice (Config.spdmSign s.spdm.rnd) 0 96 else []))).finish))

/-- R371-R377: boundaries and the timebase load.
Readings and choices of the model in it: log entries 5, 68. -/
def Obligations.EpochBoundaries : Prop :=
  ∀ (s u : State) (later : Bool),
  (s.clk.run = false → exec (.epochIn later) s = .next s.finish) ∧
  (s.clk.run = true → u = Claims.atEdge s later → ∀ i, i = BitVec.ofNat 64 (u.clk.tb.toNat + 64) →
    (u.flag (epochOff 0) 2 = true → exec (.epochIn later) s = .next (Claims.loadArmed u i).finish) ∧
    (u.flag (epochOff 0) 2 = false →
      (u.clk.loadAt.isSome = true → exec (.epochIn later) s = .next (Claims.mergedEvent u 0).finish) ∧
      (u.clk.loadAt = none →
        (u.flag (epochOff 0) 0 = false → exec (.epochIn later) s = .next u.finish) ∧
        (u.flag (epochOff 0) 0 = true → exec (.epochIn later) s =
          .next (Claims.clkIs u { u.clk with pins := u.clk.pins ++ [i] }).finish)))) ∧
  ((∀ x, s.clk.loadAt = some x → s.clk.tb.toNat < x.toNat) → s.loadDue = s) ∧
  (∀ x, s.clk.loadAt = some x → x.toNat ≤ s.clk.tb.toNat → s.loadDue = s.tbLoad) ∧
  ((∀ i, s.clk.pins.head? = some i → s.clk.tb.toNat < i.toNat) → s.pinned = s) ∧
  (∀ i rest t k, s.clk.pins = i :: rest → i.toNat ≤ s.clk.tb.toNat → t = Claims.clkIs s { s.clk with pins := rest } →
    ((∀ x, Claims.awaited s x → i.toNat < x.toNat) →
      State.pinsDue (k + 1) s = State.pinsDue k (t.boundary i.toNat 0)) ∧
    (∀ x, Claims.awaited s x → x.toNat ≤ i.toNat →
      State.pinsDue (k + 1) s = State.pinsDue k ((Claims.schedEvent t x).boundary i.toNat 0))) ∧
  (∀ n, (∀ i ∈ s.clk.pins, n < i.toNat) → s.goUntil n = s.passUntil n) ∧
  ((s.clk.sched = none ∨ s.clk.jumped = true) → exec .scheduledBoundary s = .next s.finish) ∧
  (∀ x, Claims.awaited s x → u = s.goUntil x.toNat →
    (u.clk.sched.isSome = true → exec .scheduledBoundary s = .next (Claims.schedEvent u x).finish) ∧
    (u.clk.sched = none → exec .scheduledBoundary s = .next u.finish)) ∧
  (∀ i src, (u.clk.anyB = true → Claims.edgeAt u i = u.clk.lastEdge → u.boundary i src =
      Claims.clkIs u { u.clk with src := u.clk.src ||| BitVec.ofNat 3 (2 ^ src) }) ∧
    (Claims.tooNear u i → u.boundary i src = Claims.mergedEvent u src) ∧
    (¬ Claims.tooNear u i → (u.clk.anyB = true → Claims.edgeAt u i ≠ u.clk.lastEdge) →
      u.boundary i src = u.makeBoundary i src ∧ Claims.bounded u (u.boundary i src) i src)) ∧
  (∀ d, ((s.die d.val).boundaryAt = none → exec (.dieBoundaryCycle d) s = .next s.finish) ∧
    ∀ x, (s.die d.val).boundaryAt = some x → exec (.dieBoundaryCycle d) s =
      .next ((s.goUntil x.toNat).updDie d.val (fun y => { y with boundaryAt := none })).finish) ∧
  (s.clk.outHigh = false → exec .epochOutFall s = .next s.finish) ∧
  (s.clk.outHigh = true → u = s.passEdges s.clk.outFall → exec .epochOutFall s =
    .next ((Claims.clkIs u { u.clk with outHigh := false }).emit (.pin "EPOCH_OUT" false)).finish) ∧
  (s.clk.loadAt = none → exec .timebaseLoad s = .next s.finish) ∧
  (∀ n t, s.clk.loadAt = some n → t = s.goUntil n.toNat →
    ((∀ x, Claims.awaited t x → n.toNat ≤ x.toNat) → u = t) →
    (∀ x, Claims.awaited t x → x.toNat < n.toNat → u = Claims.schedEvent t x) →
    exec .timebaseLoad s = .next (Claims.loadTaken u
      (BitVec.ofNat 64 (Claims.tbLoadValue u + (u.clk.tb.toNat - n.toNat)))).finish)

/-- R381-R385: the governor and the power domains.
Readings and choices of the model in it: log entries 18, 19. -/
def Obligations.Governor : Prop :=
  ∀ (s u : State),
  (∃ c ok, Claims.loops (Claims.currentOver s) (Claims.currentUnder s) 100 s.topFreq s.gov.cur s.gov.curOk c ok ∧
    exec .currentLoopEvaluation s = .next (Claims.govC s c ok).governAll.finish) ∧
  (∃ c ok, Claims.loops (s.fld (pwrOff 0x44) 0 9 < s.gov.pkgW) (s.gov.pkgW + 5 < s.fld (pwrOff 0x44) 0 9) 10 s.topFreq
      s.gov.cap s.gov.capOk c ok ∧
    exec .capLoopEvaluation s = .next (Claims.govS s c ok).governAll.finish) ∧
  (∃ v : State, exec .thermalLoopEvaluation s = .next v.governAll.finish ∧ v.gov = s.gov ∧ v.regs = s.regs ∧
    ∀ n, n < s.dies.length → ∃ c ok, v.die n = Claims.thermSet (s.die n) c ok ∧
      (n ∈ s.unfenced → ∀ (t h : Int), t = 8 * (s.fld (pwrOff 0x48) 0 7 : Int) → h = max (s.hottest n) (s.hottest 6) →
        Claims.loops (t ≤ h) (h < t - 24) 10 (s.die n).therm (s.die n).therm (s.die n).thermOk c ok) ∧
      (n ∉ s.unfenced → c = (s.die n).therm ∧ ok = (s.die n).thermOk)) ∧
  (∀ n, n < s.dies.length → s.fenced n = false → (s.die n).up = true →
    ((s.govern n).die n).target = Claims.fn s n ∧
    ((s.die n).target = Claims.fn s n → ((s.govern n).die n).change = (s.die n).change) ∧
    ((s.die n).target ≠ Claims.fn s n → ∃ v, ((s.govern n).die n).change = some (BitVec.ofNat 64 v, Claims.fn s n) ∧
      v % 10 = 0 ∧ s.clk.tb.toNat + 10 ≤ v ∧ v < s.clk.tb.toNat + 20)) ∧
  (∀ n : Fin 6,
    (((s.die n.val).change = none ∨ (s.die n.val).stopped = true) → exec (.ckFabStop n) s = .next s.finish) ∧
    (∀ v f, (s.die n.val).change = some (v, f) → (s.die n.val).stopped = false → u = s.passUntil v.toNat →
      exec (.ckFabStop n) s = .next (u.updDie n.val (fun d => Claims.fabStopped d v f)).finish) ∧
    ((s.die n.val).restartAt = none → exec (.ckFabRestart n) s = .next s.finish) ∧
    (∀ v, (s.die n.val).restartAt = some v → u = s.passUntil v.toNat →
      exec (.ckFabRestart n) s = .next (u.updDie n.val Claims.fabGoes).finish)) ∧
  (∀ (n : Fin 6) l,
    (((s.die n.val).clampSince = none ∨ (s.die n.val).clampDone = true ∨ s.limitHolds n.val l = false) →
      exec (.clampEpisode n l) s = .next s.finish) ∧
    (∀ t, (s.die n.val).clampSince = some t → (s.die n.val).clampDone = false → s.limitHolds n.val l = true →
      u = s.passEdges (t + 1000001) → exec (.clampEpisode n l) s = .next (Claims.conflict u n.val l).finish)) ∧
  (∀ d : Fin 80,
    ((s.dom d.val).state = 2 →
      (d.val ≠ 67 → exec (.domainSwitchDone d) s = .next ((Claims.domNow s d.val 1).domFollow d.val).finish) ∧
      (d.val = 67 → exec (.domainSwitchDone d) s = .next ((Claims.twkAgain (Claims.domNow s 67 1)).domFollow 67).finish)) ∧
    ((s.dom d.val).state = 3 → exec (.domainSwitchDone d) s = .next ((Claims.domNow s d.val 0).domFollow d.val).finish) ∧
    ((s.dom d.val).state ≠ 2 → (s.dom d.val).state ≠ 3 → exec (.domainSwitchDone d) s = .next s.finish) ∧
    ((s.dom d.val).req = true → (s.dom d.val).state = 0 → s.domFollow d.val = Claims.domNow s d.val 2) ∧
    ((s.dom d.val).req = false → (s.dom d.val).state = 1 → s.domFollow d.val = Claims.domNow s d.val 3))

/-- R370, R390, R399, R433, R434, R442: supplies, trips and causes of a start.
Readings and choices of the model in it: log entries 16, 17. -/
def Obligations.Supplies : Prop :=
  ∀ (s : State),
  (∃ v, Claims.powerOn (Claims.goodVin s) v ∧ exec .vinGood s = .next v.finish) ∧
  (∃ v, Claims.powerOn (Claims.goodVio s) v ∧ exec .vioGood s = .next v.finish) ∧
  (∀ sel addr, ∃ v, Claims.powerOn (Claims.goodVstby s sel addr) v ∧ exec (.vstbyGood sel addr) s = .next v.finish) ∧
  (∀ w, w ≠ .vio → exec (.vinLost w) s =
    .next (Claims.afterLoss s (Claims.lostSupply s false s.start.vio)).finish) ∧
  exec (.vinLost .vio) s = .next (Claims.afterLoss s (Claims.lostSupply s s.start.vin false)).finish ∧
  exec .vstbyLost s = .next (Claims.noStandby s).finish ∧
  (∀ d : Fin 22, exec (.thermalTrip d) s = .next ((((Claims.tripped s).event 4 6 (mcOff (0x100 + 4 * d.val)) 0 d.val
    0).settle).domainsOff).finish) ∧
  Claims.isOff s.domainsOff ∧
  exec .refclkLost s = .next (Claims.clockOff (s.event 4 6 (startOff 0) 0 0 0).settle).finish ∧
  ((s.start.tripped = true ∧ s.start.perstHigh = true ∧ (∀ p ∈ s.gov.temps, p.2 < 800)) → exec .thermalRecovery s =
    .next (Claims.startDue s 7).finish) ∧
  (¬ (s.start.tripped = true ∧ s.start.perstHigh = true ∧ (∀ p ∈ s.gov.temps, p.2 < 800)) →
    exec .thermalRecovery s = .next s.finish) ∧
  (s.start.retry = true → exec .essentialRetry s =
    .next (State.finish { s with start := { s.start with due := some 4, retry := false } })) ∧
  (s.start.retry = false → exec .essentialRetry s = .next s.finish)

/-- R395-R402: the start sequence and its decisions.
Readings and choices of the model in it: log entries 15, 16. -/
def Obligations.StartSequence : Prop :=
  (∀ (s : State) env, s.canStart = false → exec (.startSequence env) s = .next s.finish) ∧
  (∀ (s s2 s3 s4 : State) (env : StartEnv) (cause inUse : Nat) (p : Plan) (ok : Bool) (recs : List RegRec) (f : Found),
    s.canStart = true → s.start.due = some cause → s2 = Claims.numbered s env (cause == 3) → p = s2.start.plan →
    Claims.blended s2 env ok s3 → Claims.setUp env ok s3 s4 recs → inUse = Claims.linksInUse s4 recs →
    f = Claims.foundIn p env cause inUse ok →
    (∀ k late, f.ess = some (k, late) → exec (.startSequence env) s =
      .next ((Claims.reached k s2 s3 s4).startFails p f env cause k inUse s.start.cleared).finish) ∧
    (f.ess = none → exec (.startSequence env) s = .next ((((((Claims.coreOn s4 p env cause).startDies p f
      (Claims.halfOf s env cause)).startStores p f env recs).startLinks p f).startEnds p f cause inUse
        s.start.cleared)).finish)) ∧
  (∀ (s : State) p f cause inUse cl, s.erq.heldR = [] → f.ess = none → ∀ t, t = s.startEnds p f cause inUse cl →
    t.start.state = 1 ∧ t.start.step = 24 ∧ t.start.cleared = false ∧ t.erq.started = true ∧
    ∃ e, Claims.entered16 s t e ∧ e.number = s.start.number ∧ e.cause = cause ∧ e.consec = 0 ∧
      (e.outcome = 1 ∨ e.outcome = 2) ∧ (t.start.degraded = true ↔ e.outcome = 2) ∧
      (e.outcome = 1 ↔ p = Plan.full ∧ f.dies = 0 ∧ f.ring = 0 ∧ f.ddr = 0 ∧ f.groups = 0 ∧ f.twikel = 0)) ∧
  (∀ (s : State) p f env cause k inUse cl late, f.ess = some (k, late) → ∀ t,
    t = s.startFails p f env cause k inUse cl →
    t.start.step = k ∧ t.start.state = (if 3 ≤ s.start.count then 2 else 0) ∧
    (t.start.retry = true ↔ s.start.count < 3) ∧
    ∃ e, Claims.entered16 s t e ∧ e.number = s.start.number ∧ e.cause = cause ∧ e.firstFail = k ∧
      e.consec = s.start.count ∧ e.outcome = (if 3 ≤ s.start.count then 4 else 3)) ∧
  (∀ x : Start, (x.previous = none → x.plan = Plan.full ∧ x.count = 1) ∧
    (∀ q, x.previous = some q → x.plan = Plan.after q ∧
      x.count = if q.outcome = 3 ∨ q.outcome = 4 then q.consec + 1 else 1) ∧
    (x.sinceClear = 0 → x.previous = none) ∧ (x.sinceClear ≠ 0 → x.previous = x.ledger.head?)) ∧
  (∀ (q : LedgerEntry) (i : Nat), i < 6 →
    bitOf (Plan.after q).dies i = (bitOf q.dieFen i || (bitOf q.dieFail i && !bitOf q.hubFail i) ||
      (bitOf q.hubFail i && bitOf q.cons i) || bitOf q.post i) ∧
    bitOf (Plan.after q).hubCons i = ((bitOf q.hubFail i || bitOf q.cons i) && !bitOf (Plan.after q).dies i) ∧
    bitOf (Plan.after q).ring i = (bitOf q.ringFen i || (bitOf q.ringFail i && bitOf q.cons (6 + i))) ∧
    bitOf (Plan.after q).ringCons i = ((bitOf q.ringFail i || bitOf q.cons (6 + i)) && !bitOf (Plan.after q).ring i)) ∧
  (∀ (q : LedgerEntry) (i : Nat), i < 8 →
    bitOf (Plan.after q).ddr i = (bitOf q.ddrFen i || (bitOf q.ddrFail i && bitOf q.cons (12 + i)) || bitOf q.post (6 + i)) ∧
    bitOf (Plan.after q).ddrCons i = ((bitOf q.ddrFail i || bitOf q.cons (12 + i)) && !bitOf (Plan.after q).ddr i)) ∧
  (∀ (q : LedgerEntry) (i : Nat), bitOf (Plan.after q).groups i = Claims.fences i q.grpFen q.grpFail 0 ∧
    bitOf (Plan.after q).twikel i = Claims.fences i q.twkFen q.twkFail 0)

/-- R408, R409, R412: sensors.
Readings and choices of the model in it: log entries 23, 45. -/
def Obligations.Sensors : Prop :=
  ∀ (s u : State) (id : Nat),
  (∀ r, Claims.noSensor s id → exec (.sensorSample id r) s = .next s.finish) ∧
  (¬ Claims.noSensor s id →
    (∀ v, u = s.keepReading id v →
      (u.sensorPolicy id = none → exec (.sensorSample id (.val v)) s = .next u.finish) ∧
      (∀ warn crit hyst, u.sensorPolicy id = some (warn, crit, hyst) → ∀ old, old = tget 0 u.gov.events id % 4 →
        ∃ new, Claims.level (sensorScale id) warn crit hyst old v new ∧
          (new = old → exec (.sensorSample id (.val v)) s = .next u.finish) ∧
          (new ≠ old →
            (u.oob.receiver = none →
              exec (.sensorSample id (.val v)) s = .next (Claims.crossed u id old new v).finish) ∧
            (∀ e, u.oob.receiver = some e → exec (.sensorSample id (.val v)) s =
              .next (Claims.told (Claims.crossed u id old new v) e id old new v).finish)))) ∧
    (22 < id → exec (.sensorSample id .fault) s = .next s.finish) ∧
    (∀ k, id ≤ 22 → k = id - 1 →
      (bitOf s.gov.faults k = true → exec (.sensorSample id .fault) s = .next s.finish) ∧
      (bitOf s.gov.faults k = false → u = Claims.faulty s k →
        ((∃ j ∈ diodeMates k, bitOf u.gov.faults j = false) → exec (.sensorSample id .fault) s =
          .next (u.event 1 6 (mcOff (0x100 + 4 * k)) 16 k 0).finish) ∧
        ((∀ j ∈ diodeMates k, bitOf u.gov.faults j = true) →
          (k < 18 → exec (.sensorSample id .fault) s = .next (u.event 3 (k / 3) (mcOff (0x100 + 4 * k)) 16 k 0).finish) ∧
          (18 ≤ k → exec (.sensorSample id .fault) s =
            .next (u.event 4 6 (mcOff (0x100 + 4 * k)) 16 k 0).finish))))) ∧
  (∀ v, 1 ≤ id → id ≤ 22 → (s.keepReading id v).reading id = v ∧
    (bitOf s.gov.faults (id - 1) = true → bitOf (s.keepReading id v).gov.faults (id - 1) = false) ∧
    ∀ j, 1 ≤ j → j ≠ id → (s.keepReading id v).reading j = s.reading j) ∧
  (∀ v : Int, 23 ≤ id → id ≤ 185 → 0 ≤ v → v < 4096 → (s.keepReading id v).reading id = v ∧
    ∀ j, 1 ≤ j → j ≤ 185 → j ≠ id → (s.keepReading id v).reading j = s.reading j)

/-- R410-R413: the out-of-band rows.
Readings and choices of the model in it: log entries 23, 46. -/
def Obligations.OutOfBand : Prop :=
  ∀ (s : State) (eid : BitVec 8) (req : List Byte),
  (s.start.vstby = false → (∀ i c t bs, Claims.control s eid req i c t bs → exec i s = .next s.finish) ∧
    (∀ i ty c t bs, Claims.pldm s eid req i ty c t bs → exec i s = .next s.finish) ∧
    ∀ i c t bs, Claims.vendor s eid req i c t bs → exec i s = .next s.finish) ∧
  (s.start.vstby = true →
    (∀ i c t bs, Claims.control s eid req i c t bs →
      ((leAt req 0 1 ≠ 0 ∨ leAt req 2 1 ≠ c) → exec i s = .next (Claims.toward s eid (Claims.ctlHead req ++ [5])).finish) ∧
      (leAt req 0 1 = 0 → leAt req 2 1 = c → exec i s = .next (Claims.toward t eid (Claims.ctlHead req ++ bs)).finish)) ∧
    (∀ i ty c t bs, Claims.pldm s eid req i ty c t bs →
      (Claims.notPldm req → exec i s = .next s.finish) ∧
      (¬ Claims.notPldm req →
        (leAt req 2 1 % 64 ≠ 0 → leAt req 2 1 % 64 ≠ 2 →
          exec i s = .next (Claims.toward s eid (Claims.pldmHead req ++ [0x20])).finish) ∧
        ((leAt req 2 1 % 64 = 0 ∨ leAt req 2 1 % 64 = 2) → (leAt req 2 1 % 64 ≠ ty ∨ leAt req 3 1 ≠ c) →
          exec i s = .next (Claims.toward s eid (Claims.pldmHead req ++ [5])).finish) ∧
        (leAt req 2 1 % 64 = ty → leAt req 3 1 = c →
          exec i s = .next (Claims.toward t eid (Claims.pldmHead req ++ bs)).finish))) ∧
    (∀ i c t bs, Claims.vendor s eid req i c t bs →
      (Claims.notVendor req → exec i s = .next s.finish) ∧
      (¬ Claims.notVendor req →
        (leAt req 3 1 ≠ c → exec i s = .next (Claims.toward s eid (Claims.vdmHead req ++ [5])).finish) ∧
        (leAt req 3 1 = c → exec i s = .next (Claims.toward t eid (Claims.vdmHead req ++ bs)).finish)))) ∧
  (∀ t bs, s.setEid req = (t, bs) →
    (req.length = 5 → leAt req 3 1 % 4 ≤ 1 → leAt req 4 1 ≠ 0 → leAt req 4 1 ≠ 0xFF →
      t = { s with oob := { s.oob with eid := BitVec.ofNat 8 (leAt req 4 1) } }) ∧
    ((req.length ≠ 5 ∨ 1 < leAt req 3 1 % 4 ∨ leAt req 4 1 = 0 ∨ leAt req 4 1 = 0xFF) → t = s)) ∧
  (∀ t bs, s.setReceiver req = (t, bs) →
    (leAt req 4 1 = 0 → t = { s with oob := { s.oob with receiver := none } }) ∧
    (leAt req 4 1 = 1 → leAt req 5 1 = 0 →
      t = { s with oob := { s.oob with receiver := some (BitVec.ofNat 8 (leAt req 6 1)) } }) ∧
    (leAt req 4 1 ≠ 0 → (leAt req 4 1 ≠ 1 ∨ leAt req 5 1 ≠ 0) → t = s)) ∧
  (∀ id, id = leAt req 4 2 →
    ((id = 0 ∨ 185 < id) → s.sensorReading req = [0x80] ∧ s.sensorThresholds req = [0x80]) ∧
    (1 ≤ id → id ≤ 185 → (s.sensorReading req).length = 11 ∧ (s.sensorThresholds req).length = 26))

/-- The step takes the commands first in, first out (log entries 4 and 5).
Readings and choices of the model in it: log entries 4, 66. -/
def Obligations.StepRuns : Prop :=
  (∀ (c : Instr) (rest : List Instr) (s : State), step (Claims.queued s (c :: rest)) = exec c (Claims.queued s rest)) ∧
  (∀ s : State, s.pending = [] → step s = .next (s.advance 1).finish) ∧
  (∀ s : State, s.pending = [] → s.clk.run = false → step s = .next s.finish) ∧
  (∀ (s : State) (nbits w : Nat), s.withFetchWord nbits w = s)

/-- Every command of the table has its effect in every state (R14).
Readings and choices of the model in it: log entry 10. -/
def Obligations.StepsGoOn : Prop := ∀ s : State, Safety.goesOn (step s)

/-- R393, R395: no step leaves a record unqueued or FAULT_N at a wrong level.
Readings and choices of the model in it: log entry 36. -/
def Obligations.EveryStepSettles : Prop :=
  ∀ s t : State, step s = .next t → Safety.Settled t = true

/-- The reset state (log entry 1) and the counters of manufacture (R322, R333, R401, R409).
Readings and choices of the model in it: log entries 1, 2. -/
def Obligations.ResetState : Prop :=
  Safety.Settled State.reset = true ∧ Safety.Quiet State.reset = true ∧ State.reset.mem = [] ∧
  Memory.wf State.reset.mem = true ∧ State.reset.pending = [] ∧ State.reset.clk.tb = 0 ∧ State.reset.clk.epoch = 0 ∧
  State.reset.clk.run = false ∧ State.reset.start.number = 0 ∧ State.reset.logNext = 0 ∧
  State.reset.kao.seqNext = 0 ∧ State.reset.kao.calId = 1 ∧ State.reset.kao.mec = 2 ∧
  State.reset.kao.sealClosed = true ∧ State.reset.kao.ready = false ∧ State.reset.graphs = [] ∧
  State.reset.dies.length = 6 ∧ (∀ d ∈ State.reset.dies, d.up = false) ∧ State.reset.ports.length = 16 ∧
  (∀ p ∈ State.reset.ports, p.state = .disabled) ∧ State.reset.start.vin = false ∧ State.reset.start.vstby = false ∧
  State.reset.start.state = 0

/-- R76-R79, R107: decode of encode, and encode of decode, for the 72-bit slot. -/
def Obligations.SlotEncoding : Prop :=
  (∀ i : Insn, i.wf = true → ∃ r, readSlot (encodeInsn i) = .ok r i ∧ r.op = i.op ∧ r.x = i.x ∧ r.fmts.contains i.fmt = true) ∧
  (∀ (sl : Slot) (r : OpRow) (i : Insn), readSlot sl = .ok r i → i.wf = true ∧ encodeInsn i = sl) ∧
  (∀ r ∈ opRows, ∀ q ∈ opRows, (r.code = q.code ∨ (r.op = q.op ∧ r.x = q.x)) → r = q) ∧
  (∀ r ∈ opRows, r.code < 2 ^ 9)

/-- R258: the P36 format. -/
def Obligations.WordFormats : Prop :=
  ∀ (d e : Desc) (ws : List Word), d.df = 5 → e.sf = 5 →
    (Claims.streamBytes d ws).length = (9 * ws.length + 1) / 2 ∧
    (∀ i j, 2 * i + 1 < ws.length → j < 9 → Claims.byteAt (Claims.streamBytes d ws) (9 * i + j) =
      (Claims.wordAt ws (2 * i) + Claims.wordAt ws (2 * i + 1) * 2 ^ 36) / 2 ^ (8 * j) % 256) ∧
    (∀ i j, 2 * i + 1 = ws.length → j < 5 → Claims.byteAt (Claims.streamBytes d ws) (9 * i + j) =
      Claims.wordAt ws (2 * i) / 2 ^ (8 * j) % 256) ∧
    (∀ i, 2 * i + 1 = ws.length → Claims.byteAt (Claims.streamBytes d ws) (9 * i + 4) = Claims.wordAt ws (2 * i) / 2 ^ 32) ∧
    (∀ (bs : List Byte) (i : Nat), 2 * i + 1 = ws.length → bs.length = 9 * i + 5 →
      hostWord e bs (2 * i) = BitVec.ofNat 36 (leNat (bs.drop (9 * i)))) ∧
    (∀ (bs : List Byte) (i : Nat), 9 * i + 9 ≤ bs.length →
      hostWord e bs (2 * i) = BitVec.ofNat 36 (leNat ((bs.drop (9 * i)).take 9)) ∧
      hostWord e bs (2 * i + 1) = BitVec.ofNat 36 (leNat ((bs.drop (9 * i)).take 9) / 2 ^ 36)) ∧
    (∀ i, i < ws.length → hostWord e (Claims.streamBytes d ws) i = ws.getD i 0)

/-- R257: the truncation check, in the step of one word of a burst. -/
def Obligations.Truncation : Prop :=
  ∀ (d : Desc) (k : Nat) (data : HostData) (a : Bread) (i : Nat) (t : State) (x : PWord),
    Claims.moves d k data a i t x → (x.p = false ∨ d.sop = false) →
    (∀ w, Claims.checked d w → d.chk = true → x.p = false →
      (Claims.fits d.ext w x.v → (Bread.step d k data a i).err = none ∧
        (Bread.step d k data a i).words = a.words ++ [x]) ∧
      (¬ Claims.fits d.ext w x.v → (Bread.step d k data a i).err = some 0x12 ∧
        (Bread.step d k data a i).words = a.words)) ∧
    (∀ w, Claims.checked d w → d.chk = false → (Bread.step d k data a i).err = none ∧
      (Bread.step d k data a i).words = a.words ++ [x] ∧ hostBits d x.v = x.v.toNat % 2 ^ w) ∧
    ((d.df = 0 ∨ d.df = 1 ∨ d.df = 5) → (Bread.step d k data a i).err = none) ∧
    (x.p = true → (Bread.step d k data a i).err = none)

/-- R47: the Home Map index and the home die. -/
def Obligations.HomeDie : Prop :=
  (∀ (s : State) (cid : BitVec 24) (h : BitVec 32), h = cid.setWidth 32 * 0x9E3B1F35#32 →
    s.homeOf cid.toNat = s.fld (fabOff (4 * (h.extractLsb' 24 8).toNat)) 0 3) ∧
  (∀ (s t : State), (∀ n, n < 256 → s.fld (fabOff (4 * n)) 0 3 = t.fld (fabOff (4 * n)) 0 3) →
    ∀ cid : BitVec 24, s.homeOf cid.toNat = t.homeOf cid.toNat)

/-- R276: x^58 + x^39 + 1. -/
def Obligations.Scrambler : Prop :=
  (∀ (st bits : List Bool) (b : Bool), st.length = 58 → scramble st (b :: bits) =
    (b ^^ st.getD 38 false ^^ st.getD 57 false) ::
      scramble ((b ^^ st.getD 38 false ^^ st.getD 57 false) :: st.take 57) bits) ∧
  (∀ st bits : List Bool, (scramble st bits).length = bits.length ∧ descramble st (scramble st bits) = bits) ∧
  (∀ st other bits : List Bool, (descramble other (scramble st bits)).drop 58 = bits.drop 58)

/-- R236, R259, R339: the requests of a host read.
Readings and choices of the model in it: log entry 64. -/
def Obligations.HostRequests : Prop :=
  ∀ (s : State) (a len : Nat) (ns : Bool) (fn : Nat), ∃ rs : List (Nat × Nat),
    s.readHost a len ns fn = { s with outbox := s.outbox ++ rs.map (fun r => Out.hostRead r.1 r.2 ns fn) } ∧
    Claims.covers a len rs ∧ ∀ r ∈ rs, r.1 % 4096 + r.2 ≤ 4096 ∧ r.1 % 4 + r.2 ≤ s.mrrs
end

