-- ==== Sys2Proof/Laws/State.lean ====
section
/-! SUPPORT. What each update of State leaves alone: one lemma per field and update. -/

namespace Sys2Proof.Machine

variable (s : State)

/-! setDie writes dies. -/
@[simp] theorem State.setDie_pending (n : Nat) (d : Die) : (s.setDie n d).pending = s.pending := rfl
@[simp] theorem State.setDie_clk (n : Nat) (d : Die) : (s.setDie n d).clk = s.clk := rfl
@[simp] theorem State.setDie_mem (n : Nat) (d : Die) : (s.setDie n d).mem = s.mem := rfl
@[simp] theorem State.setDie_sweep (n : Nat) (d : Die) : (s.setDie n d).sweep = s.sweep := rfl
@[simp] theorem State.setDie_cfg (n : Nat) (d : Die) : (s.setDie n d).cfg = s.cfg := rfl
@[simp] theorem State.setDie_regs (n : Nat) (d : Die) : (s.setDie n d).regs = s.regs := rfl
@[simp] theorem State.setDie_shadows (n : Nat) (d : Die) : (s.setDie n d).shadows = s.shadows := rfl
@[simp] theorem State.setDie_capture (n : Nat) (d : Die) : (s.setDie n d).capture = s.capture := rfl
@[simp] theorem State.setDie_pes (n : Nat) (d : Die) : (s.setDie n d).pes = s.pes := rfl
@[simp] theorem State.setDie_lanes (n : Nat) (d : Die) : (s.setDie n d).lanes = s.lanes := rfl
@[simp] theorem State.setDie_sets (n : Nat) (d : Die) : (s.setDie n d).sets = s.sets := rfl
@[simp] theorem State.setDie_istore (n : Nat) (d : Die) : (s.setDie n d).istore = s.istore := rfl
@[simp] theorem State.setDie_graphs (n : Nat) (d : Die) : (s.setDie n d).graphs = s.graphs := rfl
@[simp] theorem State.setDie_queues (n : Nat) (d : Die) : (s.setDie n d).queues = s.queues := rfl
@[simp] theorem State.setDie_links (n : Nat) (d : Die) : (s.setDie n d).links = s.links := rfl
@[simp] theorem State.setDie_dirs (n : Nat) (d : Die) : (s.setDie n d).dirs = s.dirs := rfl
@[simp] theorem State.setDie_banks (n : Nat) (d : Die) : (s.setDie n d).banks = s.banks := rfl
@[simp] theorem State.setDie_latches (n : Nat) (d : Die) : (s.setDie n d).latches = s.latches := rfl
@[simp] theorem State.setDie_units (n : Nat) (d : Die) : (s.setDie n d).units = s.units := rfl
@[simp] theorem State.setDie_nextUnit (n : Nat) (d : Die) : (s.setDie n d).nextUnit = s.nextUnit := rfl
@[simp] theorem State.setDie_chans (n : Nat) (d : Die) : (s.setDie n d).chans = s.chans := rfl
@[simp] theorem State.setDie_lastGrant (n : Nat) (d : Die) : (s.setDie n d).lastGrant = s.lastGrant := rfl
@[simp] theorem State.setDie_ports (n : Nat) (d : Die) : (s.setDie n d).ports = s.ports := rfl
@[simp] theorem State.setDie_tws (n : Nat) (d : Die) : (s.setDie n d).tws = s.tws := rfl
@[simp] theorem State.setDie_qps (n : Nat) (d : Die) : (s.setDie n d).qps = s.qps := rfl
@[simp] theorem State.setDie_ce (n : Nat) (d : Die) : (s.setDie n d).ce = s.ce := rfl
@[simp] theorem State.setDie_kao (n : Nat) (d : Die) : (s.setDie n d).kao = s.kao := rfl
@[simp] theorem State.setDie_sealPort (n : Nat) (d : Die) : (s.setDie n d).sealPort = s.sealPort := rfl
@[simp] theorem State.setDie_erq (n : Nat) (d : Die) : (s.setDie n d).erq = s.erq := rfl
@[simp] theorem State.setDie_log (n : Nat) (d : Die) : (s.setDie n d).log = s.log := rfl
@[simp] theorem State.setDie_logNext (n : Nat) (d : Die) : (s.setDie n d).logNext = s.logNext := rfl
@[simp] theorem State.setDie_gov (n : Nat) (d : Die) : (s.setDie n d).gov = s.gov := rfl
@[simp] theorem State.setDie_doms (n : Nat) (d : Die) : (s.setDie n d).doms = s.doms := rfl
@[simp] theorem State.setDie_start (n : Nat) (d : Die) : (s.setDie n d).start = s.start := rfl
@[simp] theorem State.setDie_blend (n : Nat) (d : Die) : (s.setDie n d).blend = s.blend := rfl
@[simp] theorem State.setDie_repairs (n : Nat) (d : Die) : (s.setDie n d).repairs = s.repairs := rfl
@[simp] theorem State.setDie_oob (n : Nat) (d : Die) : (s.setDie n d).oob = s.oob := rfl
@[simp] theorem State.setDie_spdm (n : Nat) (d : Die) : (s.setDie n d).spdm = s.spdm := rfl
@[simp] theorem State.setDie_msix (n : Nat) (d : Die) : (s.setDie n d).msix = s.msix := rfl
@[simp] theorem State.setDie_d3hot (n : Nat) (d : Die) : (s.setDie n d).d3hot = s.d3hot := rfl
@[simp] theorem State.setDie_pcieUp (n : Nat) (d : Die) : (s.setDie n d).pcieUp = s.pcieUp := rfl
@[simp] theorem State.setDie_pkgLevel (n : Nat) (d : Die) : (s.setDie n d).pkgLevel = s.pkgLevel := rfl
@[simp] theorem State.setDie_rptSeq (n : Nat) (d : Die) : (s.setDie n d).rptSeq = s.rptSeq := rfl
@[simp] theorem State.setDie_cfgReject (n : Nat) (d : Die) : (s.setDie n d).cfgReject = s.cfgReject := rfl
@[simp] theorem State.setDie_victims (n : Nat) (d : Die) : (s.setDie n d).victims = s.victims := rfl
@[simp] theorem State.setDie_raised (n : Nat) (d : Die) : (s.setDie n d).raised = s.raised := rfl
@[simp] theorem State.setDie_outbox (n : Nat) (d : Die) : (s.setDie n d).outbox = s.outbox := rfl
@[simp] theorem State.setDie_draws (n : Nat) (d : Die) : (s.setDie n d).draws = s.draws := rfl

/-! updDie writes dies. -/
@[simp] theorem State.updDie_pending (n : Nat) (f : Die → Die) : (s.updDie n f).pending = s.pending := rfl
@[simp] theorem State.updDie_clk (n : Nat) (f : Die → Die) : (s.updDie n f).clk = s.clk := rfl
@[simp] theorem State.updDie_mem (n : Nat) (f : Die → Die) : (s.updDie n f).mem = s.mem := rfl
@[simp] theorem State.updDie_sweep (n : Nat) (f : Die → Die) : (s.updDie n f).sweep = s.sweep := rfl
@[simp] theorem State.updDie_cfg (n : Nat) (f : Die → Die) : (s.updDie n f).cfg = s.cfg := rfl
@[simp] theorem State.updDie_regs (n : Nat) (f : Die → Die) : (s.updDie n f).regs = s.regs := rfl
@[simp] theorem State.updDie_shadows (n : Nat) (f : Die → Die) : (s.updDie n f).shadows = s.shadows := rfl
@[simp] theorem State.updDie_capture (n : Nat) (f : Die → Die) : (s.updDie n f).capture = s.capture := rfl
@[simp] theorem State.updDie_pes (n : Nat) (f : Die → Die) : (s.updDie n f).pes = s.pes := rfl
@[simp] theorem State.updDie_lanes (n : Nat) (f : Die → Die) : (s.updDie n f).lanes = s.lanes := rfl
@[simp] theorem State.updDie_sets (n : Nat) (f : Die → Die) : (s.updDie n f).sets = s.sets := rfl
@[simp] theorem State.updDie_istore (n : Nat) (f : Die → Die) : (s.updDie n f).istore = s.istore := rfl
@[simp] theorem State.updDie_graphs (n : Nat) (f : Die → Die) : (s.updDie n f).graphs = s.graphs := rfl
@[simp] theorem State.updDie_queues (n : Nat) (f : Die → Die) : (s.updDie n f).queues = s.queues := rfl
@[simp] theorem State.updDie_links (n : Nat) (f : Die → Die) : (s.updDie n f).links = s.links := rfl
@[simp] theorem State.updDie_dirs (n : Nat) (f : Die → Die) : (s.updDie n f).dirs = s.dirs := rfl
@[simp] theorem State.updDie_banks (n : Nat) (f : Die → Die) : (s.updDie n f).banks = s.banks := rfl
@[simp] theorem State.updDie_latches (n : Nat) (f : Die → Die) : (s.updDie n f).latches = s.latches := rfl
@[simp] theorem State.updDie_units (n : Nat) (f : Die → Die) : (s.updDie n f).units = s.units := rfl
@[simp] theorem State.updDie_nextUnit (n : Nat) (f : Die → Die) : (s.updDie n f).nextUnit = s.nextUnit := rfl
@[simp] theorem State.updDie_chans (n : Nat) (f : Die → Die) : (s.updDie n f).chans = s.chans := rfl
@[simp] theorem State.updDie_lastGrant (n : Nat) (f : Die → Die) : (s.updDie n f).lastGrant = s.lastGrant := rfl
@[simp] theorem State.updDie_ports (n : Nat) (f : Die → Die) : (s.updDie n f).ports = s.ports := rfl
@[simp] theorem State.updDie_tws (n : Nat) (f : Die → Die) : (s.updDie n f).tws = s.tws := rfl
@[simp] theorem State.updDie_qps (n : Nat) (f : Die → Die) : (s.updDie n f).qps = s.qps := rfl
@[simp] theorem State.updDie_ce (n : Nat) (f : Die → Die) : (s.updDie n f).ce = s.ce := rfl
@[simp] theorem State.updDie_kao (n : Nat) (f : Die → Die) : (s.updDie n f).kao = s.kao := rfl
@[simp] theorem State.updDie_sealPort (n : Nat) (f : Die → Die) : (s.updDie n f).sealPort = s.sealPort := rfl
@[simp] theorem State.updDie_erq (n : Nat) (f : Die → Die) : (s.updDie n f).erq = s.erq := rfl
@[simp] theorem State.updDie_log (n : Nat) (f : Die → Die) : (s.updDie n f).log = s.log := rfl
@[simp] theorem State.updDie_logNext (n : Nat) (f : Die → Die) : (s.updDie n f).logNext = s.logNext := rfl
@[simp] theorem State.updDie_gov (n : Nat) (f : Die → Die) : (s.updDie n f).gov = s.gov := rfl
@[simp] theorem State.updDie_doms (n : Nat) (f : Die → Die) : (s.updDie n f).doms = s.doms := rfl
@[simp] theorem State.updDie_start (n : Nat) (f : Die → Die) : (s.updDie n f).start = s.start := rfl
@[simp] theorem State.updDie_blend (n : Nat) (f : Die → Die) : (s.updDie n f).blend = s.blend := rfl
@[simp] theorem State.updDie_repairs (n : Nat) (f : Die → Die) : (s.updDie n f).repairs = s.repairs := rfl
@[simp] theorem State.updDie_oob (n : Nat) (f : Die → Die) : (s.updDie n f).oob = s.oob := rfl
@[simp] theorem State.updDie_spdm (n : Nat) (f : Die → Die) : (s.updDie n f).spdm = s.spdm := rfl
@[simp] theorem State.updDie_msix (n : Nat) (f : Die → Die) : (s.updDie n f).msix = s.msix := rfl
@[simp] theorem State.updDie_d3hot (n : Nat) (f : Die → Die) : (s.updDie n f).d3hot = s.d3hot := rfl
@[simp] theorem State.updDie_pcieUp (n : Nat) (f : Die → Die) : (s.updDie n f).pcieUp = s.pcieUp := rfl
@[simp] theorem State.updDie_pkgLevel (n : Nat) (f : Die → Die) : (s.updDie n f).pkgLevel = s.pkgLevel := rfl
@[simp] theorem State.updDie_rptSeq (n : Nat) (f : Die → Die) : (s.updDie n f).rptSeq = s.rptSeq := rfl
@[simp] theorem State.updDie_cfgReject (n : Nat) (f : Die → Die) : (s.updDie n f).cfgReject = s.cfgReject := rfl
@[simp] theorem State.updDie_victims (n : Nat) (f : Die → Die) : (s.updDie n f).victims = s.victims := rfl
@[simp] theorem State.updDie_raised (n : Nat) (f : Die → Die) : (s.updDie n f).raised = s.raised := rfl
@[simp] theorem State.updDie_outbox (n : Nat) (f : Die → Die) : (s.updDie n f).outbox = s.outbox := rfl
@[simp] theorem State.updDie_draws (n : Nat) (f : Die → Die) : (s.updDie n f).draws = s.draws := rfl

/-! setPe writes pes. -/
@[simp] theorem State.setPe_pending (k : Nat) (p : Pe) : (s.setPe k p).pending = s.pending := rfl
@[simp] theorem State.setPe_clk (k : Nat) (p : Pe) : (s.setPe k p).clk = s.clk := rfl
@[simp] theorem State.setPe_mem (k : Nat) (p : Pe) : (s.setPe k p).mem = s.mem := rfl
@[simp] theorem State.setPe_sweep (k : Nat) (p : Pe) : (s.setPe k p).sweep = s.sweep := rfl
@[simp] theorem State.setPe_cfg (k : Nat) (p : Pe) : (s.setPe k p).cfg = s.cfg := rfl
@[simp] theorem State.setPe_regs (k : Nat) (p : Pe) : (s.setPe k p).regs = s.regs := rfl
@[simp] theorem State.setPe_shadows (k : Nat) (p : Pe) : (s.setPe k p).shadows = s.shadows := rfl
@[simp] theorem State.setPe_capture (k : Nat) (p : Pe) : (s.setPe k p).capture = s.capture := rfl
@[simp] theorem State.setPe_dies (k : Nat) (p : Pe) : (s.setPe k p).dies = s.dies := rfl
@[simp] theorem State.setPe_lanes (k : Nat) (p : Pe) : (s.setPe k p).lanes = s.lanes := rfl
@[simp] theorem State.setPe_sets (k : Nat) (p : Pe) : (s.setPe k p).sets = s.sets := rfl
@[simp] theorem State.setPe_istore (k : Nat) (p : Pe) : (s.setPe k p).istore = s.istore := rfl
@[simp] theorem State.setPe_graphs (k : Nat) (p : Pe) : (s.setPe k p).graphs = s.graphs := rfl
@[simp] theorem State.setPe_queues (k : Nat) (p : Pe) : (s.setPe k p).queues = s.queues := rfl
@[simp] theorem State.setPe_links (k : Nat) (p : Pe) : (s.setPe k p).links = s.links := rfl
@[simp] theorem State.setPe_dirs (k : Nat) (p : Pe) : (s.setPe k p).dirs = s.dirs := rfl
@[simp] theorem State.setPe_banks (k : Nat) (p : Pe) : (s.setPe k p).banks = s.banks := rfl
@[simp] theorem State.setPe_latches (k : Nat) (p : Pe) : (s.setPe k p).latches = s.latches := rfl
@[simp] theorem State.setPe_units (k : Nat) (p : Pe) : (s.setPe k p).units = s.units := rfl
@[simp] theorem State.setPe_nextUnit (k : Nat) (p : Pe) : (s.setPe k p).nextUnit = s.nextUnit := rfl
@[simp] theorem State.setPe_chans (k : Nat) (p : Pe) : (s.setPe k p).chans = s.chans := rfl
@[simp] theorem State.setPe_lastGrant (k : Nat) (p : Pe) : (s.setPe k p).lastGrant = s.lastGrant := rfl
@[simp] theorem State.setPe_ports (k : Nat) (p : Pe) : (s.setPe k p).ports = s.ports := rfl
@[simp] theorem State.setPe_tws (k : Nat) (p : Pe) : (s.setPe k p).tws = s.tws := rfl
@[simp] theorem State.setPe_qps (k : Nat) (p : Pe) : (s.setPe k p).qps = s.qps := rfl
@[simp] theorem State.setPe_ce (k : Nat) (p : Pe) : (s.setPe k p).ce = s.ce := rfl
@[simp] theorem State.setPe_kao (k : Nat) (p : Pe) : (s.setPe k p).kao = s.kao := rfl
@[simp] theorem State.setPe_sealPort (k : Nat) (p : Pe) : (s.setPe k p).sealPort = s.sealPort := rfl
@[simp] theorem State.setPe_erq (k : Nat) (p : Pe) : (s.setPe k p).erq = s.erq := rfl
@[simp] theorem State.setPe_log (k : Nat) (p : Pe) : (s.setPe k p).log = s.log := rfl
@[simp] theorem State.setPe_logNext (k : Nat) (p : Pe) : (s.setPe k p).logNext = s.logNext := rfl
@[simp] theorem State.setPe_gov (k : Nat) (p : Pe) : (s.setPe k p).gov = s.gov := rfl
@[simp] theorem State.setPe_doms (k : Nat) (p : Pe) : (s.setPe k p).doms = s.doms := rfl
@[simp] theorem State.setPe_start (k : Nat) (p : Pe) : (s.setPe k p).start = s.start := rfl
@[simp] theorem State.setPe_blend (k : Nat) (p : Pe) : (s.setPe k p).blend = s.blend := rfl
@[simp] theorem State.setPe_repairs (k : Nat) (p : Pe) : (s.setPe k p).repairs = s.repairs := rfl
@[simp] theorem State.setPe_oob (k : Nat) (p : Pe) : (s.setPe k p).oob = s.oob := rfl
@[simp] theorem State.setPe_spdm (k : Nat) (p : Pe) : (s.setPe k p).spdm = s.spdm := rfl
@[simp] theorem State.setPe_msix (k : Nat) (p : Pe) : (s.setPe k p).msix = s.msix := rfl
@[simp] theorem State.setPe_d3hot (k : Nat) (p : Pe) : (s.setPe k p).d3hot = s.d3hot := rfl
@[simp] theorem State.setPe_pcieUp (k : Nat) (p : Pe) : (s.setPe k p).pcieUp = s.pcieUp := rfl
@[simp] theorem State.setPe_pkgLevel (k : Nat) (p : Pe) : (s.setPe k p).pkgLevel = s.pkgLevel := rfl
@[simp] theorem State.setPe_rptSeq (k : Nat) (p : Pe) : (s.setPe k p).rptSeq = s.rptSeq := rfl
@[simp] theorem State.setPe_cfgReject (k : Nat) (p : Pe) : (s.setPe k p).cfgReject = s.cfgReject := rfl
@[simp] theorem State.setPe_victims (k : Nat) (p : Pe) : (s.setPe k p).victims = s.victims := rfl
@[simp] theorem State.setPe_raised (k : Nat) (p : Pe) : (s.setPe k p).raised = s.raised := rfl
@[simp] theorem State.setPe_outbox (k : Nat) (p : Pe) : (s.setPe k p).outbox = s.outbox := rfl
@[simp] theorem State.setPe_draws (k : Nat) (p : Pe) : (s.setPe k p).draws = s.draws := rfl

/-! setLane writes lanes. -/
@[simp] theorem State.setLane_pending (k : Nat) (l : Lane) : (s.setLane k l).pending = s.pending := rfl
@[simp] theorem State.setLane_clk (k : Nat) (l : Lane) : (s.setLane k l).clk = s.clk := rfl
@[simp] theorem State.setLane_mem (k : Nat) (l : Lane) : (s.setLane k l).mem = s.mem := rfl
@[simp] theorem State.setLane_sweep (k : Nat) (l : Lane) : (s.setLane k l).sweep = s.sweep := rfl
@[simp] theorem State.setLane_cfg (k : Nat) (l : Lane) : (s.setLane k l).cfg = s.cfg := rfl
@[simp] theorem State.setLane_regs (k : Nat) (l : Lane) : (s.setLane k l).regs = s.regs := rfl
@[simp] theorem State.setLane_shadows (k : Nat) (l : Lane) : (s.setLane k l).shadows = s.shadows := rfl
@[simp] theorem State.setLane_capture (k : Nat) (l : Lane) : (s.setLane k l).capture = s.capture := rfl
@[simp] theorem State.setLane_dies (k : Nat) (l : Lane) : (s.setLane k l).dies = s.dies := rfl
@[simp] theorem State.setLane_pes (k : Nat) (l : Lane) : (s.setLane k l).pes = s.pes := rfl
@[simp] theorem State.setLane_sets (k : Nat) (l : Lane) : (s.setLane k l).sets = s.sets := rfl
@[simp] theorem State.setLane_istore (k : Nat) (l : Lane) : (s.setLane k l).istore = s.istore := rfl
@[simp] theorem State.setLane_graphs (k : Nat) (l : Lane) : (s.setLane k l).graphs = s.graphs := rfl
@[simp] theorem State.setLane_queues (k : Nat) (l : Lane) : (s.setLane k l).queues = s.queues := rfl
@[simp] theorem State.setLane_links (k : Nat) (l : Lane) : (s.setLane k l).links = s.links := rfl
@[simp] theorem State.setLane_dirs (k : Nat) (l : Lane) : (s.setLane k l).dirs = s.dirs := rfl
@[simp] theorem State.setLane_banks (k : Nat) (l : Lane) : (s.setLane k l).banks = s.banks := rfl
@[simp] theorem State.setLane_latches (k : Nat) (l : Lane) : (s.setLane k l).latches = s.latches := rfl
@[simp] theorem State.setLane_units (k : Nat) (l : Lane) : (s.setLane k l).units = s.units := rfl
@[simp] theorem State.setLane_nextUnit (k : Nat) (l : Lane) : (s.setLane k l).nextUnit = s.nextUnit := rfl
@[simp] theorem State.setLane_chans (k : Nat) (l : Lane) : (s.setLane k l).chans = s.chans := rfl
@[simp] theorem State.setLane_lastGrant (k : Nat) (l : Lane) : (s.setLane k l).lastGrant = s.lastGrant := rfl
@[simp] theorem State.setLane_ports (k : Nat) (l : Lane) : (s.setLane k l).ports = s.ports := rfl
@[simp] theorem State.setLane_tws (k : Nat) (l : Lane) : (s.setLane k l).tws = s.tws := rfl
@[simp] theorem State.setLane_qps (k : Nat) (l : Lane) : (s.setLane k l).qps = s.qps := rfl
@[simp] theorem State.setLane_ce (k : Nat) (l : Lane) : (s.setLane k l).ce = s.ce := rfl
@[simp] theorem State.setLane_kao (k : Nat) (l : Lane) : (s.setLane k l).kao = s.kao := rfl
@[simp] theorem State.setLane_sealPort (k : Nat) (l : Lane) : (s.setLane k l).sealPort = s.sealPort := rfl
@[simp] theorem State.setLane_erq (k : Nat) (l : Lane) : (s.setLane k l).erq = s.erq := rfl
@[simp] theorem State.setLane_log (k : Nat) (l : Lane) : (s.setLane k l).log = s.log := rfl
@[simp] theorem State.setLane_logNext (k : Nat) (l : Lane) : (s.setLane k l).logNext = s.logNext := rfl
@[simp] theorem State.setLane_gov (k : Nat) (l : Lane) : (s.setLane k l).gov = s.gov := rfl
@[simp] theorem State.setLane_doms (k : Nat) (l : Lane) : (s.setLane k l).doms = s.doms := rfl
@[simp] theorem State.setLane_start (k : Nat) (l : Lane) : (s.setLane k l).start = s.start := rfl
@[simp] theorem State.setLane_blend (k : Nat) (l : Lane) : (s.setLane k l).blend = s.blend := rfl
@[simp] theorem State.setLane_repairs (k : Nat) (l : Lane) : (s.setLane k l).repairs = s.repairs := rfl
@[simp] theorem State.setLane_oob (k : Nat) (l : Lane) : (s.setLane k l).oob = s.oob := rfl
@[simp] theorem State.setLane_spdm (k : Nat) (l : Lane) : (s.setLane k l).spdm = s.spdm := rfl
@[simp] theorem State.setLane_msix (k : Nat) (l : Lane) : (s.setLane k l).msix = s.msix := rfl
@[simp] theorem State.setLane_d3hot (k : Nat) (l : Lane) : (s.setLane k l).d3hot = s.d3hot := rfl
@[simp] theorem State.setLane_pcieUp (k : Nat) (l : Lane) : (s.setLane k l).pcieUp = s.pcieUp := rfl
@[simp] theorem State.setLane_pkgLevel (k : Nat) (l : Lane) : (s.setLane k l).pkgLevel = s.pkgLevel := rfl
@[simp] theorem State.setLane_rptSeq (k : Nat) (l : Lane) : (s.setLane k l).rptSeq = s.rptSeq := rfl
@[simp] theorem State.setLane_cfgReject (k : Nat) (l : Lane) : (s.setLane k l).cfgReject = s.cfgReject := rfl
@[simp] theorem State.setLane_victims (k : Nat) (l : Lane) : (s.setLane k l).victims = s.victims := rfl
@[simp] theorem State.setLane_raised (k : Nat) (l : Lane) : (s.setLane k l).raised = s.raised := rfl
@[simp] theorem State.setLane_outbox (k : Nat) (l : Lane) : (s.setLane k l).outbox = s.outbox := rfl
@[simp] theorem State.setLane_draws (k : Nat) (l : Lane) : (s.setLane k l).draws = s.draws := rfl

/-! setQueue writes queues. -/
@[simp] theorem State.setQueue_pending (q : Nat) (x : Silt) : (s.setQueue q x).pending = s.pending := rfl
@[simp] theorem State.setQueue_clk (q : Nat) (x : Silt) : (s.setQueue q x).clk = s.clk := rfl
@[simp] theorem State.setQueue_mem (q : Nat) (x : Silt) : (s.setQueue q x).mem = s.mem := rfl
@[simp] theorem State.setQueue_sweep (q : Nat) (x : Silt) : (s.setQueue q x).sweep = s.sweep := rfl
@[simp] theorem State.setQueue_cfg (q : Nat) (x : Silt) : (s.setQueue q x).cfg = s.cfg := rfl
@[simp] theorem State.setQueue_regs (q : Nat) (x : Silt) : (s.setQueue q x).regs = s.regs := rfl
@[simp] theorem State.setQueue_shadows (q : Nat) (x : Silt) : (s.setQueue q x).shadows = s.shadows := rfl
@[simp] theorem State.setQueue_capture (q : Nat) (x : Silt) : (s.setQueue q x).capture = s.capture := rfl
@[simp] theorem State.setQueue_dies (q : Nat) (x : Silt) : (s.setQueue q x).dies = s.dies := rfl
@[simp] theorem State.setQueue_pes (q : Nat) (x : Silt) : (s.setQueue q x).pes = s.pes := rfl
@[simp] theorem State.setQueue_lanes (q : Nat) (x : Silt) : (s.setQueue q x).lanes = s.lanes := rfl
@[simp] theorem State.setQueue_sets (q : Nat) (x : Silt) : (s.setQueue q x).sets = s.sets := rfl
@[simp] theorem State.setQueue_istore (q : Nat) (x : Silt) : (s.setQueue q x).istore = s.istore := rfl
@[simp] theorem State.setQueue_graphs (q : Nat) (x : Silt) : (s.setQueue q x).graphs = s.graphs := rfl
@[simp] theorem State.setQueue_links (q : Nat) (x : Silt) : (s.setQueue q x).links = s.links := rfl
@[simp] theorem State.setQueue_dirs (q : Nat) (x : Silt) : (s.setQueue q x).dirs = s.dirs := rfl
@[simp] theorem State.setQueue_banks (q : Nat) (x : Silt) : (s.setQueue q x).banks = s.banks := rfl
@[simp] theorem State.setQueue_latches (q : Nat) (x : Silt) : (s.setQueue q x).latches = s.latches := rfl
@[simp] theorem State.setQueue_units (q : Nat) (x : Silt) : (s.setQueue q x).units = s.units := rfl
@[simp] theorem State.setQueue_nextUnit (q : Nat) (x : Silt) : (s.setQueue q x).nextUnit = s.nextUnit := rfl
@[simp] theorem State.setQueue_chans (q : Nat) (x : Silt) : (s.setQueue q x).chans = s.chans := rfl
@[simp] theorem State.setQueue_lastGrant (q : Nat) (x : Silt) : (s.setQueue q x).lastGrant = s.lastGrant := rfl
@[simp] theorem State.setQueue_ports (q : Nat) (x : Silt) : (s.setQueue q x).ports = s.ports := rfl
@[simp] theorem State.setQueue_tws (q : Nat) (x : Silt) : (s.setQueue q x).tws = s.tws := rfl
@[simp] theorem State.setQueue_qps (q : Nat) (x : Silt) : (s.setQueue q x).qps = s.qps := rfl
@[simp] theorem State.setQueue_ce (q : Nat) (x : Silt) : (s.setQueue q x).ce = s.ce := rfl
@[simp] theorem State.setQueue_kao (q : Nat) (x : Silt) : (s.setQueue q x).kao = s.kao := rfl
@[simp] theorem State.setQueue_sealPort (q : Nat) (x : Silt) : (s.setQueue q x).sealPort = s.sealPort := rfl
@[simp] theorem State.setQueue_erq (q : Nat) (x : Silt) : (s.setQueue q x).erq = s.erq := rfl
@[simp] theorem State.setQueue_log (q : Nat) (x : Silt) : (s.setQueue q x).log = s.log := rfl
@[simp] theorem State.setQueue_logNext (q : Nat) (x : Silt) : (s.setQueue q x).logNext = s.logNext := rfl
@[simp] theorem State.setQueue_gov (q : Nat) (x : Silt) : (s.setQueue q x).gov = s.gov := rfl
@[simp] theorem State.setQueue_doms (q : Nat) (x : Silt) : (s.setQueue q x).doms = s.doms := rfl
@[simp] theorem State.setQueue_start (q : Nat) (x : Silt) : (s.setQueue q x).start = s.start := rfl
@[simp] theorem State.setQueue_blend (q : Nat) (x : Silt) : (s.setQueue q x).blend = s.blend := rfl
@[simp] theorem State.setQueue_repairs (q : Nat) (x : Silt) : (s.setQueue q x).repairs = s.repairs := rfl
@[simp] theorem State.setQueue_oob (q : Nat) (x : Silt) : (s.setQueue q x).oob = s.oob := rfl
@[simp] theorem State.setQueue_spdm (q : Nat) (x : Silt) : (s.setQueue q x).spdm = s.spdm := rfl
@[simp] theorem State.setQueue_msix (q : Nat) (x : Silt) : (s.setQueue q x).msix = s.msix := rfl
@[simp] theorem State.setQueue_d3hot (q : Nat) (x : Silt) : (s.setQueue q x).d3hot = s.d3hot := rfl
@[simp] theorem State.setQueue_pcieUp (q : Nat) (x : Silt) : (s.setQueue q x).pcieUp = s.pcieUp := rfl
@[simp] theorem State.setQueue_pkgLevel (q : Nat) (x : Silt) : (s.setQueue q x).pkgLevel = s.pkgLevel := rfl
@[simp] theorem State.setQueue_rptSeq (q : Nat) (x : Silt) : (s.setQueue q x).rptSeq = s.rptSeq := rfl
@[simp] theorem State.setQueue_cfgReject (q : Nat) (x : Silt) : (s.setQueue q x).cfgReject = s.cfgReject := rfl
@[simp] theorem State.setQueue_victims (q : Nat) (x : Silt) : (s.setQueue q x).victims = s.victims := rfl
@[simp] theorem State.setQueue_raised (q : Nat) (x : Silt) : (s.setQueue q x).raised = s.raised := rfl
@[simp] theorem State.setQueue_outbox (q : Nat) (x : Silt) : (s.setQueue q x).outbox = s.outbox := rfl
@[simp] theorem State.setQueue_draws (q : Nat) (x : Silt) : (s.setQueue q x).draws = s.draws := rfl

/-! setDir writes dirs. -/
@[simp] theorem State.setDir_pending (d : Nat) (x : LinkDir) : (s.setDir d x).pending = s.pending := rfl
@[simp] theorem State.setDir_clk (d : Nat) (x : LinkDir) : (s.setDir d x).clk = s.clk := rfl
@[simp] theorem State.setDir_mem (d : Nat) (x : LinkDir) : (s.setDir d x).mem = s.mem := rfl
@[simp] theorem State.setDir_sweep (d : Nat) (x : LinkDir) : (s.setDir d x).sweep = s.sweep := rfl
@[simp] theorem State.setDir_cfg (d : Nat) (x : LinkDir) : (s.setDir d x).cfg = s.cfg := rfl
@[simp] theorem State.setDir_regs (d : Nat) (x : LinkDir) : (s.setDir d x).regs = s.regs := rfl
@[simp] theorem State.setDir_shadows (d : Nat) (x : LinkDir) : (s.setDir d x).shadows = s.shadows := rfl
@[simp] theorem State.setDir_capture (d : Nat) (x : LinkDir) : (s.setDir d x).capture = s.capture := rfl
@[simp] theorem State.setDir_dies (d : Nat) (x : LinkDir) : (s.setDir d x).dies = s.dies := rfl
@[simp] theorem State.setDir_pes (d : Nat) (x : LinkDir) : (s.setDir d x).pes = s.pes := rfl
@[simp] theorem State.setDir_lanes (d : Nat) (x : LinkDir) : (s.setDir d x).lanes = s.lanes := rfl
@[simp] theorem State.setDir_sets (d : Nat) (x : LinkDir) : (s.setDir d x).sets = s.sets := rfl
@[simp] theorem State.setDir_istore (d : Nat) (x : LinkDir) : (s.setDir d x).istore = s.istore := rfl
@[simp] theorem State.setDir_graphs (d : Nat) (x : LinkDir) : (s.setDir d x).graphs = s.graphs := rfl
@[simp] theorem State.setDir_queues (d : Nat) (x : LinkDir) : (s.setDir d x).queues = s.queues := rfl
@[simp] theorem State.setDir_links (d : Nat) (x : LinkDir) : (s.setDir d x).links = s.links := rfl
@[simp] theorem State.setDir_banks (d : Nat) (x : LinkDir) : (s.setDir d x).banks = s.banks := rfl
@[simp] theorem State.setDir_latches (d : Nat) (x : LinkDir) : (s.setDir d x).latches = s.latches := rfl
@[simp] theorem State.setDir_units (d : Nat) (x : LinkDir) : (s.setDir d x).units = s.units := rfl
@[simp] theorem State.setDir_nextUnit (d : Nat) (x : LinkDir) : (s.setDir d x).nextUnit = s.nextUnit := rfl
@[simp] theorem State.setDir_chans (d : Nat) (x : LinkDir) : (s.setDir d x).chans = s.chans := rfl
@[simp] theorem State.setDir_lastGrant (d : Nat) (x : LinkDir) : (s.setDir d x).lastGrant = s.lastGrant := rfl
@[simp] theorem State.setDir_ports (d : Nat) (x : LinkDir) : (s.setDir d x).ports = s.ports := rfl
@[simp] theorem State.setDir_tws (d : Nat) (x : LinkDir) : (s.setDir d x).tws = s.tws := rfl
@[simp] theorem State.setDir_qps (d : Nat) (x : LinkDir) : (s.setDir d x).qps = s.qps := rfl
@[simp] theorem State.setDir_ce (d : Nat) (x : LinkDir) : (s.setDir d x).ce = s.ce := rfl
@[simp] theorem State.setDir_kao (d : Nat) (x : LinkDir) : (s.setDir d x).kao = s.kao := rfl
@[simp] theorem State.setDir_sealPort (d : Nat) (x : LinkDir) : (s.setDir d x).sealPort = s.sealPort := rfl
@[simp] theorem State.setDir_erq (d : Nat) (x : LinkDir) : (s.setDir d x).erq = s.erq := rfl
@[simp] theorem State.setDir_log (d : Nat) (x : LinkDir) : (s.setDir d x).log = s.log := rfl
@[simp] theorem State.setDir_logNext (d : Nat) (x : LinkDir) : (s.setDir d x).logNext = s.logNext := rfl
@[simp] theorem State.setDir_gov (d : Nat) (x : LinkDir) : (s.setDir d x).gov = s.gov := rfl
@[simp] theorem State.setDir_doms (d : Nat) (x : LinkDir) : (s.setDir d x).doms = s.doms := rfl
@[simp] theorem State.setDir_start (d : Nat) (x : LinkDir) : (s.setDir d x).start = s.start := rfl
@[simp] theorem State.setDir_blend (d : Nat) (x : LinkDir) : (s.setDir d x).blend = s.blend := rfl
@[simp] theorem State.setDir_repairs (d : Nat) (x : LinkDir) : (s.setDir d x).repairs = s.repairs := rfl
@[simp] theorem State.setDir_oob (d : Nat) (x : LinkDir) : (s.setDir d x).oob = s.oob := rfl
@[simp] theorem State.setDir_spdm (d : Nat) (x : LinkDir) : (s.setDir d x).spdm = s.spdm := rfl
@[simp] theorem State.setDir_msix (d : Nat) (x : LinkDir) : (s.setDir d x).msix = s.msix := rfl
@[simp] theorem State.setDir_d3hot (d : Nat) (x : LinkDir) : (s.setDir d x).d3hot = s.d3hot := rfl
@[simp] theorem State.setDir_pcieUp (d : Nat) (x : LinkDir) : (s.setDir d x).pcieUp = s.pcieUp := rfl
@[simp] theorem State.setDir_pkgLevel (d : Nat) (x : LinkDir) : (s.setDir d x).pkgLevel = s.pkgLevel := rfl
@[simp] theorem State.setDir_rptSeq (d : Nat) (x : LinkDir) : (s.setDir d x).rptSeq = s.rptSeq := rfl
@[simp] theorem State.setDir_cfgReject (d : Nat) (x : LinkDir) : (s.setDir d x).cfgReject = s.cfgReject := rfl
@[simp] theorem State.setDir_victims (d : Nat) (x : LinkDir) : (s.setDir d x).victims = s.victims := rfl
@[simp] theorem State.setDir_raised (d : Nat) (x : LinkDir) : (s.setDir d x).raised = s.raised := rfl
@[simp] theorem State.setDir_outbox (d : Nat) (x : LinkDir) : (s.setDir d x).outbox = s.outbox := rfl
@[simp] theorem State.setDir_draws (d : Nat) (x : LinkDir) : (s.setDir d x).draws = s.draws := rfl

/-! setLink writes links. -/
@[simp] theorem State.setLink_pending (l : Nat) (x : Link) : (s.setLink l x).pending = s.pending := rfl
@[simp] theorem State.setLink_clk (l : Nat) (x : Link) : (s.setLink l x).clk = s.clk := rfl
@[simp] theorem State.setLink_mem (l : Nat) (x : Link) : (s.setLink l x).mem = s.mem := rfl
@[simp] theorem State.setLink_sweep (l : Nat) (x : Link) : (s.setLink l x).sweep = s.sweep := rfl
@[simp] theorem State.setLink_cfg (l : Nat) (x : Link) : (s.setLink l x).cfg = s.cfg := rfl
@[simp] theorem State.setLink_regs (l : Nat) (x : Link) : (s.setLink l x).regs = s.regs := rfl
@[simp] theorem State.setLink_shadows (l : Nat) (x : Link) : (s.setLink l x).shadows = s.shadows := rfl
@[simp] theorem State.setLink_capture (l : Nat) (x : Link) : (s.setLink l x).capture = s.capture := rfl
@[simp] theorem State.setLink_dies (l : Nat) (x : Link) : (s.setLink l x).dies = s.dies := rfl
@[simp] theorem State.setLink_pes (l : Nat) (x : Link) : (s.setLink l x).pes = s.pes := rfl
@[simp] theorem State.setLink_lanes (l : Nat) (x : Link) : (s.setLink l x).lanes = s.lanes := rfl
@[simp] theorem State.setLink_sets (l : Nat) (x : Link) : (s.setLink l x).sets = s.sets := rfl
@[simp] theorem State.setLink_istore (l : Nat) (x : Link) : (s.setLink l x).istore = s.istore := rfl
@[simp] theorem State.setLink_graphs (l : Nat) (x : Link) : (s.setLink l x).graphs = s.graphs := rfl
@[simp] theorem State.setLink_queues (l : Nat) (x : Link) : (s.setLink l x).queues = s.queues := rfl
@[simp] theorem State.setLink_dirs (l : Nat) (x : Link) : (s.setLink l x).dirs = s.dirs := rfl
@[simp] theorem State.setLink_banks (l : Nat) (x : Link) : (s.setLink l x).banks = s.banks := rfl
@[simp] theorem State.setLink_latches (l : Nat) (x : Link) : (s.setLink l x).latches = s.latches := rfl
@[simp] theorem State.setLink_units (l : Nat) (x : Link) : (s.setLink l x).units = s.units := rfl
@[simp] theorem State.setLink_nextUnit (l : Nat) (x : Link) : (s.setLink l x).nextUnit = s.nextUnit := rfl
@[simp] theorem State.setLink_chans (l : Nat) (x : Link) : (s.setLink l x).chans = s.chans := rfl
@[simp] theorem State.setLink_lastGrant (l : Nat) (x : Link) : (s.setLink l x).lastGrant = s.lastGrant := rfl
@[simp] theorem State.setLink_ports (l : Nat) (x : Link) : (s.setLink l x).ports = s.ports := rfl
@[simp] theorem State.setLink_tws (l : Nat) (x : Link) : (s.setLink l x).tws = s.tws := rfl
@[simp] theorem State.setLink_qps (l : Nat) (x : Link) : (s.setLink l x).qps = s.qps := rfl
@[simp] theorem State.setLink_ce (l : Nat) (x : Link) : (s.setLink l x).ce = s.ce := rfl
@[simp] theorem State.setLink_kao (l : Nat) (x : Link) : (s.setLink l x).kao = s.kao := rfl
@[simp] theorem State.setLink_sealPort (l : Nat) (x : Link) : (s.setLink l x).sealPort = s.sealPort := rfl
@[simp] theorem State.setLink_erq (l : Nat) (x : Link) : (s.setLink l x).erq = s.erq := rfl
@[simp] theorem State.setLink_log (l : Nat) (x : Link) : (s.setLink l x).log = s.log := rfl
@[simp] theorem State.setLink_logNext (l : Nat) (x : Link) : (s.setLink l x).logNext = s.logNext := rfl
@[simp] theorem State.setLink_gov (l : Nat) (x : Link) : (s.setLink l x).gov = s.gov := rfl
@[simp] theorem State.setLink_doms (l : Nat) (x : Link) : (s.setLink l x).doms = s.doms := rfl
@[simp] theorem State.setLink_start (l : Nat) (x : Link) : (s.setLink l x).start = s.start := rfl
@[simp] theorem State.setLink_blend (l : Nat) (x : Link) : (s.setLink l x).blend = s.blend := rfl
@[simp] theorem State.setLink_repairs (l : Nat) (x : Link) : (s.setLink l x).repairs = s.repairs := rfl
@[simp] theorem State.setLink_oob (l : Nat) (x : Link) : (s.setLink l x).oob = s.oob := rfl
@[simp] theorem State.setLink_spdm (l : Nat) (x : Link) : (s.setLink l x).spdm = s.spdm := rfl
@[simp] theorem State.setLink_msix (l : Nat) (x : Link) : (s.setLink l x).msix = s.msix := rfl
@[simp] theorem State.setLink_d3hot (l : Nat) (x : Link) : (s.setLink l x).d3hot = s.d3hot := rfl
@[simp] theorem State.setLink_pcieUp (l : Nat) (x : Link) : (s.setLink l x).pcieUp = s.pcieUp := rfl
@[simp] theorem State.setLink_pkgLevel (l : Nat) (x : Link) : (s.setLink l x).pkgLevel = s.pkgLevel := rfl
@[simp] theorem State.setLink_rptSeq (l : Nat) (x : Link) : (s.setLink l x).rptSeq = s.rptSeq := rfl
@[simp] theorem State.setLink_cfgReject (l : Nat) (x : Link) : (s.setLink l x).cfgReject = s.cfgReject := rfl
@[simp] theorem State.setLink_victims (l : Nat) (x : Link) : (s.setLink l x).victims = s.victims := rfl
@[simp] theorem State.setLink_raised (l : Nat) (x : Link) : (s.setLink l x).raised = s.raised := rfl
@[simp] theorem State.setLink_outbox (l : Nat) (x : Link) : (s.setLink l x).outbox = s.outbox := rfl
@[simp] theorem State.setLink_draws (l : Nat) (x : Link) : (s.setLink l x).draws = s.draws := rfl

/-! setGraph writes graphs. -/
@[simp] theorem State.setGraph_pending (g : Nat) (x : Graph) : (s.setGraph g x).pending = s.pending := rfl
@[simp] theorem State.setGraph_clk (g : Nat) (x : Graph) : (s.setGraph g x).clk = s.clk := rfl
@[simp] theorem State.setGraph_mem (g : Nat) (x : Graph) : (s.setGraph g x).mem = s.mem := rfl
@[simp] theorem State.setGraph_sweep (g : Nat) (x : Graph) : (s.setGraph g x).sweep = s.sweep := rfl
@[simp] theorem State.setGraph_cfg (g : Nat) (x : Graph) : (s.setGraph g x).cfg = s.cfg := rfl
@[simp] theorem State.setGraph_regs (g : Nat) (x : Graph) : (s.setGraph g x).regs = s.regs := rfl
@[simp] theorem State.setGraph_shadows (g : Nat) (x : Graph) : (s.setGraph g x).shadows = s.shadows := rfl
@[simp] theorem State.setGraph_capture (g : Nat) (x : Graph) : (s.setGraph g x).capture = s.capture := rfl
@[simp] theorem State.setGraph_dies (g : Nat) (x : Graph) : (s.setGraph g x).dies = s.dies := rfl
@[simp] theorem State.setGraph_pes (g : Nat) (x : Graph) : (s.setGraph g x).pes = s.pes := rfl
@[simp] theorem State.setGraph_lanes (g : Nat) (x : Graph) : (s.setGraph g x).lanes = s.lanes := rfl
@[simp] theorem State.setGraph_sets (g : Nat) (x : Graph) : (s.setGraph g x).sets = s.sets := rfl
@[simp] theorem State.setGraph_istore (g : Nat) (x : Graph) : (s.setGraph g x).istore = s.istore := rfl
@[simp] theorem State.setGraph_queues (g : Nat) (x : Graph) : (s.setGraph g x).queues = s.queues := rfl
@[simp] theorem State.setGraph_links (g : Nat) (x : Graph) : (s.setGraph g x).links = s.links := rfl
@[simp] theorem State.setGraph_dirs (g : Nat) (x : Graph) : (s.setGraph g x).dirs = s.dirs := rfl
@[simp] theorem State.setGraph_banks (g : Nat) (x : Graph) : (s.setGraph g x).banks = s.banks := rfl
@[simp] theorem State.setGraph_latches (g : Nat) (x : Graph) : (s.setGraph g x).latches = s.latches := rfl
@[simp] theorem State.setGraph_units (g : Nat) (x : Graph) : (s.setGraph g x).units = s.units := rfl
@[simp] theorem State.setGraph_nextUnit (g : Nat) (x : Graph) : (s.setGraph g x).nextUnit = s.nextUnit := rfl
@[simp] theorem State.setGraph_chans (g : Nat) (x : Graph) : (s.setGraph g x).chans = s.chans := rfl
@[simp] theorem State.setGraph_lastGrant (g : Nat) (x : Graph) : (s.setGraph g x).lastGrant = s.lastGrant := rfl
@[simp] theorem State.setGraph_ports (g : Nat) (x : Graph) : (s.setGraph g x).ports = s.ports := rfl
@[simp] theorem State.setGraph_tws (g : Nat) (x : Graph) : (s.setGraph g x).tws = s.tws := rfl
@[simp] theorem State.setGraph_qps (g : Nat) (x : Graph) : (s.setGraph g x).qps = s.qps := rfl
@[simp] theorem State.setGraph_ce (g : Nat) (x : Graph) : (s.setGraph g x).ce = s.ce := rfl
@[simp] theorem State.setGraph_kao (g : Nat) (x : Graph) : (s.setGraph g x).kao = s.kao := rfl
@[simp] theorem State.setGraph_sealPort (g : Nat) (x : Graph) : (s.setGraph g x).sealPort = s.sealPort := rfl
@[simp] theorem State.setGraph_erq (g : Nat) (x : Graph) : (s.setGraph g x).erq = s.erq := rfl
@[simp] theorem State.setGraph_log (g : Nat) (x : Graph) : (s.setGraph g x).log = s.log := rfl
@[simp] theorem State.setGraph_logNext (g : Nat) (x : Graph) : (s.setGraph g x).logNext = s.logNext := rfl
@[simp] theorem State.setGraph_gov (g : Nat) (x : Graph) : (s.setGraph g x).gov = s.gov := rfl
@[simp] theorem State.setGraph_doms (g : Nat) (x : Graph) : (s.setGraph g x).doms = s.doms := rfl
@[simp] theorem State.setGraph_start (g : Nat) (x : Graph) : (s.setGraph g x).start = s.start := rfl
@[simp] theorem State.setGraph_blend (g : Nat) (x : Graph) : (s.setGraph g x).blend = s.blend := rfl
@[simp] theorem State.setGraph_repairs (g : Nat) (x : Graph) : (s.setGraph g x).repairs = s.repairs := rfl
@[simp] theorem State.setGraph_oob (g : Nat) (x : Graph) : (s.setGraph g x).oob = s.oob := rfl
@[simp] theorem State.setGraph_spdm (g : Nat) (x : Graph) : (s.setGraph g x).spdm = s.spdm := rfl
@[simp] theorem State.setGraph_msix (g : Nat) (x : Graph) : (s.setGraph g x).msix = s.msix := rfl
@[simp] theorem State.setGraph_d3hot (g : Nat) (x : Graph) : (s.setGraph g x).d3hot = s.d3hot := rfl
@[simp] theorem State.setGraph_pcieUp (g : Nat) (x : Graph) : (s.setGraph g x).pcieUp = s.pcieUp := rfl
@[simp] theorem State.setGraph_pkgLevel (g : Nat) (x : Graph) : (s.setGraph g x).pkgLevel = s.pkgLevel := rfl
@[simp] theorem State.setGraph_rptSeq (g : Nat) (x : Graph) : (s.setGraph g x).rptSeq = s.rptSeq := rfl
@[simp] theorem State.setGraph_cfgReject (g : Nat) (x : Graph) : (s.setGraph g x).cfgReject = s.cfgReject := rfl
@[simp] theorem State.setGraph_victims (g : Nat) (x : Graph) : (s.setGraph g x).victims = s.victims := rfl
@[simp] theorem State.setGraph_raised (g : Nat) (x : Graph) : (s.setGraph g x).raised = s.raised := rfl
@[simp] theorem State.setGraph_outbox (g : Nat) (x : Graph) : (s.setGraph g x).outbox = s.outbox := rfl
@[simp] theorem State.setGraph_draws (g : Nat) (x : Graph) : (s.setGraph g x).draws = s.draws := rfl

/-! updGraph writes graphs. -/
@[simp] theorem State.updGraph_pending (g : Nat) (f : Graph → Graph) : (s.updGraph g f).pending = s.pending := rfl
@[simp] theorem State.updGraph_clk (g : Nat) (f : Graph → Graph) : (s.updGraph g f).clk = s.clk := rfl
@[simp] theorem State.updGraph_mem (g : Nat) (f : Graph → Graph) : (s.updGraph g f).mem = s.mem := rfl
@[simp] theorem State.updGraph_sweep (g : Nat) (f : Graph → Graph) : (s.updGraph g f).sweep = s.sweep := rfl
@[simp] theorem State.updGraph_cfg (g : Nat) (f : Graph → Graph) : (s.updGraph g f).cfg = s.cfg := rfl
@[simp] theorem State.updGraph_regs (g : Nat) (f : Graph → Graph) : (s.updGraph g f).regs = s.regs := rfl
@[simp] theorem State.updGraph_shadows (g : Nat) (f : Graph → Graph) : (s.updGraph g f).shadows = s.shadows := rfl
@[simp] theorem State.updGraph_capture (g : Nat) (f : Graph → Graph) : (s.updGraph g f).capture = s.capture := rfl
@[simp] theorem State.updGraph_dies (g : Nat) (f : Graph → Graph) : (s.updGraph g f).dies = s.dies := rfl
@[simp] theorem State.updGraph_pes (g : Nat) (f : Graph → Graph) : (s.updGraph g f).pes = s.pes := rfl
@[simp] theorem State.updGraph_lanes (g : Nat) (f : Graph → Graph) : (s.updGraph g f).lanes = s.lanes := rfl
@[simp] theorem State.updGraph_sets (g : Nat) (f : Graph → Graph) : (s.updGraph g f).sets = s.sets := rfl
@[simp] theorem State.updGraph_istore (g : Nat) (f : Graph → Graph) : (s.updGraph g f).istore = s.istore := rfl
@[simp] theorem State.updGraph_queues (g : Nat) (f : Graph → Graph) : (s.updGraph g f).queues = s.queues := rfl
@[simp] theorem State.updGraph_links (g : Nat) (f : Graph → Graph) : (s.updGraph g f).links = s.links := rfl
@[simp] theorem State.updGraph_dirs (g : Nat) (f : Graph → Graph) : (s.updGraph g f).dirs = s.dirs := rfl
@[simp] theorem State.updGraph_banks (g : Nat) (f : Graph → Graph) : (s.updGraph g f).banks = s.banks := rfl
@[simp] theorem State.updGraph_latches (g : Nat) (f : Graph → Graph) : (s.updGraph g f).latches = s.latches := rfl
@[simp] theorem State.updGraph_units (g : Nat) (f : Graph → Graph) : (s.updGraph g f).units = s.units := rfl
@[simp] theorem State.updGraph_nextUnit (g : Nat) (f : Graph → Graph) : (s.updGraph g f).nextUnit = s.nextUnit := rfl
@[simp] theorem State.updGraph_chans (g : Nat) (f : Graph → Graph) : (s.updGraph g f).chans = s.chans := rfl
@[simp] theorem State.updGraph_lastGrant (g : Nat) (f : Graph → Graph) : (s.updGraph g f).lastGrant = s.lastGrant := rfl
@[simp] theorem State.updGraph_ports (g : Nat) (f : Graph → Graph) : (s.updGraph g f).ports = s.ports := rfl
@[simp] theorem State.updGraph_tws (g : Nat) (f : Graph → Graph) : (s.updGraph g f).tws = s.tws := rfl
@[simp] theorem State.updGraph_qps (g : Nat) (f : Graph → Graph) : (s.updGraph g f).qps = s.qps := rfl
@[simp] theorem State.updGraph_ce (g : Nat) (f : Graph → Graph) : (s.updGraph g f).ce = s.ce := rfl
@[simp] theorem State.updGraph_kao (g : Nat) (f : Graph → Graph) : (s.updGraph g f).kao = s.kao := rfl
@[simp] theorem State.updGraph_sealPort (g : Nat) (f : Graph → Graph) : (s.updGraph g f).sealPort = s.sealPort := rfl
@[simp] theorem State.updGraph_erq (g : Nat) (f : Graph → Graph) : (s.updGraph g f).erq = s.erq := rfl
@[simp] theorem State.updGraph_log (g : Nat) (f : Graph → Graph) : (s.updGraph g f).log = s.log := rfl
@[simp] theorem State.updGraph_logNext (g : Nat) (f : Graph → Graph) : (s.updGraph g f).logNext = s.logNext := rfl
@[simp] theorem State.updGraph_gov (g : Nat) (f : Graph → Graph) : (s.updGraph g f).gov = s.gov := rfl
@[simp] theorem State.updGraph_doms (g : Nat) (f : Graph → Graph) : (s.updGraph g f).doms = s.doms := rfl
@[simp] theorem State.updGraph_start (g : Nat) (f : Graph → Graph) : (s.updGraph g f).start = s.start := rfl
@[simp] theorem State.updGraph_blend (g : Nat) (f : Graph → Graph) : (s.updGraph g f).blend = s.blend := rfl
@[simp] theorem State.updGraph_repairs (g : Nat) (f : Graph → Graph) : (s.updGraph g f).repairs = s.repairs := rfl
@[simp] theorem State.updGraph_oob (g : Nat) (f : Graph → Graph) : (s.updGraph g f).oob = s.oob := rfl
@[simp] theorem State.updGraph_spdm (g : Nat) (f : Graph → Graph) : (s.updGraph g f).spdm = s.spdm := rfl
@[simp] theorem State.updGraph_msix (g : Nat) (f : Graph → Graph) : (s.updGraph g f).msix = s.msix := rfl
@[simp] theorem State.updGraph_d3hot (g : Nat) (f : Graph → Graph) : (s.updGraph g f).d3hot = s.d3hot := rfl
@[simp] theorem State.updGraph_pcieUp (g : Nat) (f : Graph → Graph) : (s.updGraph g f).pcieUp = s.pcieUp := rfl
@[simp] theorem State.updGraph_pkgLevel (g : Nat) (f : Graph → Graph) : (s.updGraph g f).pkgLevel = s.pkgLevel := rfl
@[simp] theorem State.updGraph_rptSeq (g : Nat) (f : Graph → Graph) : (s.updGraph g f).rptSeq = s.rptSeq := rfl
@[simp] theorem State.updGraph_cfgReject (g : Nat) (f : Graph → Graph) : (s.updGraph g f).cfgReject = s.cfgReject := rfl
@[simp] theorem State.updGraph_victims (g : Nat) (f : Graph → Graph) : (s.updGraph g f).victims = s.victims := rfl
@[simp] theorem State.updGraph_raised (g : Nat) (f : Graph → Graph) : (s.updGraph g f).raised = s.raised := rfl
@[simp] theorem State.updGraph_outbox (g : Nat) (f : Graph → Graph) : (s.updGraph g f).outbox = s.outbox := rfl
@[simp] theorem State.updGraph_draws (g : Nat) (f : Graph → Graph) : (s.updGraph g f).draws = s.draws := rfl

/-! setBank writes banks. -/
@[simp] theorem State.setBank_pending (b : Nat) (x : Bank) : (s.setBank b x).pending = s.pending := rfl
@[simp] theorem State.setBank_clk (b : Nat) (x : Bank) : (s.setBank b x).clk = s.clk := rfl
@[simp] theorem State.setBank_mem (b : Nat) (x : Bank) : (s.setBank b x).mem = s.mem := rfl
@[simp] theorem State.setBank_sweep (b : Nat) (x : Bank) : (s.setBank b x).sweep = s.sweep := rfl
@[simp] theorem State.setBank_cfg (b : Nat) (x : Bank) : (s.setBank b x).cfg = s.cfg := rfl
@[simp] theorem State.setBank_regs (b : Nat) (x : Bank) : (s.setBank b x).regs = s.regs := rfl
@[simp] theorem State.setBank_shadows (b : Nat) (x : Bank) : (s.setBank b x).shadows = s.shadows := rfl
@[simp] theorem State.setBank_capture (b : Nat) (x : Bank) : (s.setBank b x).capture = s.capture := rfl
@[simp] theorem State.setBank_dies (b : Nat) (x : Bank) : (s.setBank b x).dies = s.dies := rfl
@[simp] theorem State.setBank_pes (b : Nat) (x : Bank) : (s.setBank b x).pes = s.pes := rfl
@[simp] theorem State.setBank_lanes (b : Nat) (x : Bank) : (s.setBank b x).lanes = s.lanes := rfl
@[simp] theorem State.setBank_sets (b : Nat) (x : Bank) : (s.setBank b x).sets = s.sets := rfl
@[simp] theorem State.setBank_istore (b : Nat) (x : Bank) : (s.setBank b x).istore = s.istore := rfl
@[simp] theorem State.setBank_graphs (b : Nat) (x : Bank) : (s.setBank b x).graphs = s.graphs := rfl
@[simp] theorem State.setBank_queues (b : Nat) (x : Bank) : (s.setBank b x).queues = s.queues := rfl
@[simp] theorem State.setBank_links (b : Nat) (x : Bank) : (s.setBank b x).links = s.links := rfl
@[simp] theorem State.setBank_dirs (b : Nat) (x : Bank) : (s.setBank b x).dirs = s.dirs := rfl
@[simp] theorem State.setBank_latches (b : Nat) (x : Bank) : (s.setBank b x).latches = s.latches := rfl
@[simp] theorem State.setBank_units (b : Nat) (x : Bank) : (s.setBank b x).units = s.units := rfl
@[simp] theorem State.setBank_nextUnit (b : Nat) (x : Bank) : (s.setBank b x).nextUnit = s.nextUnit := rfl
@[simp] theorem State.setBank_chans (b : Nat) (x : Bank) : (s.setBank b x).chans = s.chans := rfl
@[simp] theorem State.setBank_lastGrant (b : Nat) (x : Bank) : (s.setBank b x).lastGrant = s.lastGrant := rfl
@[simp] theorem State.setBank_ports (b : Nat) (x : Bank) : (s.setBank b x).ports = s.ports := rfl
@[simp] theorem State.setBank_tws (b : Nat) (x : Bank) : (s.setBank b x).tws = s.tws := rfl
@[simp] theorem State.setBank_qps (b : Nat) (x : Bank) : (s.setBank b x).qps = s.qps := rfl
@[simp] theorem State.setBank_ce (b : Nat) (x : Bank) : (s.setBank b x).ce = s.ce := rfl
@[simp] theorem State.setBank_kao (b : Nat) (x : Bank) : (s.setBank b x).kao = s.kao := rfl
@[simp] theorem State.setBank_sealPort (b : Nat) (x : Bank) : (s.setBank b x).sealPort = s.sealPort := rfl
@[simp] theorem State.setBank_erq (b : Nat) (x : Bank) : (s.setBank b x).erq = s.erq := rfl
@[simp] theorem State.setBank_log (b : Nat) (x : Bank) : (s.setBank b x).log = s.log := rfl
@[simp] theorem State.setBank_logNext (b : Nat) (x : Bank) : (s.setBank b x).logNext = s.logNext := rfl
@[simp] theorem State.setBank_gov (b : Nat) (x : Bank) : (s.setBank b x).gov = s.gov := rfl
@[simp] theorem State.setBank_doms (b : Nat) (x : Bank) : (s.setBank b x).doms = s.doms := rfl
@[simp] theorem State.setBank_start (b : Nat) (x : Bank) : (s.setBank b x).start = s.start := rfl
@[simp] theorem State.setBank_blend (b : Nat) (x : Bank) : (s.setBank b x).blend = s.blend := rfl
@[simp] theorem State.setBank_repairs (b : Nat) (x : Bank) : (s.setBank b x).repairs = s.repairs := rfl
@[simp] theorem State.setBank_oob (b : Nat) (x : Bank) : (s.setBank b x).oob = s.oob := rfl
@[simp] theorem State.setBank_spdm (b : Nat) (x : Bank) : (s.setBank b x).spdm = s.spdm := rfl
@[simp] theorem State.setBank_msix (b : Nat) (x : Bank) : (s.setBank b x).msix = s.msix := rfl
@[simp] theorem State.setBank_d3hot (b : Nat) (x : Bank) : (s.setBank b x).d3hot = s.d3hot := rfl
@[simp] theorem State.setBank_pcieUp (b : Nat) (x : Bank) : (s.setBank b x).pcieUp = s.pcieUp := rfl
@[simp] theorem State.setBank_pkgLevel (b : Nat) (x : Bank) : (s.setBank b x).pkgLevel = s.pkgLevel := rfl
@[simp] theorem State.setBank_rptSeq (b : Nat) (x : Bank) : (s.setBank b x).rptSeq = s.rptSeq := rfl
@[simp] theorem State.setBank_cfgReject (b : Nat) (x : Bank) : (s.setBank b x).cfgReject = s.cfgReject := rfl
@[simp] theorem State.setBank_victims (b : Nat) (x : Bank) : (s.setBank b x).victims = s.victims := rfl
@[simp] theorem State.setBank_raised (b : Nat) (x : Bank) : (s.setBank b x).raised = s.raised := rfl
@[simp] theorem State.setBank_outbox (b : Nat) (x : Bank) : (s.setBank b x).outbox = s.outbox := rfl
@[simp] theorem State.setBank_draws (b : Nat) (x : Bank) : (s.setBank b x).draws = s.draws := rfl

/-! setLatch writes latches. -/
@[simp] theorem State.setLatch_pending (k : Nat) (x : Latch) : (s.setLatch k x).pending = s.pending := rfl
@[simp] theorem State.setLatch_clk (k : Nat) (x : Latch) : (s.setLatch k x).clk = s.clk := rfl
@[simp] theorem State.setLatch_mem (k : Nat) (x : Latch) : (s.setLatch k x).mem = s.mem := rfl
@[simp] theorem State.setLatch_sweep (k : Nat) (x : Latch) : (s.setLatch k x).sweep = s.sweep := rfl
@[simp] theorem State.setLatch_cfg (k : Nat) (x : Latch) : (s.setLatch k x).cfg = s.cfg := rfl
@[simp] theorem State.setLatch_regs (k : Nat) (x : Latch) : (s.setLatch k x).regs = s.regs := rfl
@[simp] theorem State.setLatch_shadows (k : Nat) (x : Latch) : (s.setLatch k x).shadows = s.shadows := rfl
@[simp] theorem State.setLatch_capture (k : Nat) (x : Latch) : (s.setLatch k x).capture = s.capture := rfl
@[simp] theorem State.setLatch_dies (k : Nat) (x : Latch) : (s.setLatch k x).dies = s.dies := rfl
@[simp] theorem State.setLatch_pes (k : Nat) (x : Latch) : (s.setLatch k x).pes = s.pes := rfl
@[simp] theorem State.setLatch_lanes (k : Nat) (x : Latch) : (s.setLatch k x).lanes = s.lanes := rfl
@[simp] theorem State.setLatch_sets (k : Nat) (x : Latch) : (s.setLatch k x).sets = s.sets := rfl
@[simp] theorem State.setLatch_istore (k : Nat) (x : Latch) : (s.setLatch k x).istore = s.istore := rfl
@[simp] theorem State.setLatch_graphs (k : Nat) (x : Latch) : (s.setLatch k x).graphs = s.graphs := rfl
@[simp] theorem State.setLatch_queues (k : Nat) (x : Latch) : (s.setLatch k x).queues = s.queues := rfl
@[simp] theorem State.setLatch_links (k : Nat) (x : Latch) : (s.setLatch k x).links = s.links := rfl
@[simp] theorem State.setLatch_dirs (k : Nat) (x : Latch) : (s.setLatch k x).dirs = s.dirs := rfl
@[simp] theorem State.setLatch_banks (k : Nat) (x : Latch) : (s.setLatch k x).banks = s.banks := rfl
@[simp] theorem State.setLatch_units (k : Nat) (x : Latch) : (s.setLatch k x).units = s.units := rfl
@[simp] theorem State.setLatch_nextUnit (k : Nat) (x : Latch) : (s.setLatch k x).nextUnit = s.nextUnit := rfl
@[simp] theorem State.setLatch_chans (k : Nat) (x : Latch) : (s.setLatch k x).chans = s.chans := rfl
@[simp] theorem State.setLatch_lastGrant (k : Nat) (x : Latch) : (s.setLatch k x).lastGrant = s.lastGrant := rfl
@[simp] theorem State.setLatch_ports (k : Nat) (x : Latch) : (s.setLatch k x).ports = s.ports := rfl
@[simp] theorem State.setLatch_tws (k : Nat) (x : Latch) : (s.setLatch k x).tws = s.tws := rfl
@[simp] theorem State.setLatch_qps (k : Nat) (x : Latch) : (s.setLatch k x).qps = s.qps := rfl
@[simp] theorem State.setLatch_ce (k : Nat) (x : Latch) : (s.setLatch k x).ce = s.ce := rfl
@[simp] theorem State.setLatch_kao (k : Nat) (x : Latch) : (s.setLatch k x).kao = s.kao := rfl
@[simp] theorem State.setLatch_sealPort (k : Nat) (x : Latch) : (s.setLatch k x).sealPort = s.sealPort := rfl
@[simp] theorem State.setLatch_erq (k : Nat) (x : Latch) : (s.setLatch k x).erq = s.erq := rfl
@[simp] theorem State.setLatch_log (k : Nat) (x : Latch) : (s.setLatch k x).log = s.log := rfl
@[simp] theorem State.setLatch_logNext (k : Nat) (x : Latch) : (s.setLatch k x).logNext = s.logNext := rfl
@[simp] theorem State.setLatch_gov (k : Nat) (x : Latch) : (s.setLatch k x).gov = s.gov := rfl
@[simp] theorem State.setLatch_doms (k : Nat) (x : Latch) : (s.setLatch k x).doms = s.doms := rfl
@[simp] theorem State.setLatch_start (k : Nat) (x : Latch) : (s.setLatch k x).start = s.start := rfl
@[simp] theorem State.setLatch_blend (k : Nat) (x : Latch) : (s.setLatch k x).blend = s.blend := rfl
@[simp] theorem State.setLatch_repairs (k : Nat) (x : Latch) : (s.setLatch k x).repairs = s.repairs := rfl
@[simp] theorem State.setLatch_oob (k : Nat) (x : Latch) : (s.setLatch k x).oob = s.oob := rfl
@[simp] theorem State.setLatch_spdm (k : Nat) (x : Latch) : (s.setLatch k x).spdm = s.spdm := rfl
@[simp] theorem State.setLatch_msix (k : Nat) (x : Latch) : (s.setLatch k x).msix = s.msix := rfl
@[simp] theorem State.setLatch_d3hot (k : Nat) (x : Latch) : (s.setLatch k x).d3hot = s.d3hot := rfl
@[simp] theorem State.setLatch_pcieUp (k : Nat) (x : Latch) : (s.setLatch k x).pcieUp = s.pcieUp := rfl
@[simp] theorem State.setLatch_pkgLevel (k : Nat) (x : Latch) : (s.setLatch k x).pkgLevel = s.pkgLevel := rfl
@[simp] theorem State.setLatch_rptSeq (k : Nat) (x : Latch) : (s.setLatch k x).rptSeq = s.rptSeq := rfl
@[simp] theorem State.setLatch_cfgReject (k : Nat) (x : Latch) : (s.setLatch k x).cfgReject = s.cfgReject := rfl
@[simp] theorem State.setLatch_victims (k : Nat) (x : Latch) : (s.setLatch k x).victims = s.victims := rfl
@[simp] theorem State.setLatch_raised (k : Nat) (x : Latch) : (s.setLatch k x).raised = s.raised := rfl
@[simp] theorem State.setLatch_outbox (k : Nat) (x : Latch) : (s.setLatch k x).outbox = s.outbox := rfl
@[simp] theorem State.setLatch_draws (k : Nat) (x : Latch) : (s.setLatch k x).draws = s.draws := rfl

/-! setChan writes chans. -/
@[simp] theorem State.setChan_pending (c : Nat) (x : Chan) : (s.setChan c x).pending = s.pending := rfl
@[simp] theorem State.setChan_clk (c : Nat) (x : Chan) : (s.setChan c x).clk = s.clk := rfl
@[simp] theorem State.setChan_mem (c : Nat) (x : Chan) : (s.setChan c x).mem = s.mem := rfl
@[simp] theorem State.setChan_sweep (c : Nat) (x : Chan) : (s.setChan c x).sweep = s.sweep := rfl
@[simp] theorem State.setChan_cfg (c : Nat) (x : Chan) : (s.setChan c x).cfg = s.cfg := rfl
@[simp] theorem State.setChan_regs (c : Nat) (x : Chan) : (s.setChan c x).regs = s.regs := rfl
@[simp] theorem State.setChan_shadows (c : Nat) (x : Chan) : (s.setChan c x).shadows = s.shadows := rfl
@[simp] theorem State.setChan_capture (c : Nat) (x : Chan) : (s.setChan c x).capture = s.capture := rfl
@[simp] theorem State.setChan_dies (c : Nat) (x : Chan) : (s.setChan c x).dies = s.dies := rfl
@[simp] theorem State.setChan_pes (c : Nat) (x : Chan) : (s.setChan c x).pes = s.pes := rfl
@[simp] theorem State.setChan_lanes (c : Nat) (x : Chan) : (s.setChan c x).lanes = s.lanes := rfl
@[simp] theorem State.setChan_sets (c : Nat) (x : Chan) : (s.setChan c x).sets = s.sets := rfl
@[simp] theorem State.setChan_istore (c : Nat) (x : Chan) : (s.setChan c x).istore = s.istore := rfl
@[simp] theorem State.setChan_graphs (c : Nat) (x : Chan) : (s.setChan c x).graphs = s.graphs := rfl
@[simp] theorem State.setChan_queues (c : Nat) (x : Chan) : (s.setChan c x).queues = s.queues := rfl
@[simp] theorem State.setChan_links (c : Nat) (x : Chan) : (s.setChan c x).links = s.links := rfl
@[simp] theorem State.setChan_dirs (c : Nat) (x : Chan) : (s.setChan c x).dirs = s.dirs := rfl
@[simp] theorem State.setChan_banks (c : Nat) (x : Chan) : (s.setChan c x).banks = s.banks := rfl
@[simp] theorem State.setChan_latches (c : Nat) (x : Chan) : (s.setChan c x).latches = s.latches := rfl
@[simp] theorem State.setChan_units (c : Nat) (x : Chan) : (s.setChan c x).units = s.units := rfl
@[simp] theorem State.setChan_nextUnit (c : Nat) (x : Chan) : (s.setChan c x).nextUnit = s.nextUnit := rfl
@[simp] theorem State.setChan_lastGrant (c : Nat) (x : Chan) : (s.setChan c x).lastGrant = s.lastGrant := rfl
@[simp] theorem State.setChan_ports (c : Nat) (x : Chan) : (s.setChan c x).ports = s.ports := rfl
@[simp] theorem State.setChan_tws (c : Nat) (x : Chan) : (s.setChan c x).tws = s.tws := rfl
@[simp] theorem State.setChan_qps (c : Nat) (x : Chan) : (s.setChan c x).qps = s.qps := rfl
@[simp] theorem State.setChan_ce (c : Nat) (x : Chan) : (s.setChan c x).ce = s.ce := rfl
@[simp] theorem State.setChan_kao (c : Nat) (x : Chan) : (s.setChan c x).kao = s.kao := rfl
@[simp] theorem State.setChan_sealPort (c : Nat) (x : Chan) : (s.setChan c x).sealPort = s.sealPort := rfl
@[simp] theorem State.setChan_erq (c : Nat) (x : Chan) : (s.setChan c x).erq = s.erq := rfl
@[simp] theorem State.setChan_log (c : Nat) (x : Chan) : (s.setChan c x).log = s.log := rfl
@[simp] theorem State.setChan_logNext (c : Nat) (x : Chan) : (s.setChan c x).logNext = s.logNext := rfl
@[simp] theorem State.setChan_gov (c : Nat) (x : Chan) : (s.setChan c x).gov = s.gov := rfl
@[simp] theorem State.setChan_doms (c : Nat) (x : Chan) : (s.setChan c x).doms = s.doms := rfl
@[simp] theorem State.setChan_start (c : Nat) (x : Chan) : (s.setChan c x).start = s.start := rfl
@[simp] theorem State.setChan_blend (c : Nat) (x : Chan) : (s.setChan c x).blend = s.blend := rfl
@[simp] theorem State.setChan_repairs (c : Nat) (x : Chan) : (s.setChan c x).repairs = s.repairs := rfl
@[simp] theorem State.setChan_oob (c : Nat) (x : Chan) : (s.setChan c x).oob = s.oob := rfl
@[simp] theorem State.setChan_spdm (c : Nat) (x : Chan) : (s.setChan c x).spdm = s.spdm := rfl
@[simp] theorem State.setChan_msix (c : Nat) (x : Chan) : (s.setChan c x).msix = s.msix := rfl
@[simp] theorem State.setChan_d3hot (c : Nat) (x : Chan) : (s.setChan c x).d3hot = s.d3hot := rfl
@[simp] theorem State.setChan_pcieUp (c : Nat) (x : Chan) : (s.setChan c x).pcieUp = s.pcieUp := rfl
@[simp] theorem State.setChan_pkgLevel (c : Nat) (x : Chan) : (s.setChan c x).pkgLevel = s.pkgLevel := rfl
@[simp] theorem State.setChan_rptSeq (c : Nat) (x : Chan) : (s.setChan c x).rptSeq = s.rptSeq := rfl
@[simp] theorem State.setChan_cfgReject (c : Nat) (x : Chan) : (s.setChan c x).cfgReject = s.cfgReject := rfl
@[simp] theorem State.setChan_victims (c : Nat) (x : Chan) : (s.setChan c x).victims = s.victims := rfl
@[simp] theorem State.setChan_raised (c : Nat) (x : Chan) : (s.setChan c x).raised = s.raised := rfl
@[simp] theorem State.setChan_outbox (c : Nat) (x : Chan) : (s.setChan c x).outbox = s.outbox := rfl
@[simp] theorem State.setChan_draws (c : Nat) (x : Chan) : (s.setChan c x).draws = s.draws := rfl

/-! setPort writes ports. -/
@[simp] theorem State.setPort_pending (p : Nat) (x : Port) : (s.setPort p x).pending = s.pending := rfl
@[simp] theorem State.setPort_clk (p : Nat) (x : Port) : (s.setPort p x).clk = s.clk := rfl
@[simp] theorem State.setPort_mem (p : Nat) (x : Port) : (s.setPort p x).mem = s.mem := rfl
@[simp] theorem State.setPort_sweep (p : Nat) (x : Port) : (s.setPort p x).sweep = s.sweep := rfl
@[simp] theorem State.setPort_cfg (p : Nat) (x : Port) : (s.setPort p x).cfg = s.cfg := rfl
@[simp] theorem State.setPort_regs (p : Nat) (x : Port) : (s.setPort p x).regs = s.regs := rfl
@[simp] theorem State.setPort_shadows (p : Nat) (x : Port) : (s.setPort p x).shadows = s.shadows := rfl
@[simp] theorem State.setPort_capture (p : Nat) (x : Port) : (s.setPort p x).capture = s.capture := rfl
@[simp] theorem State.setPort_dies (p : Nat) (x : Port) : (s.setPort p x).dies = s.dies := rfl
@[simp] theorem State.setPort_pes (p : Nat) (x : Port) : (s.setPort p x).pes = s.pes := rfl
@[simp] theorem State.setPort_lanes (p : Nat) (x : Port) : (s.setPort p x).lanes = s.lanes := rfl
@[simp] theorem State.setPort_sets (p : Nat) (x : Port) : (s.setPort p x).sets = s.sets := rfl
@[simp] theorem State.setPort_istore (p : Nat) (x : Port) : (s.setPort p x).istore = s.istore := rfl
@[simp] theorem State.setPort_graphs (p : Nat) (x : Port) : (s.setPort p x).graphs = s.graphs := rfl
@[simp] theorem State.setPort_queues (p : Nat) (x : Port) : (s.setPort p x).queues = s.queues := rfl
@[simp] theorem State.setPort_links (p : Nat) (x : Port) : (s.setPort p x).links = s.links := rfl
@[simp] theorem State.setPort_dirs (p : Nat) (x : Port) : (s.setPort p x).dirs = s.dirs := rfl
@[simp] theorem State.setPort_banks (p : Nat) (x : Port) : (s.setPort p x).banks = s.banks := rfl
@[simp] theorem State.setPort_latches (p : Nat) (x : Port) : (s.setPort p x).latches = s.latches := rfl
@[simp] theorem State.setPort_units (p : Nat) (x : Port) : (s.setPort p x).units = s.units := rfl
@[simp] theorem State.setPort_nextUnit (p : Nat) (x : Port) : (s.setPort p x).nextUnit = s.nextUnit := rfl
@[simp] theorem State.setPort_chans (p : Nat) (x : Port) : (s.setPort p x).chans = s.chans := rfl
@[simp] theorem State.setPort_lastGrant (p : Nat) (x : Port) : (s.setPort p x).lastGrant = s.lastGrant := rfl
@[simp] theorem State.setPort_tws (p : Nat) (x : Port) : (s.setPort p x).tws = s.tws := rfl
@[simp] theorem State.setPort_qps (p : Nat) (x : Port) : (s.setPort p x).qps = s.qps := rfl
@[simp] theorem State.setPort_ce (p : Nat) (x : Port) : (s.setPort p x).ce = s.ce := rfl
@[simp] theorem State.setPort_kao (p : Nat) (x : Port) : (s.setPort p x).kao = s.kao := rfl
@[simp] theorem State.setPort_sealPort (p : Nat) (x : Port) : (s.setPort p x).sealPort = s.sealPort := rfl
@[simp] theorem State.setPort_erq (p : Nat) (x : Port) : (s.setPort p x).erq = s.erq := rfl
@[simp] theorem State.setPort_log (p : Nat) (x : Port) : (s.setPort p x).log = s.log := rfl
@[simp] theorem State.setPort_logNext (p : Nat) (x : Port) : (s.setPort p x).logNext = s.logNext := rfl
@[simp] theorem State.setPort_gov (p : Nat) (x : Port) : (s.setPort p x).gov = s.gov := rfl
@[simp] theorem State.setPort_doms (p : Nat) (x : Port) : (s.setPort p x).doms = s.doms := rfl
@[simp] theorem State.setPort_start (p : Nat) (x : Port) : (s.setPort p x).start = s.start := rfl
@[simp] theorem State.setPort_blend (p : Nat) (x : Port) : (s.setPort p x).blend = s.blend := rfl
@[simp] theorem State.setPort_repairs (p : Nat) (x : Port) : (s.setPort p x).repairs = s.repairs := rfl
@[simp] theorem State.setPort_oob (p : Nat) (x : Port) : (s.setPort p x).oob = s.oob := rfl
@[simp] theorem State.setPort_spdm (p : Nat) (x : Port) : (s.setPort p x).spdm = s.spdm := rfl
@[simp] theorem State.setPort_msix (p : Nat) (x : Port) : (s.setPort p x).msix = s.msix := rfl
@[simp] theorem State.setPort_d3hot (p : Nat) (x : Port) : (s.setPort p x).d3hot = s.d3hot := rfl
@[simp] theorem State.setPort_pcieUp (p : Nat) (x : Port) : (s.setPort p x).pcieUp = s.pcieUp := rfl
@[simp] theorem State.setPort_pkgLevel (p : Nat) (x : Port) : (s.setPort p x).pkgLevel = s.pkgLevel := rfl
@[simp] theorem State.setPort_rptSeq (p : Nat) (x : Port) : (s.setPort p x).rptSeq = s.rptSeq := rfl
@[simp] theorem State.setPort_cfgReject (p : Nat) (x : Port) : (s.setPort p x).cfgReject = s.cfgReject := rfl
@[simp] theorem State.setPort_victims (p : Nat) (x : Port) : (s.setPort p x).victims = s.victims := rfl
@[simp] theorem State.setPort_raised (p : Nat) (x : Port) : (s.setPort p x).raised = s.raised := rfl
@[simp] theorem State.setPort_outbox (p : Nat) (x : Port) : (s.setPort p x).outbox = s.outbox := rfl
@[simp] theorem State.setPort_draws (p : Nat) (x : Port) : (s.setPort p x).draws = s.draws := rfl

/-! updPort writes ports. -/
@[simp] theorem State.updPort_pending (p : Nat) (f : Port → Port) : (s.updPort p f).pending = s.pending := rfl
@[simp] theorem State.updPort_clk (p : Nat) (f : Port → Port) : (s.updPort p f).clk = s.clk := rfl
@[simp] theorem State.updPort_mem (p : Nat) (f : Port → Port) : (s.updPort p f).mem = s.mem := rfl
@[simp] theorem State.updPort_sweep (p : Nat) (f : Port → Port) : (s.updPort p f).sweep = s.sweep := rfl
@[simp] theorem State.updPort_cfg (p : Nat) (f : Port → Port) : (s.updPort p f).cfg = s.cfg := rfl
@[simp] theorem State.updPort_regs (p : Nat) (f : Port → Port) : (s.updPort p f).regs = s.regs := rfl
@[simp] theorem State.updPort_shadows (p : Nat) (f : Port → Port) : (s.updPort p f).shadows = s.shadows := rfl
@[simp] theorem State.updPort_capture (p : Nat) (f : Port → Port) : (s.updPort p f).capture = s.capture := rfl
@[simp] theorem State.updPort_dies (p : Nat) (f : Port → Port) : (s.updPort p f).dies = s.dies := rfl
@[simp] theorem State.updPort_pes (p : Nat) (f : Port → Port) : (s.updPort p f).pes = s.pes := rfl
@[simp] theorem State.updPort_lanes (p : Nat) (f : Port → Port) : (s.updPort p f).lanes = s.lanes := rfl
@[simp] theorem State.updPort_sets (p : Nat) (f : Port → Port) : (s.updPort p f).sets = s.sets := rfl
@[simp] theorem State.updPort_istore (p : Nat) (f : Port → Port) : (s.updPort p f).istore = s.istore := rfl
@[simp] theorem State.updPort_graphs (p : Nat) (f : Port → Port) : (s.updPort p f).graphs = s.graphs := rfl
@[simp] theorem State.updPort_queues (p : Nat) (f : Port → Port) : (s.updPort p f).queues = s.queues := rfl
@[simp] theorem State.updPort_links (p : Nat) (f : Port → Port) : (s.updPort p f).links = s.links := rfl
@[simp] theorem State.updPort_dirs (p : Nat) (f : Port → Port) : (s.updPort p f).dirs = s.dirs := rfl
@[simp] theorem State.updPort_banks (p : Nat) (f : Port → Port) : (s.updPort p f).banks = s.banks := rfl
@[simp] theorem State.updPort_latches (p : Nat) (f : Port → Port) : (s.updPort p f).latches = s.latches := rfl
@[simp] theorem State.updPort_units (p : Nat) (f : Port → Port) : (s.updPort p f).units = s.units := rfl
@[simp] theorem State.updPort_nextUnit (p : Nat) (f : Port → Port) : (s.updPort p f).nextUnit = s.nextUnit := rfl
@[simp] theorem State.updPort_chans (p : Nat) (f : Port → Port) : (s.updPort p f).chans = s.chans := rfl
@[simp] theorem State.updPort_lastGrant (p : Nat) (f : Port → Port) : (s.updPort p f).lastGrant = s.lastGrant := rfl
@[simp] theorem State.updPort_tws (p : Nat) (f : Port → Port) : (s.updPort p f).tws = s.tws := rfl
@[simp] theorem State.updPort_qps (p : Nat) (f : Port → Port) : (s.updPort p f).qps = s.qps := rfl
@[simp] theorem State.updPort_ce (p : Nat) (f : Port → Port) : (s.updPort p f).ce = s.ce := rfl
@[simp] theorem State.updPort_kao (p : Nat) (f : Port → Port) : (s.updPort p f).kao = s.kao := rfl
@[simp] theorem State.updPort_sealPort (p : Nat) (f : Port → Port) : (s.updPort p f).sealPort = s.sealPort := rfl
@[simp] theorem State.updPort_erq (p : Nat) (f : Port → Port) : (s.updPort p f).erq = s.erq := rfl
@[simp] theorem State.updPort_log (p : Nat) (f : Port → Port) : (s.updPort p f).log = s.log := rfl
@[simp] theorem State.updPort_logNext (p : Nat) (f : Port → Port) : (s.updPort p f).logNext = s.logNext := rfl
@[simp] theorem State.updPort_gov (p : Nat) (f : Port → Port) : (s.updPort p f).gov = s.gov := rfl
@[simp] theorem State.updPort_doms (p : Nat) (f : Port → Port) : (s.updPort p f).doms = s.doms := rfl
@[simp] theorem State.updPort_start (p : Nat) (f : Port → Port) : (s.updPort p f).start = s.start := rfl
@[simp] theorem State.updPort_blend (p : Nat) (f : Port → Port) : (s.updPort p f).blend = s.blend := rfl
@[simp] theorem State.updPort_repairs (p : Nat) (f : Port → Port) : (s.updPort p f).repairs = s.repairs := rfl
@[simp] theorem State.updPort_oob (p : Nat) (f : Port → Port) : (s.updPort p f).oob = s.oob := rfl
@[simp] theorem State.updPort_spdm (p : Nat) (f : Port → Port) : (s.updPort p f).spdm = s.spdm := rfl
@[simp] theorem State.updPort_msix (p : Nat) (f : Port → Port) : (s.updPort p f).msix = s.msix := rfl
@[simp] theorem State.updPort_d3hot (p : Nat) (f : Port → Port) : (s.updPort p f).d3hot = s.d3hot := rfl
@[simp] theorem State.updPort_pcieUp (p : Nat) (f : Port → Port) : (s.updPort p f).pcieUp = s.pcieUp := rfl
@[simp] theorem State.updPort_pkgLevel (p : Nat) (f : Port → Port) : (s.updPort p f).pkgLevel = s.pkgLevel := rfl
@[simp] theorem State.updPort_rptSeq (p : Nat) (f : Port → Port) : (s.updPort p f).rptSeq = s.rptSeq := rfl
@[simp] theorem State.updPort_cfgReject (p : Nat) (f : Port → Port) : (s.updPort p f).cfgReject = s.cfgReject := rfl
@[simp] theorem State.updPort_victims (p : Nat) (f : Port → Port) : (s.updPort p f).victims = s.victims := rfl
@[simp] theorem State.updPort_raised (p : Nat) (f : Port → Port) : (s.updPort p f).raised = s.raised := rfl
@[simp] theorem State.updPort_outbox (p : Nat) (f : Port → Port) : (s.updPort p f).outbox = s.outbox := rfl
@[simp] theorem State.updPort_draws (p : Nat) (f : Port → Port) : (s.updPort p f).draws = s.draws := rfl

/-! setTwk writes tws. -/
@[simp] theorem State.setTwk_pending (n : Nat) (x : Twk) : (s.setTwk n x).pending = s.pending := rfl
@[simp] theorem State.setTwk_clk (n : Nat) (x : Twk) : (s.setTwk n x).clk = s.clk := rfl
@[simp] theorem State.setTwk_mem (n : Nat) (x : Twk) : (s.setTwk n x).mem = s.mem := rfl
@[simp] theorem State.setTwk_sweep (n : Nat) (x : Twk) : (s.setTwk n x).sweep = s.sweep := rfl
@[simp] theorem State.setTwk_cfg (n : Nat) (x : Twk) : (s.setTwk n x).cfg = s.cfg := rfl
@[simp] theorem State.setTwk_regs (n : Nat) (x : Twk) : (s.setTwk n x).regs = s.regs := rfl
@[simp] theorem State.setTwk_shadows (n : Nat) (x : Twk) : (s.setTwk n x).shadows = s.shadows := rfl
@[simp] theorem State.setTwk_capture (n : Nat) (x : Twk) : (s.setTwk n x).capture = s.capture := rfl
@[simp] theorem State.setTwk_dies (n : Nat) (x : Twk) : (s.setTwk n x).dies = s.dies := rfl
@[simp] theorem State.setTwk_pes (n : Nat) (x : Twk) : (s.setTwk n x).pes = s.pes := rfl
@[simp] theorem State.setTwk_lanes (n : Nat) (x : Twk) : (s.setTwk n x).lanes = s.lanes := rfl
@[simp] theorem State.setTwk_sets (n : Nat) (x : Twk) : (s.setTwk n x).sets = s.sets := rfl
@[simp] theorem State.setTwk_istore (n : Nat) (x : Twk) : (s.setTwk n x).istore = s.istore := rfl
@[simp] theorem State.setTwk_graphs (n : Nat) (x : Twk) : (s.setTwk n x).graphs = s.graphs := rfl
@[simp] theorem State.setTwk_queues (n : Nat) (x : Twk) : (s.setTwk n x).queues = s.queues := rfl
@[simp] theorem State.setTwk_links (n : Nat) (x : Twk) : (s.setTwk n x).links = s.links := rfl
@[simp] theorem State.setTwk_dirs (n : Nat) (x : Twk) : (s.setTwk n x).dirs = s.dirs := rfl
@[simp] theorem State.setTwk_banks (n : Nat) (x : Twk) : (s.setTwk n x).banks = s.banks := rfl
@[simp] theorem State.setTwk_latches (n : Nat) (x : Twk) : (s.setTwk n x).latches = s.latches := rfl
@[simp] theorem State.setTwk_units (n : Nat) (x : Twk) : (s.setTwk n x).units = s.units := rfl
@[simp] theorem State.setTwk_nextUnit (n : Nat) (x : Twk) : (s.setTwk n x).nextUnit = s.nextUnit := rfl
@[simp] theorem State.setTwk_chans (n : Nat) (x : Twk) : (s.setTwk n x).chans = s.chans := rfl
@[simp] theorem State.setTwk_lastGrant (n : Nat) (x : Twk) : (s.setTwk n x).lastGrant = s.lastGrant := rfl
@[simp] theorem State.setTwk_ports (n : Nat) (x : Twk) : (s.setTwk n x).ports = s.ports := rfl
@[simp] theorem State.setTwk_qps (n : Nat) (x : Twk) : (s.setTwk n x).qps = s.qps := rfl
@[simp] theorem State.setTwk_ce (n : Nat) (x : Twk) : (s.setTwk n x).ce = s.ce := rfl
@[simp] theorem State.setTwk_kao (n : Nat) (x : Twk) : (s.setTwk n x).kao = s.kao := rfl
@[simp] theorem State.setTwk_sealPort (n : Nat) (x : Twk) : (s.setTwk n x).sealPort = s.sealPort := rfl
@[simp] theorem State.setTwk_erq (n : Nat) (x : Twk) : (s.setTwk n x).erq = s.erq := rfl
@[simp] theorem State.setTwk_log (n : Nat) (x : Twk) : (s.setTwk n x).log = s.log := rfl
@[simp] theorem State.setTwk_logNext (n : Nat) (x : Twk) : (s.setTwk n x).logNext = s.logNext := rfl
@[simp] theorem State.setTwk_gov (n : Nat) (x : Twk) : (s.setTwk n x).gov = s.gov := rfl
@[simp] theorem State.setTwk_doms (n : Nat) (x : Twk) : (s.setTwk n x).doms = s.doms := rfl
@[simp] theorem State.setTwk_start (n : Nat) (x : Twk) : (s.setTwk n x).start = s.start := rfl
@[simp] theorem State.setTwk_blend (n : Nat) (x : Twk) : (s.setTwk n x).blend = s.blend := rfl
@[simp] theorem State.setTwk_repairs (n : Nat) (x : Twk) : (s.setTwk n x).repairs = s.repairs := rfl
@[simp] theorem State.setTwk_oob (n : Nat) (x : Twk) : (s.setTwk n x).oob = s.oob := rfl
@[simp] theorem State.setTwk_spdm (n : Nat) (x : Twk) : (s.setTwk n x).spdm = s.spdm := rfl
@[simp] theorem State.setTwk_msix (n : Nat) (x : Twk) : (s.setTwk n x).msix = s.msix := rfl
@[simp] theorem State.setTwk_d3hot (n : Nat) (x : Twk) : (s.setTwk n x).d3hot = s.d3hot := rfl
@[simp] theorem State.setTwk_pcieUp (n : Nat) (x : Twk) : (s.setTwk n x).pcieUp = s.pcieUp := rfl
@[simp] theorem State.setTwk_pkgLevel (n : Nat) (x : Twk) : (s.setTwk n x).pkgLevel = s.pkgLevel := rfl
@[simp] theorem State.setTwk_rptSeq (n : Nat) (x : Twk) : (s.setTwk n x).rptSeq = s.rptSeq := rfl
@[simp] theorem State.setTwk_cfgReject (n : Nat) (x : Twk) : (s.setTwk n x).cfgReject = s.cfgReject := rfl
@[simp] theorem State.setTwk_victims (n : Nat) (x : Twk) : (s.setTwk n x).victims = s.victims := rfl
@[simp] theorem State.setTwk_raised (n : Nat) (x : Twk) : (s.setTwk n x).raised = s.raised := rfl
@[simp] theorem State.setTwk_outbox (n : Nat) (x : Twk) : (s.setTwk n x).outbox = s.outbox := rfl
@[simp] theorem State.setTwk_draws (n : Nat) (x : Twk) : (s.setTwk n x).draws = s.draws := rfl

/-! setQp writes qps. -/
@[simp] theorem State.setQp_pending (q : Nat) (x : Qp) : (s.setQp q x).pending = s.pending := rfl
@[simp] theorem State.setQp_clk (q : Nat) (x : Qp) : (s.setQp q x).clk = s.clk := rfl
@[simp] theorem State.setQp_mem (q : Nat) (x : Qp) : (s.setQp q x).mem = s.mem := rfl
@[simp] theorem State.setQp_sweep (q : Nat) (x : Qp) : (s.setQp q x).sweep = s.sweep := rfl
@[simp] theorem State.setQp_cfg (q : Nat) (x : Qp) : (s.setQp q x).cfg = s.cfg := rfl
@[simp] theorem State.setQp_regs (q : Nat) (x : Qp) : (s.setQp q x).regs = s.regs := rfl
@[simp] theorem State.setQp_shadows (q : Nat) (x : Qp) : (s.setQp q x).shadows = s.shadows := rfl
@[simp] theorem State.setQp_capture (q : Nat) (x : Qp) : (s.setQp q x).capture = s.capture := rfl
@[simp] theorem State.setQp_dies (q : Nat) (x : Qp) : (s.setQp q x).dies = s.dies := rfl
@[simp] theorem State.setQp_pes (q : Nat) (x : Qp) : (s.setQp q x).pes = s.pes := rfl
@[simp] theorem State.setQp_lanes (q : Nat) (x : Qp) : (s.setQp q x).lanes = s.lanes := rfl
@[simp] theorem State.setQp_sets (q : Nat) (x : Qp) : (s.setQp q x).sets = s.sets := rfl
@[simp] theorem State.setQp_istore (q : Nat) (x : Qp) : (s.setQp q x).istore = s.istore := rfl
@[simp] theorem State.setQp_graphs (q : Nat) (x : Qp) : (s.setQp q x).graphs = s.graphs := rfl
@[simp] theorem State.setQp_queues (q : Nat) (x : Qp) : (s.setQp q x).queues = s.queues := rfl
@[simp] theorem State.setQp_links (q : Nat) (x : Qp) : (s.setQp q x).links = s.links := rfl
@[simp] theorem State.setQp_dirs (q : Nat) (x : Qp) : (s.setQp q x).dirs = s.dirs := rfl
@[simp] theorem State.setQp_banks (q : Nat) (x : Qp) : (s.setQp q x).banks = s.banks := rfl
@[simp] theorem State.setQp_latches (q : Nat) (x : Qp) : (s.setQp q x).latches = s.latches := rfl
@[simp] theorem State.setQp_units (q : Nat) (x : Qp) : (s.setQp q x).units = s.units := rfl
@[simp] theorem State.setQp_nextUnit (q : Nat) (x : Qp) : (s.setQp q x).nextUnit = s.nextUnit := rfl
@[simp] theorem State.setQp_chans (q : Nat) (x : Qp) : (s.setQp q x).chans = s.chans := rfl
@[simp] theorem State.setQp_lastGrant (q : Nat) (x : Qp) : (s.setQp q x).lastGrant = s.lastGrant := rfl
@[simp] theorem State.setQp_ports (q : Nat) (x : Qp) : (s.setQp q x).ports = s.ports := rfl
@[simp] theorem State.setQp_tws (q : Nat) (x : Qp) : (s.setQp q x).tws = s.tws := rfl
@[simp] theorem State.setQp_ce (q : Nat) (x : Qp) : (s.setQp q x).ce = s.ce := rfl
@[simp] theorem State.setQp_kao (q : Nat) (x : Qp) : (s.setQp q x).kao = s.kao := rfl
@[simp] theorem State.setQp_sealPort (q : Nat) (x : Qp) : (s.setQp q x).sealPort = s.sealPort := rfl
@[simp] theorem State.setQp_erq (q : Nat) (x : Qp) : (s.setQp q x).erq = s.erq := rfl
@[simp] theorem State.setQp_log (q : Nat) (x : Qp) : (s.setQp q x).log = s.log := rfl
@[simp] theorem State.setQp_logNext (q : Nat) (x : Qp) : (s.setQp q x).logNext = s.logNext := rfl
@[simp] theorem State.setQp_gov (q : Nat) (x : Qp) : (s.setQp q x).gov = s.gov := rfl
@[simp] theorem State.setQp_doms (q : Nat) (x : Qp) : (s.setQp q x).doms = s.doms := rfl
@[simp] theorem State.setQp_start (q : Nat) (x : Qp) : (s.setQp q x).start = s.start := rfl
@[simp] theorem State.setQp_blend (q : Nat) (x : Qp) : (s.setQp q x).blend = s.blend := rfl
@[simp] theorem State.setQp_repairs (q : Nat) (x : Qp) : (s.setQp q x).repairs = s.repairs := rfl
@[simp] theorem State.setQp_oob (q : Nat) (x : Qp) : (s.setQp q x).oob = s.oob := rfl
@[simp] theorem State.setQp_spdm (q : Nat) (x : Qp) : (s.setQp q x).spdm = s.spdm := rfl
@[simp] theorem State.setQp_msix (q : Nat) (x : Qp) : (s.setQp q x).msix = s.msix := rfl
@[simp] theorem State.setQp_d3hot (q : Nat) (x : Qp) : (s.setQp q x).d3hot = s.d3hot := rfl
@[simp] theorem State.setQp_pcieUp (q : Nat) (x : Qp) : (s.setQp q x).pcieUp = s.pcieUp := rfl
@[simp] theorem State.setQp_pkgLevel (q : Nat) (x : Qp) : (s.setQp q x).pkgLevel = s.pkgLevel := rfl
@[simp] theorem State.setQp_rptSeq (q : Nat) (x : Qp) : (s.setQp q x).rptSeq = s.rptSeq := rfl
@[simp] theorem State.setQp_cfgReject (q : Nat) (x : Qp) : (s.setQp q x).cfgReject = s.cfgReject := rfl
@[simp] theorem State.setQp_victims (q : Nat) (x : Qp) : (s.setQp q x).victims = s.victims := rfl
@[simp] theorem State.setQp_raised (q : Nat) (x : Qp) : (s.setQp q x).raised = s.raised := rfl
@[simp] theorem State.setQp_outbox (q : Nat) (x : Qp) : (s.setQp q x).outbox = s.outbox := rfl
@[simp] theorem State.setQp_draws (q : Nat) (x : Qp) : (s.setQp q x).draws = s.draws := rfl

/-! setDom writes doms. -/
@[simp] theorem State.setDom_pending (d : Nat) (x : Dom) : (s.setDom d x).pending = s.pending := rfl
@[simp] theorem State.setDom_clk (d : Nat) (x : Dom) : (s.setDom d x).clk = s.clk := rfl
@[simp] theorem State.setDom_mem (d : Nat) (x : Dom) : (s.setDom d x).mem = s.mem := rfl
@[simp] theorem State.setDom_sweep (d : Nat) (x : Dom) : (s.setDom d x).sweep = s.sweep := rfl
@[simp] theorem State.setDom_cfg (d : Nat) (x : Dom) : (s.setDom d x).cfg = s.cfg := rfl
@[simp] theorem State.setDom_regs (d : Nat) (x : Dom) : (s.setDom d x).regs = s.regs := rfl
@[simp] theorem State.setDom_shadows (d : Nat) (x : Dom) : (s.setDom d x).shadows = s.shadows := rfl
@[simp] theorem State.setDom_capture (d : Nat) (x : Dom) : (s.setDom d x).capture = s.capture := rfl
@[simp] theorem State.setDom_dies (d : Nat) (x : Dom) : (s.setDom d x).dies = s.dies := rfl
@[simp] theorem State.setDom_pes (d : Nat) (x : Dom) : (s.setDom d x).pes = s.pes := rfl
@[simp] theorem State.setDom_lanes (d : Nat) (x : Dom) : (s.setDom d x).lanes = s.lanes := rfl
@[simp] theorem State.setDom_sets (d : Nat) (x : Dom) : (s.setDom d x).sets = s.sets := rfl
@[simp] theorem State.setDom_istore (d : Nat) (x : Dom) : (s.setDom d x).istore = s.istore := rfl
@[simp] theorem State.setDom_graphs (d : Nat) (x : Dom) : (s.setDom d x).graphs = s.graphs := rfl
@[simp] theorem State.setDom_queues (d : Nat) (x : Dom) : (s.setDom d x).queues = s.queues := rfl
@[simp] theorem State.setDom_links (d : Nat) (x : Dom) : (s.setDom d x).links = s.links := rfl
@[simp] theorem State.setDom_dirs (d : Nat) (x : Dom) : (s.setDom d x).dirs = s.dirs := rfl
@[simp] theorem State.setDom_banks (d : Nat) (x : Dom) : (s.setDom d x).banks = s.banks := rfl
@[simp] theorem State.setDom_latches (d : Nat) (x : Dom) : (s.setDom d x).latches = s.latches := rfl
@[simp] theorem State.setDom_units (d : Nat) (x : Dom) : (s.setDom d x).units = s.units := rfl
@[simp] theorem State.setDom_nextUnit (d : Nat) (x : Dom) : (s.setDom d x).nextUnit = s.nextUnit := rfl
@[simp] theorem State.setDom_chans (d : Nat) (x : Dom) : (s.setDom d x).chans = s.chans := rfl
@[simp] theorem State.setDom_lastGrant (d : Nat) (x : Dom) : (s.setDom d x).lastGrant = s.lastGrant := rfl
@[simp] theorem State.setDom_ports (d : Nat) (x : Dom) : (s.setDom d x).ports = s.ports := rfl
@[simp] theorem State.setDom_tws (d : Nat) (x : Dom) : (s.setDom d x).tws = s.tws := rfl
@[simp] theorem State.setDom_qps (d : Nat) (x : Dom) : (s.setDom d x).qps = s.qps := rfl
@[simp] theorem State.setDom_ce (d : Nat) (x : Dom) : (s.setDom d x).ce = s.ce := rfl
@[simp] theorem State.setDom_kao (d : Nat) (x : Dom) : (s.setDom d x).kao = s.kao := rfl
@[simp] theorem State.setDom_sealPort (d : Nat) (x : Dom) : (s.setDom d x).sealPort = s.sealPort := rfl
@[simp] theorem State.setDom_erq (d : Nat) (x : Dom) : (s.setDom d x).erq = s.erq := rfl
@[simp] theorem State.setDom_log (d : Nat) (x : Dom) : (s.setDom d x).log = s.log := rfl
@[simp] theorem State.setDom_logNext (d : Nat) (x : Dom) : (s.setDom d x).logNext = s.logNext := rfl
@[simp] theorem State.setDom_gov (d : Nat) (x : Dom) : (s.setDom d x).gov = s.gov := rfl
@[simp] theorem State.setDom_start (d : Nat) (x : Dom) : (s.setDom d x).start = s.start := rfl
@[simp] theorem State.setDom_blend (d : Nat) (x : Dom) : (s.setDom d x).blend = s.blend := rfl
@[simp] theorem State.setDom_repairs (d : Nat) (x : Dom) : (s.setDom d x).repairs = s.repairs := rfl
@[simp] theorem State.setDom_oob (d : Nat) (x : Dom) : (s.setDom d x).oob = s.oob := rfl
@[simp] theorem State.setDom_spdm (d : Nat) (x : Dom) : (s.setDom d x).spdm = s.spdm := rfl
@[simp] theorem State.setDom_msix (d : Nat) (x : Dom) : (s.setDom d x).msix = s.msix := rfl
@[simp] theorem State.setDom_d3hot (d : Nat) (x : Dom) : (s.setDom d x).d3hot = s.d3hot := rfl
@[simp] theorem State.setDom_pcieUp (d : Nat) (x : Dom) : (s.setDom d x).pcieUp = s.pcieUp := rfl
@[simp] theorem State.setDom_pkgLevel (d : Nat) (x : Dom) : (s.setDom d x).pkgLevel = s.pkgLevel := rfl
@[simp] theorem State.setDom_rptSeq (d : Nat) (x : Dom) : (s.setDom d x).rptSeq = s.rptSeq := rfl
@[simp] theorem State.setDom_cfgReject (d : Nat) (x : Dom) : (s.setDom d x).cfgReject = s.cfgReject := rfl
@[simp] theorem State.setDom_victims (d : Nat) (x : Dom) : (s.setDom d x).victims = s.victims := rfl
@[simp] theorem State.setDom_raised (d : Nat) (x : Dom) : (s.setDom d x).raised = s.raised := rfl
@[simp] theorem State.setDom_outbox (d : Nat) (x : Dom) : (s.setDom d x).outbox = s.outbox := rfl
@[simp] theorem State.setDom_draws (d : Nat) (x : Dom) : (s.setDom d x).draws = s.draws := rfl

/-! setMset writes sets. -/
@[simp] theorem State.setMset_pending (n k : Nat) (x : MsSet) : (s.setMset n k x).pending = s.pending := rfl
@[simp] theorem State.setMset_clk (n k : Nat) (x : MsSet) : (s.setMset n k x).clk = s.clk := rfl
@[simp] theorem State.setMset_mem (n k : Nat) (x : MsSet) : (s.setMset n k x).mem = s.mem := rfl
@[simp] theorem State.setMset_sweep (n k : Nat) (x : MsSet) : (s.setMset n k x).sweep = s.sweep := rfl
@[simp] theorem State.setMset_cfg (n k : Nat) (x : MsSet) : (s.setMset n k x).cfg = s.cfg := rfl
@[simp] theorem State.setMset_regs (n k : Nat) (x : MsSet) : (s.setMset n k x).regs = s.regs := rfl
@[simp] theorem State.setMset_shadows (n k : Nat) (x : MsSet) : (s.setMset n k x).shadows = s.shadows := rfl
@[simp] theorem State.setMset_capture (n k : Nat) (x : MsSet) : (s.setMset n k x).capture = s.capture := rfl
@[simp] theorem State.setMset_dies (n k : Nat) (x : MsSet) : (s.setMset n k x).dies = s.dies := rfl
@[simp] theorem State.setMset_pes (n k : Nat) (x : MsSet) : (s.setMset n k x).pes = s.pes := rfl
@[simp] theorem State.setMset_lanes (n k : Nat) (x : MsSet) : (s.setMset n k x).lanes = s.lanes := rfl
@[simp] theorem State.setMset_istore (n k : Nat) (x : MsSet) : (s.setMset n k x).istore = s.istore := rfl
@[simp] theorem State.setMset_graphs (n k : Nat) (x : MsSet) : (s.setMset n k x).graphs = s.graphs := rfl
@[simp] theorem State.setMset_queues (n k : Nat) (x : MsSet) : (s.setMset n k x).queues = s.queues := rfl
@[simp] theorem State.setMset_links (n k : Nat) (x : MsSet) : (s.setMset n k x).links = s.links := rfl
@[simp] theorem State.setMset_dirs (n k : Nat) (x : MsSet) : (s.setMset n k x).dirs = s.dirs := rfl
@[simp] theorem State.setMset_banks (n k : Nat) (x : MsSet) : (s.setMset n k x).banks = s.banks := rfl
@[simp] theorem State.setMset_latches (n k : Nat) (x : MsSet) : (s.setMset n k x).latches = s.latches := rfl
@[simp] theorem State.setMset_units (n k : Nat) (x : MsSet) : (s.setMset n k x).units = s.units := rfl
@[simp] theorem State.setMset_nextUnit (n k : Nat) (x : MsSet) : (s.setMset n k x).nextUnit = s.nextUnit := rfl
@[simp] theorem State.setMset_chans (n k : Nat) (x : MsSet) : (s.setMset n k x).chans = s.chans := rfl
@[simp] theorem State.setMset_lastGrant (n k : Nat) (x : MsSet) : (s.setMset n k x).lastGrant = s.lastGrant := rfl
@[simp] theorem State.setMset_ports (n k : Nat) (x : MsSet) : (s.setMset n k x).ports = s.ports := rfl
@[simp] theorem State.setMset_tws (n k : Nat) (x : MsSet) : (s.setMset n k x).tws = s.tws := rfl
@[simp] theorem State.setMset_qps (n k : Nat) (x : MsSet) : (s.setMset n k x).qps = s.qps := rfl
@[simp] theorem State.setMset_ce (n k : Nat) (x : MsSet) : (s.setMset n k x).ce = s.ce := rfl
@[simp] theorem State.setMset_kao (n k : Nat) (x : MsSet) : (s.setMset n k x).kao = s.kao := rfl
@[simp] theorem State.setMset_sealPort (n k : Nat) (x : MsSet) : (s.setMset n k x).sealPort = s.sealPort := rfl
@[simp] theorem State.setMset_erq (n k : Nat) (x : MsSet) : (s.setMset n k x).erq = s.erq := rfl
@[simp] theorem State.setMset_log (n k : Nat) (x : MsSet) : (s.setMset n k x).log = s.log := rfl
@[simp] theorem State.setMset_logNext (n k : Nat) (x : MsSet) : (s.setMset n k x).logNext = s.logNext := rfl
@[simp] theorem State.setMset_gov (n k : Nat) (x : MsSet) : (s.setMset n k x).gov = s.gov := rfl
@[simp] theorem State.setMset_doms (n k : Nat) (x : MsSet) : (s.setMset n k x).doms = s.doms := rfl
@[simp] theorem State.setMset_start (n k : Nat) (x : MsSet) : (s.setMset n k x).start = s.start := rfl
@[simp] theorem State.setMset_blend (n k : Nat) (x : MsSet) : (s.setMset n k x).blend = s.blend := rfl
@[simp] theorem State.setMset_repairs (n k : Nat) (x : MsSet) : (s.setMset n k x).repairs = s.repairs := rfl
@[simp] theorem State.setMset_oob (n k : Nat) (x : MsSet) : (s.setMset n k x).oob = s.oob := rfl
@[simp] theorem State.setMset_spdm (n k : Nat) (x : MsSet) : (s.setMset n k x).spdm = s.spdm := rfl
@[simp] theorem State.setMset_msix (n k : Nat) (x : MsSet) : (s.setMset n k x).msix = s.msix := rfl
@[simp] theorem State.setMset_d3hot (n k : Nat) (x : MsSet) : (s.setMset n k x).d3hot = s.d3hot := rfl
@[simp] theorem State.setMset_pcieUp (n k : Nat) (x : MsSet) : (s.setMset n k x).pcieUp = s.pcieUp := rfl
@[simp] theorem State.setMset_pkgLevel (n k : Nat) (x : MsSet) : (s.setMset n k x).pkgLevel = s.pkgLevel := rfl
@[simp] theorem State.setMset_rptSeq (n k : Nat) (x : MsSet) : (s.setMset n k x).rptSeq = s.rptSeq := rfl
@[simp] theorem State.setMset_cfgReject (n k : Nat) (x : MsSet) : (s.setMset n k x).cfgReject = s.cfgReject := rfl
@[simp] theorem State.setMset_victims (n k : Nat) (x : MsSet) : (s.setMset n k x).victims = s.victims := rfl
@[simp] theorem State.setMset_raised (n k : Nat) (x : MsSet) : (s.setMset n k x).raised = s.raised := rfl
@[simp] theorem State.setMset_outbox (n k : Nat) (x : MsSet) : (s.setMset n k x).outbox = s.outbox := rfl
@[simp] theorem State.setMset_draws (n k : Nat) (x : MsSet) : (s.setMset n k x).draws = s.draws := rfl

/-! setSlot writes istore. -/
@[simp] theorem State.setSlot_pending (n k : Nat) (x : Slot) : (s.setSlot n k x).pending = s.pending := rfl
@[simp] theorem State.setSlot_clk (n k : Nat) (x : Slot) : (s.setSlot n k x).clk = s.clk := rfl
@[simp] theorem State.setSlot_mem (n k : Nat) (x : Slot) : (s.setSlot n k x).mem = s.mem := rfl
@[simp] theorem State.setSlot_sweep (n k : Nat) (x : Slot) : (s.setSlot n k x).sweep = s.sweep := rfl
@[simp] theorem State.setSlot_cfg (n k : Nat) (x : Slot) : (s.setSlot n k x).cfg = s.cfg := rfl
@[simp] theorem State.setSlot_regs (n k : Nat) (x : Slot) : (s.setSlot n k x).regs = s.regs := rfl
@[simp] theorem State.setSlot_shadows (n k : Nat) (x : Slot) : (s.setSlot n k x).shadows = s.shadows := rfl
@[simp] theorem State.setSlot_capture (n k : Nat) (x : Slot) : (s.setSlot n k x).capture = s.capture := rfl
@[simp] theorem State.setSlot_dies (n k : Nat) (x : Slot) : (s.setSlot n k x).dies = s.dies := rfl
@[simp] theorem State.setSlot_pes (n k : Nat) (x : Slot) : (s.setSlot n k x).pes = s.pes := rfl
@[simp] theorem State.setSlot_lanes (n k : Nat) (x : Slot) : (s.setSlot n k x).lanes = s.lanes := rfl
@[simp] theorem State.setSlot_sets (n k : Nat) (x : Slot) : (s.setSlot n k x).sets = s.sets := rfl
@[simp] theorem State.setSlot_graphs (n k : Nat) (x : Slot) : (s.setSlot n k x).graphs = s.graphs := rfl
@[simp] theorem State.setSlot_queues (n k : Nat) (x : Slot) : (s.setSlot n k x).queues = s.queues := rfl
@[simp] theorem State.setSlot_links (n k : Nat) (x : Slot) : (s.setSlot n k x).links = s.links := rfl
@[simp] theorem State.setSlot_dirs (n k : Nat) (x : Slot) : (s.setSlot n k x).dirs = s.dirs := rfl
@[simp] theorem State.setSlot_banks (n k : Nat) (x : Slot) : (s.setSlot n k x).banks = s.banks := rfl
@[simp] theorem State.setSlot_latches (n k : Nat) (x : Slot) : (s.setSlot n k x).latches = s.latches := rfl
@[simp] theorem State.setSlot_units (n k : Nat) (x : Slot) : (s.setSlot n k x).units = s.units := rfl
@[simp] theorem State.setSlot_nextUnit (n k : Nat) (x : Slot) : (s.setSlot n k x).nextUnit = s.nextUnit := rfl
@[simp] theorem State.setSlot_chans (n k : Nat) (x : Slot) : (s.setSlot n k x).chans = s.chans := rfl
@[simp] theorem State.setSlot_lastGrant (n k : Nat) (x : Slot) : (s.setSlot n k x).lastGrant = s.lastGrant := rfl
@[simp] theorem State.setSlot_ports (n k : Nat) (x : Slot) : (s.setSlot n k x).ports = s.ports := rfl
@[simp] theorem State.setSlot_tws (n k : Nat) (x : Slot) : (s.setSlot n k x).tws = s.tws := rfl
@[simp] theorem State.setSlot_qps (n k : Nat) (x : Slot) : (s.setSlot n k x).qps = s.qps := rfl
@[simp] theorem State.setSlot_ce (n k : Nat) (x : Slot) : (s.setSlot n k x).ce = s.ce := rfl
@[simp] theorem State.setSlot_kao (n k : Nat) (x : Slot) : (s.setSlot n k x).kao = s.kao := rfl
@[simp] theorem State.setSlot_sealPort (n k : Nat) (x : Slot) : (s.setSlot n k x).sealPort = s.sealPort := rfl
@[simp] theorem State.setSlot_erq (n k : Nat) (x : Slot) : (s.setSlot n k x).erq = s.erq := rfl
@[simp] theorem State.setSlot_log (n k : Nat) (x : Slot) : (s.setSlot n k x).log = s.log := rfl
@[simp] theorem State.setSlot_logNext (n k : Nat) (x : Slot) : (s.setSlot n k x).logNext = s.logNext := rfl
@[simp] theorem State.setSlot_gov (n k : Nat) (x : Slot) : (s.setSlot n k x).gov = s.gov := rfl
@[simp] theorem State.setSlot_doms (n k : Nat) (x : Slot) : (s.setSlot n k x).doms = s.doms := rfl
@[simp] theorem State.setSlot_start (n k : Nat) (x : Slot) : (s.setSlot n k x).start = s.start := rfl
@[simp] theorem State.setSlot_blend (n k : Nat) (x : Slot) : (s.setSlot n k x).blend = s.blend := rfl
@[simp] theorem State.setSlot_repairs (n k : Nat) (x : Slot) : (s.setSlot n k x).repairs = s.repairs := rfl
@[simp] theorem State.setSlot_oob (n k : Nat) (x : Slot) : (s.setSlot n k x).oob = s.oob := rfl
@[simp] theorem State.setSlot_spdm (n k : Nat) (x : Slot) : (s.setSlot n k x).spdm = s.spdm := rfl
@[simp] theorem State.setSlot_msix (n k : Nat) (x : Slot) : (s.setSlot n k x).msix = s.msix := rfl
@[simp] theorem State.setSlot_d3hot (n k : Nat) (x : Slot) : (s.setSlot n k x).d3hot = s.d3hot := rfl
@[simp] theorem State.setSlot_pcieUp (n k : Nat) (x : Slot) : (s.setSlot n k x).pcieUp = s.pcieUp := rfl
@[simp] theorem State.setSlot_pkgLevel (n k : Nat) (x : Slot) : (s.setSlot n k x).pkgLevel = s.pkgLevel := rfl
@[simp] theorem State.setSlot_rptSeq (n k : Nat) (x : Slot) : (s.setSlot n k x).rptSeq = s.rptSeq := rfl
@[simp] theorem State.setSlot_cfgReject (n k : Nat) (x : Slot) : (s.setSlot n k x).cfgReject = s.cfgReject := rfl
@[simp] theorem State.setSlot_victims (n k : Nat) (x : Slot) : (s.setSlot n k x).victims = s.victims := rfl
@[simp] theorem State.setSlot_raised (n k : Nat) (x : Slot) : (s.setSlot n k x).raised = s.raised := rfl
@[simp] theorem State.setSlot_outbox (n k : Nat) (x : Slot) : (s.setSlot n k x).outbox = s.outbox := rfl
@[simp] theorem State.setSlot_draws (n k : Nat) (x : Slot) : (s.setSlot n k x).draws = s.draws := rfl

/-! emit writes outbox. -/
@[simp] theorem State.emit_pending (o : Out) : (s.emit o).pending = s.pending := rfl
@[simp] theorem State.emit_clk (o : Out) : (s.emit o).clk = s.clk := rfl
@[simp] theorem State.emit_mem (o : Out) : (s.emit o).mem = s.mem := rfl
@[simp] theorem State.emit_sweep (o : Out) : (s.emit o).sweep = s.sweep := rfl
@[simp] theorem State.emit_cfg (o : Out) : (s.emit o).cfg = s.cfg := rfl
@[simp] theorem State.emit_regs (o : Out) : (s.emit o).regs = s.regs := rfl
@[simp] theorem State.emit_shadows (o : Out) : (s.emit o).shadows = s.shadows := rfl
@[simp] theorem State.emit_capture (o : Out) : (s.emit o).capture = s.capture := rfl
@[simp] theorem State.emit_dies (o : Out) : (s.emit o).dies = s.dies := rfl
@[simp] theorem State.emit_pes (o : Out) : (s.emit o).pes = s.pes := rfl
@[simp] theorem State.emit_lanes (o : Out) : (s.emit o).lanes = s.lanes := rfl
@[simp] theorem State.emit_sets (o : Out) : (s.emit o).sets = s.sets := rfl
@[simp] theorem State.emit_istore (o : Out) : (s.emit o).istore = s.istore := rfl
@[simp] theorem State.emit_graphs (o : Out) : (s.emit o).graphs = s.graphs := rfl
@[simp] theorem State.emit_queues (o : Out) : (s.emit o).queues = s.queues := rfl
@[simp] theorem State.emit_links (o : Out) : (s.emit o).links = s.links := rfl
@[simp] theorem State.emit_dirs (o : Out) : (s.emit o).dirs = s.dirs := rfl
@[simp] theorem State.emit_banks (o : Out) : (s.emit o).banks = s.banks := rfl
@[simp] theorem State.emit_latches (o : Out) : (s.emit o).latches = s.latches := rfl
@[simp] theorem State.emit_units (o : Out) : (s.emit o).units = s.units := rfl
@[simp] theorem State.emit_nextUnit (o : Out) : (s.emit o).nextUnit = s.nextUnit := rfl
@[simp] theorem State.emit_chans (o : Out) : (s.emit o).chans = s.chans := rfl
@[simp] theorem State.emit_lastGrant (o : Out) : (s.emit o).lastGrant = s.lastGrant := rfl
@[simp] theorem State.emit_ports (o : Out) : (s.emit o).ports = s.ports := rfl
@[simp] theorem State.emit_tws (o : Out) : (s.emit o).tws = s.tws := rfl
@[simp] theorem State.emit_qps (o : Out) : (s.emit o).qps = s.qps := rfl
@[simp] theorem State.emit_ce (o : Out) : (s.emit o).ce = s.ce := rfl
@[simp] theorem State.emit_kao (o : Out) : (s.emit o).kao = s.kao := rfl
@[simp] theorem State.emit_sealPort (o : Out) : (s.emit o).sealPort = s.sealPort := rfl
@[simp] theorem State.emit_erq (o : Out) : (s.emit o).erq = s.erq := rfl
@[simp] theorem State.emit_log (o : Out) : (s.emit o).log = s.log := rfl
@[simp] theorem State.emit_logNext (o : Out) : (s.emit o).logNext = s.logNext := rfl
@[simp] theorem State.emit_gov (o : Out) : (s.emit o).gov = s.gov := rfl
@[simp] theorem State.emit_doms (o : Out) : (s.emit o).doms = s.doms := rfl
@[simp] theorem State.emit_start (o : Out) : (s.emit o).start = s.start := rfl
@[simp] theorem State.emit_blend (o : Out) : (s.emit o).blend = s.blend := rfl
@[simp] theorem State.emit_repairs (o : Out) : (s.emit o).repairs = s.repairs := rfl
@[simp] theorem State.emit_oob (o : Out) : (s.emit o).oob = s.oob := rfl
@[simp] theorem State.emit_spdm (o : Out) : (s.emit o).spdm = s.spdm := rfl
@[simp] theorem State.emit_msix (o : Out) : (s.emit o).msix = s.msix := rfl
@[simp] theorem State.emit_d3hot (o : Out) : (s.emit o).d3hot = s.d3hot := rfl
@[simp] theorem State.emit_pcieUp (o : Out) : (s.emit o).pcieUp = s.pcieUp := rfl
@[simp] theorem State.emit_pkgLevel (o : Out) : (s.emit o).pkgLevel = s.pkgLevel := rfl
@[simp] theorem State.emit_rptSeq (o : Out) : (s.emit o).rptSeq = s.rptSeq := rfl
@[simp] theorem State.emit_cfgReject (o : Out) : (s.emit o).cfgReject = s.cfgReject := rfl
@[simp] theorem State.emit_victims (o : Out) : (s.emit o).victims = s.victims := rfl
@[simp] theorem State.emit_raised (o : Out) : (s.emit o).raised = s.raised := rfl
@[simp] theorem State.emit_draws (o : Out) : (s.emit o).draws = s.draws := rfl

/-! setReg writes regs. -/
@[simp] theorem State.setReg_pending (o v : Nat) : (s.setReg o v).pending = s.pending := rfl
@[simp] theorem State.setReg_clk (o v : Nat) : (s.setReg o v).clk = s.clk := rfl
@[simp] theorem State.setReg_mem (o v : Nat) : (s.setReg o v).mem = s.mem := rfl
@[simp] theorem State.setReg_sweep (o v : Nat) : (s.setReg o v).sweep = s.sweep := rfl
@[simp] theorem State.setReg_cfg (o v : Nat) : (s.setReg o v).cfg = s.cfg := rfl
@[simp] theorem State.setReg_shadows (o v : Nat) : (s.setReg o v).shadows = s.shadows := rfl
@[simp] theorem State.setReg_capture (o v : Nat) : (s.setReg o v).capture = s.capture := rfl
@[simp] theorem State.setReg_dies (o v : Nat) : (s.setReg o v).dies = s.dies := rfl
@[simp] theorem State.setReg_pes (o v : Nat) : (s.setReg o v).pes = s.pes := rfl
@[simp] theorem State.setReg_lanes (o v : Nat) : (s.setReg o v).lanes = s.lanes := rfl
@[simp] theorem State.setReg_sets (o v : Nat) : (s.setReg o v).sets = s.sets := rfl
@[simp] theorem State.setReg_istore (o v : Nat) : (s.setReg o v).istore = s.istore := rfl
@[simp] theorem State.setReg_graphs (o v : Nat) : (s.setReg o v).graphs = s.graphs := rfl
@[simp] theorem State.setReg_queues (o v : Nat) : (s.setReg o v).queues = s.queues := rfl
@[simp] theorem State.setReg_links (o v : Nat) : (s.setReg o v).links = s.links := rfl
@[simp] theorem State.setReg_dirs (o v : Nat) : (s.setReg o v).dirs = s.dirs := rfl
@[simp] theorem State.setReg_banks (o v : Nat) : (s.setReg o v).banks = s.banks := rfl
@[simp] theorem State.setReg_latches (o v : Nat) : (s.setReg o v).latches = s.latches := rfl
@[simp] theorem State.setReg_units (o v : Nat) : (s.setReg o v).units = s.units := rfl
@[simp] theorem State.setReg_nextUnit (o v : Nat) : (s.setReg o v).nextUnit = s.nextUnit := rfl
@[simp] theorem State.setReg_chans (o v : Nat) : (s.setReg o v).chans = s.chans := rfl
@[simp] theorem State.setReg_lastGrant (o v : Nat) : (s.setReg o v).lastGrant = s.lastGrant := rfl
@[simp] theorem State.setReg_ports (o v : Nat) : (s.setReg o v).ports = s.ports := rfl
@[simp] theorem State.setReg_tws (o v : Nat) : (s.setReg o v).tws = s.tws := rfl
@[simp] theorem State.setReg_qps (o v : Nat) : (s.setReg o v).qps = s.qps := rfl
@[simp] theorem State.setReg_ce (o v : Nat) : (s.setReg o v).ce = s.ce := rfl
@[simp] theorem State.setReg_kao (o v : Nat) : (s.setReg o v).kao = s.kao := rfl
@[simp] theorem State.setReg_sealPort (o v : Nat) : (s.setReg o v).sealPort = s.sealPort := rfl
@[simp] theorem State.setReg_erq (o v : Nat) : (s.setReg o v).erq = s.erq := rfl
@[simp] theorem State.setReg_log (o v : Nat) : (s.setReg o v).log = s.log := rfl
@[simp] theorem State.setReg_logNext (o v : Nat) : (s.setReg o v).logNext = s.logNext := rfl
@[simp] theorem State.setReg_gov (o v : Nat) : (s.setReg o v).gov = s.gov := rfl
@[simp] theorem State.setReg_doms (o v : Nat) : (s.setReg o v).doms = s.doms := rfl
@[simp] theorem State.setReg_start (o v : Nat) : (s.setReg o v).start = s.start := rfl
@[simp] theorem State.setReg_blend (o v : Nat) : (s.setReg o v).blend = s.blend := rfl
@[simp] theorem State.setReg_repairs (o v : Nat) : (s.setReg o v).repairs = s.repairs := rfl
@[simp] theorem State.setReg_oob (o v : Nat) : (s.setReg o v).oob = s.oob := rfl
@[simp] theorem State.setReg_spdm (o v : Nat) : (s.setReg o v).spdm = s.spdm := rfl
@[simp] theorem State.setReg_msix (o v : Nat) : (s.setReg o v).msix = s.msix := rfl
@[simp] theorem State.setReg_d3hot (o v : Nat) : (s.setReg o v).d3hot = s.d3hot := rfl
@[simp] theorem State.setReg_pcieUp (o v : Nat) : (s.setReg o v).pcieUp = s.pcieUp := rfl
@[simp] theorem State.setReg_pkgLevel (o v : Nat) : (s.setReg o v).pkgLevel = s.pkgLevel := rfl
@[simp] theorem State.setReg_rptSeq (o v : Nat) : (s.setReg o v).rptSeq = s.rptSeq := rfl
@[simp] theorem State.setReg_cfgReject (o v : Nat) : (s.setReg o v).cfgReject = s.cfgReject := rfl
@[simp] theorem State.setReg_victims (o v : Nat) : (s.setReg o v).victims = s.victims := rfl
@[simp] theorem State.setReg_raised (o v : Nat) : (s.setReg o v).raised = s.raised := rfl
@[simp] theorem State.setReg_outbox (o v : Nat) : (s.setReg o v).outbox = s.outbox := rfl
@[simp] theorem State.setReg_draws (o v : Nat) : (s.setReg o v).draws = s.draws := rfl

/-! setFld writes regs. -/
@[simp] theorem State.setFld_pending (o l w v : Nat) : (s.setFld o l w v).pending = s.pending := rfl
@[simp] theorem State.setFld_clk (o l w v : Nat) : (s.setFld o l w v).clk = s.clk := rfl
@[simp] theorem State.setFld_mem (o l w v : Nat) : (s.setFld o l w v).mem = s.mem := rfl
@[simp] theorem State.setFld_sweep (o l w v : Nat) : (s.setFld o l w v).sweep = s.sweep := rfl
@[simp] theorem State.setFld_cfg (o l w v : Nat) : (s.setFld o l w v).cfg = s.cfg := rfl
@[simp] theorem State.setFld_shadows (o l w v : Nat) : (s.setFld o l w v).shadows = s.shadows := rfl
@[simp] theorem State.setFld_capture (o l w v : Nat) : (s.setFld o l w v).capture = s.capture := rfl
@[simp] theorem State.setFld_dies (o l w v : Nat) : (s.setFld o l w v).dies = s.dies := rfl
@[simp] theorem State.setFld_pes (o l w v : Nat) : (s.setFld o l w v).pes = s.pes := rfl
@[simp] theorem State.setFld_lanes (o l w v : Nat) : (s.setFld o l w v).lanes = s.lanes := rfl
@[simp] theorem State.setFld_sets (o l w v : Nat) : (s.setFld o l w v).sets = s.sets := rfl
@[simp] theorem State.setFld_istore (o l w v : Nat) : (s.setFld o l w v).istore = s.istore := rfl
@[simp] theorem State.setFld_graphs (o l w v : Nat) : (s.setFld o l w v).graphs = s.graphs := rfl
@[simp] theorem State.setFld_queues (o l w v : Nat) : (s.setFld o l w v).queues = s.queues := rfl
@[simp] theorem State.setFld_links (o l w v : Nat) : (s.setFld o l w v).links = s.links := rfl
@[simp] theorem State.setFld_dirs (o l w v : Nat) : (s.setFld o l w v).dirs = s.dirs := rfl
@[simp] theorem State.setFld_banks (o l w v : Nat) : (s.setFld o l w v).banks = s.banks := rfl
@[simp] theorem State.setFld_latches (o l w v : Nat) : (s.setFld o l w v).latches = s.latches := rfl
@[simp] theorem State.setFld_units (o l w v : Nat) : (s.setFld o l w v).units = s.units := rfl
@[simp] theorem State.setFld_nextUnit (o l w v : Nat) : (s.setFld o l w v).nextUnit = s.nextUnit := rfl
@[simp] theorem State.setFld_chans (o l w v : Nat) : (s.setFld o l w v).chans = s.chans := rfl
@[simp] theorem State.setFld_lastGrant (o l w v : Nat) : (s.setFld o l w v).lastGrant = s.lastGrant := rfl
@[simp] theorem State.setFld_ports (o l w v : Nat) : (s.setFld o l w v).ports = s.ports := rfl
@[simp] theorem State.setFld_tws (o l w v : Nat) : (s.setFld o l w v).tws = s.tws := rfl
@[simp] theorem State.setFld_qps (o l w v : Nat) : (s.setFld o l w v).qps = s.qps := rfl
@[simp] theorem State.setFld_ce (o l w v : Nat) : (s.setFld o l w v).ce = s.ce := rfl
@[simp] theorem State.setFld_kao (o l w v : Nat) : (s.setFld o l w v).kao = s.kao := rfl
@[simp] theorem State.setFld_sealPort (o l w v : Nat) : (s.setFld o l w v).sealPort = s.sealPort := rfl
@[simp] theorem State.setFld_erq (o l w v : Nat) : (s.setFld o l w v).erq = s.erq := rfl
@[simp] theorem State.setFld_log (o l w v : Nat) : (s.setFld o l w v).log = s.log := rfl
@[simp] theorem State.setFld_logNext (o l w v : Nat) : (s.setFld o l w v).logNext = s.logNext := rfl
@[simp] theorem State.setFld_gov (o l w v : Nat) : (s.setFld o l w v).gov = s.gov := rfl
@[simp] theorem State.setFld_doms (o l w v : Nat) : (s.setFld o l w v).doms = s.doms := rfl
@[simp] theorem State.setFld_start (o l w v : Nat) : (s.setFld o l w v).start = s.start := rfl
@[simp] theorem State.setFld_blend (o l w v : Nat) : (s.setFld o l w v).blend = s.blend := rfl
@[simp] theorem State.setFld_repairs (o l w v : Nat) : (s.setFld o l w v).repairs = s.repairs := rfl
@[simp] theorem State.setFld_oob (o l w v : Nat) : (s.setFld o l w v).oob = s.oob := rfl
@[simp] theorem State.setFld_spdm (o l w v : Nat) : (s.setFld o l w v).spdm = s.spdm := rfl
@[simp] theorem State.setFld_msix (o l w v : Nat) : (s.setFld o l w v).msix = s.msix := rfl
@[simp] theorem State.setFld_d3hot (o l w v : Nat) : (s.setFld o l w v).d3hot = s.d3hot := rfl
@[simp] theorem State.setFld_pcieUp (o l w v : Nat) : (s.setFld o l w v).pcieUp = s.pcieUp := rfl
@[simp] theorem State.setFld_pkgLevel (o l w v : Nat) : (s.setFld o l w v).pkgLevel = s.pkgLevel := rfl
@[simp] theorem State.setFld_rptSeq (o l w v : Nat) : (s.setFld o l w v).rptSeq = s.rptSeq := rfl
@[simp] theorem State.setFld_cfgReject (o l w v : Nat) : (s.setFld o l w v).cfgReject = s.cfgReject := rfl
@[simp] theorem State.setFld_victims (o l w v : Nat) : (s.setFld o l w v).victims = s.victims := rfl
@[simp] theorem State.setFld_raised (o l w v : Nat) : (s.setFld o l w v).raised = s.raised := rfl
@[simp] theorem State.setFld_outbox (o l w v : Nat) : (s.setFld o l w v).outbox = s.outbox := rfl
@[simp] theorem State.setFld_draws (o l w v : Nat) : (s.setFld o l w v).draws = s.draws := rfl

/-! bump writes regs. -/
@[simp] theorem State.bump_pending (o l w v : Nat) : (s.bump o l w v).pending = s.pending := rfl
@[simp] theorem State.bump_clk (o l w v : Nat) : (s.bump o l w v).clk = s.clk := rfl
@[simp] theorem State.bump_mem (o l w v : Nat) : (s.bump o l w v).mem = s.mem := rfl
@[simp] theorem State.bump_sweep (o l w v : Nat) : (s.bump o l w v).sweep = s.sweep := rfl
@[simp] theorem State.bump_cfg (o l w v : Nat) : (s.bump o l w v).cfg = s.cfg := rfl
@[simp] theorem State.bump_shadows (o l w v : Nat) : (s.bump o l w v).shadows = s.shadows := rfl
@[simp] theorem State.bump_capture (o l w v : Nat) : (s.bump o l w v).capture = s.capture := rfl
@[simp] theorem State.bump_dies (o l w v : Nat) : (s.bump o l w v).dies = s.dies := rfl
@[simp] theorem State.bump_pes (o l w v : Nat) : (s.bump o l w v).pes = s.pes := rfl
@[simp] theorem State.bump_lanes (o l w v : Nat) : (s.bump o l w v).lanes = s.lanes := rfl
@[simp] theorem State.bump_sets (o l w v : Nat) : (s.bump o l w v).sets = s.sets := rfl
@[simp] theorem State.bump_istore (o l w v : Nat) : (s.bump o l w v).istore = s.istore := rfl
@[simp] theorem State.bump_graphs (o l w v : Nat) : (s.bump o l w v).graphs = s.graphs := rfl
@[simp] theorem State.bump_queues (o l w v : Nat) : (s.bump o l w v).queues = s.queues := rfl
@[simp] theorem State.bump_links (o l w v : Nat) : (s.bump o l w v).links = s.links := rfl
@[simp] theorem State.bump_dirs (o l w v : Nat) : (s.bump o l w v).dirs = s.dirs := rfl
@[simp] theorem State.bump_banks (o l w v : Nat) : (s.bump o l w v).banks = s.banks := rfl
@[simp] theorem State.bump_latches (o l w v : Nat) : (s.bump o l w v).latches = s.latches := rfl
@[simp] theorem State.bump_units (o l w v : Nat) : (s.bump o l w v).units = s.units := rfl
@[simp] theorem State.bump_nextUnit (o l w v : Nat) : (s.bump o l w v).nextUnit = s.nextUnit := rfl
@[simp] theorem State.bump_chans (o l w v : Nat) : (s.bump o l w v).chans = s.chans := rfl
@[simp] theorem State.bump_lastGrant (o l w v : Nat) : (s.bump o l w v).lastGrant = s.lastGrant := rfl
@[simp] theorem State.bump_ports (o l w v : Nat) : (s.bump o l w v).ports = s.ports := rfl
@[simp] theorem State.bump_tws (o l w v : Nat) : (s.bump o l w v).tws = s.tws := rfl
@[simp] theorem State.bump_qps (o l w v : Nat) : (s.bump o l w v).qps = s.qps := rfl
@[simp] theorem State.bump_ce (o l w v : Nat) : (s.bump o l w v).ce = s.ce := rfl
@[simp] theorem State.bump_kao (o l w v : Nat) : (s.bump o l w v).kao = s.kao := rfl
@[simp] theorem State.bump_sealPort (o l w v : Nat) : (s.bump o l w v).sealPort = s.sealPort := rfl
@[simp] theorem State.bump_erq (o l w v : Nat) : (s.bump o l w v).erq = s.erq := rfl
@[simp] theorem State.bump_log (o l w v : Nat) : (s.bump o l w v).log = s.log := rfl
@[simp] theorem State.bump_logNext (o l w v : Nat) : (s.bump o l w v).logNext = s.logNext := rfl
@[simp] theorem State.bump_gov (o l w v : Nat) : (s.bump o l w v).gov = s.gov := rfl
@[simp] theorem State.bump_doms (o l w v : Nat) : (s.bump o l w v).doms = s.doms := rfl
@[simp] theorem State.bump_start (o l w v : Nat) : (s.bump o l w v).start = s.start := rfl
@[simp] theorem State.bump_blend (o l w v : Nat) : (s.bump o l w v).blend = s.blend := rfl
@[simp] theorem State.bump_repairs (o l w v : Nat) : (s.bump o l w v).repairs = s.repairs := rfl
@[simp] theorem State.bump_oob (o l w v : Nat) : (s.bump o l w v).oob = s.oob := rfl
@[simp] theorem State.bump_spdm (o l w v : Nat) : (s.bump o l w v).spdm = s.spdm := rfl
@[simp] theorem State.bump_msix (o l w v : Nat) : (s.bump o l w v).msix = s.msix := rfl
@[simp] theorem State.bump_d3hot (o l w v : Nat) : (s.bump o l w v).d3hot = s.d3hot := rfl
@[simp] theorem State.bump_pcieUp (o l w v : Nat) : (s.bump o l w v).pcieUp = s.pcieUp := rfl
@[simp] theorem State.bump_pkgLevel (o l w v : Nat) : (s.bump o l w v).pkgLevel = s.pkgLevel := rfl
@[simp] theorem State.bump_rptSeq (o l w v : Nat) : (s.bump o l w v).rptSeq = s.rptSeq := rfl
@[simp] theorem State.bump_cfgReject (o l w v : Nat) : (s.bump o l w v).cfgReject = s.cfgReject := rfl
@[simp] theorem State.bump_victims (o l w v : Nat) : (s.bump o l w v).victims = s.victims := rfl
@[simp] theorem State.bump_raised (o l w v : Nat) : (s.bump o l w v).raised = s.raised := rfl
@[simp] theorem State.bump_outbox (o l w v : Nat) : (s.bump o l w v).outbox = s.outbox := rfl
@[simp] theorem State.bump_draws (o l w v : Nat) : (s.bump o l w v).draws = s.draws := rfl

/-! wr writes mem. -/
@[simp] theorem State.wr_pending (a : Nat) (w : PWord) : (s.wr a w).pending = s.pending := rfl
@[simp] theorem State.wr_clk (a : Nat) (w : PWord) : (s.wr a w).clk = s.clk := rfl
@[simp] theorem State.wr_regs (a : Nat) (w : PWord) : (s.wr a w).regs = s.regs := rfl
@[simp] theorem State.wr_sweep (a : Nat) (w : PWord) : (s.wr a w).sweep = s.sweep := rfl
@[simp] theorem State.wr_cfg (a : Nat) (w : PWord) : (s.wr a w).cfg = s.cfg := rfl
@[simp] theorem State.wr_shadows (a : Nat) (w : PWord) : (s.wr a w).shadows = s.shadows := rfl
@[simp] theorem State.wr_capture (a : Nat) (w : PWord) : (s.wr a w).capture = s.capture := rfl
@[simp] theorem State.wr_dies (a : Nat) (w : PWord) : (s.wr a w).dies = s.dies := rfl
@[simp] theorem State.wr_pes (a : Nat) (w : PWord) : (s.wr a w).pes = s.pes := rfl
@[simp] theorem State.wr_lanes (a : Nat) (w : PWord) : (s.wr a w).lanes = s.lanes := rfl
@[simp] theorem State.wr_sets (a : Nat) (w : PWord) : (s.wr a w).sets = s.sets := rfl
@[simp] theorem State.wr_istore (a : Nat) (w : PWord) : (s.wr a w).istore = s.istore := rfl
@[simp] theorem State.wr_graphs (a : Nat) (w : PWord) : (s.wr a w).graphs = s.graphs := rfl
@[simp] theorem State.wr_queues (a : Nat) (w : PWord) : (s.wr a w).queues = s.queues := rfl
@[simp] theorem State.wr_links (a : Nat) (w : PWord) : (s.wr a w).links = s.links := rfl
@[simp] theorem State.wr_dirs (a : Nat) (w : PWord) : (s.wr a w).dirs = s.dirs := rfl
@[simp] theorem State.wr_banks (a : Nat) (w : PWord) : (s.wr a w).banks = s.banks := rfl
@[simp] theorem State.wr_latches (a : Nat) (w : PWord) : (s.wr a w).latches = s.latches := rfl
@[simp] theorem State.wr_units (a : Nat) (w : PWord) : (s.wr a w).units = s.units := rfl
@[simp] theorem State.wr_nextUnit (a : Nat) (w : PWord) : (s.wr a w).nextUnit = s.nextUnit := rfl
@[simp] theorem State.wr_chans (a : Nat) (w : PWord) : (s.wr a w).chans = s.chans := rfl
@[simp] theorem State.wr_lastGrant (a : Nat) (w : PWord) : (s.wr a w).lastGrant = s.lastGrant := rfl
@[simp] theorem State.wr_ports (a : Nat) (w : PWord) : (s.wr a w).ports = s.ports := rfl
@[simp] theorem State.wr_tws (a : Nat) (w : PWord) : (s.wr a w).tws = s.tws := rfl
@[simp] theorem State.wr_qps (a : Nat) (w : PWord) : (s.wr a w).qps = s.qps := rfl
@[simp] theorem State.wr_ce (a : Nat) (w : PWord) : (s.wr a w).ce = s.ce := rfl
@[simp] theorem State.wr_kao (a : Nat) (w : PWord) : (s.wr a w).kao = s.kao := rfl
@[simp] theorem State.wr_sealPort (a : Nat) (w : PWord) : (s.wr a w).sealPort = s.sealPort := rfl
@[simp] theorem State.wr_erq (a : Nat) (w : PWord) : (s.wr a w).erq = s.erq := rfl
@[simp] theorem State.wr_log (a : Nat) (w : PWord) : (s.wr a w).log = s.log := rfl
@[simp] theorem State.wr_logNext (a : Nat) (w : PWord) : (s.wr a w).logNext = s.logNext := rfl
@[simp] theorem State.wr_gov (a : Nat) (w : PWord) : (s.wr a w).gov = s.gov := rfl
@[simp] theorem State.wr_doms (a : Nat) (w : PWord) : (s.wr a w).doms = s.doms := rfl
@[simp] theorem State.wr_start (a : Nat) (w : PWord) : (s.wr a w).start = s.start := rfl
@[simp] theorem State.wr_blend (a : Nat) (w : PWord) : (s.wr a w).blend = s.blend := rfl
@[simp] theorem State.wr_repairs (a : Nat) (w : PWord) : (s.wr a w).repairs = s.repairs := rfl
@[simp] theorem State.wr_oob (a : Nat) (w : PWord) : (s.wr a w).oob = s.oob := rfl
@[simp] theorem State.wr_spdm (a : Nat) (w : PWord) : (s.wr a w).spdm = s.spdm := rfl
@[simp] theorem State.wr_msix (a : Nat) (w : PWord) : (s.wr a w).msix = s.msix := rfl
@[simp] theorem State.wr_d3hot (a : Nat) (w : PWord) : (s.wr a w).d3hot = s.d3hot := rfl
@[simp] theorem State.wr_pcieUp (a : Nat) (w : PWord) : (s.wr a w).pcieUp = s.pcieUp := rfl
@[simp] theorem State.wr_pkgLevel (a : Nat) (w : PWord) : (s.wr a w).pkgLevel = s.pkgLevel := rfl
@[simp] theorem State.wr_rptSeq (a : Nat) (w : PWord) : (s.wr a w).rptSeq = s.rptSeq := rfl
@[simp] theorem State.wr_cfgReject (a : Nat) (w : PWord) : (s.wr a w).cfgReject = s.cfgReject := rfl
@[simp] theorem State.wr_victims (a : Nat) (w : PWord) : (s.wr a w).victims = s.victims := rfl
@[simp] theorem State.wr_raised (a : Nat) (w : PWord) : (s.wr a w).raised = s.raised := rfl
@[simp] theorem State.wr_outbox (a : Nat) (w : PWord) : (s.wr a w).outbox = s.outbox := rfl
@[simp] theorem State.wr_draws (a : Nat) (w : PWord) : (s.wr a w).draws = s.draws := rfl

/-! err writes raised. -/
@[simp] theorem State.err_pending (a b c d e f g h i : Nat) : (s.err a b c d e f g h i).pending = s.pending := rfl
@[simp] theorem State.err_clk (a b c d e f g h i : Nat) : (s.err a b c d e f g h i).clk = s.clk := rfl
@[simp] theorem State.err_mem (a b c d e f g h i : Nat) : (s.err a b c d e f g h i).mem = s.mem := rfl
@[simp] theorem State.err_sweep (a b c d e f g h i : Nat) : (s.err a b c d e f g h i).sweep = s.sweep := rfl
@[simp] theorem State.err_cfg (a b c d e f g h i : Nat) : (s.err a b c d e f g h i).cfg = s.cfg := rfl
@[simp] theorem State.err_regs (a b c d e f g h i : Nat) : (s.err a b c d e f g h i).regs = s.regs := rfl
@[simp] theorem State.err_shadows (a b c d e f g h i : Nat) : (s.err a b c d e f g h i).shadows = s.shadows := rfl
@[simp] theorem State.err_capture (a b c d e f g h i : Nat) : (s.err a b c d e f g h i).capture = s.capture := rfl
@[simp] theorem State.err_dies (a b c d e f g h i : Nat) : (s.err a b c d e f g h i).dies = s.dies := rfl
@[simp] theorem State.err_pes (a b c d e f g h i : Nat) : (s.err a b c d e f g h i).pes = s.pes := rfl
@[simp] theorem State.err_lanes (a b c d e f g h i : Nat) : (s.err a b c d e f g h i).lanes = s.lanes := rfl
@[simp] theorem State.err_sets (a b c d e f g h i : Nat) : (s.err a b c d e f g h i).sets = s.sets := rfl
@[simp] theorem State.err_istore (a b c d e f g h i : Nat) : (s.err a b c d e f g h i).istore = s.istore := rfl
@[simp] theorem State.err_graphs (a b c d e f g h i : Nat) : (s.err a b c d e f g h i).graphs = s.graphs := rfl
@[simp] theorem State.err_queues (a b c d e f g h i : Nat) : (s.err a b c d e f g h i).queues = s.queues := rfl
@[simp] theorem State.err_links (a b c d e f g h i : Nat) : (s.err a b c d e f g h i).links = s.links := rfl
@[simp] theorem State.err_dirs (a b c d e f g h i : Nat) : (s.err a b c d e f g h i).dirs = s.dirs := rfl
@[simp] theorem State.err_banks (a b c d e f g h i : Nat) : (s.err a b c d e f g h i).banks = s.banks := rfl
@[simp] theorem State.err_latches (a b c d e f g h i : Nat) : (s.err a b c d e f g h i).latches = s.latches := rfl
@[simp] theorem State.err_units (a b c d e f g h i : Nat) : (s.err a b c d e f g h i).units = s.units := rfl
@[simp] theorem State.err_nextUnit (a b c d e f g h i : Nat) : (s.err a b c d e f g h i).nextUnit = s.nextUnit := rfl
@[simp] theorem State.err_chans (a b c d e f g h i : Nat) : (s.err a b c d e f g h i).chans = s.chans := rfl
@[simp] theorem State.err_lastGrant (a b c d e f g h i : Nat) : (s.err a b c d e f g h i).lastGrant = s.lastGrant := rfl
@[simp] theorem State.err_ports (a b c d e f g h i : Nat) : (s.err a b c d e f g h i).ports = s.ports := rfl
@[simp] theorem State.err_tws (a b c d e f g h i : Nat) : (s.err a b c d e f g h i).tws = s.tws := rfl
@[simp] theorem State.err_qps (a b c d e f g h i : Nat) : (s.err a b c d e f g h i).qps = s.qps := rfl
@[simp] theorem State.err_ce (a b c d e f g h i : Nat) : (s.err a b c d e f g h i).ce = s.ce := rfl
@[simp] theorem State.err_kao (a b c d e f g h i : Nat) : (s.err a b c d e f g h i).kao = s.kao := rfl
@[simp] theorem State.err_sealPort (a b c d e f g h i : Nat) : (s.err a b c d e f g h i).sealPort = s.sealPort := rfl
@[simp] theorem State.err_erq (a b c d e f g h i : Nat) : (s.err a b c d e f g h i).erq = s.erq := rfl
@[simp] theorem State.err_log (a b c d e f g h i : Nat) : (s.err a b c d e f g h i).log = s.log := rfl
@[simp] theorem State.err_logNext (a b c d e f g h i : Nat) : (s.err a b c d e f g h i).logNext = s.logNext := rfl
@[simp] theorem State.err_gov (a b c d e f g h i : Nat) : (s.err a b c d e f g h i).gov = s.gov := rfl
@[simp] theorem State.err_doms (a b c d e f g h i : Nat) : (s.err a b c d e f g h i).doms = s.doms := rfl
@[simp] theorem State.err_start (a b c d e f g h i : Nat) : (s.err a b c d e f g h i).start = s.start := rfl
@[simp] theorem State.err_blend (a b c d e f g h i : Nat) : (s.err a b c d e f g h i).blend = s.blend := rfl
@[simp] theorem State.err_repairs (a b c d e f g h i : Nat) : (s.err a b c d e f g h i).repairs = s.repairs := rfl
@[simp] theorem State.err_oob (a b c d e f g h i : Nat) : (s.err a b c d e f g h i).oob = s.oob := rfl
@[simp] theorem State.err_spdm (a b c d e f g h i : Nat) : (s.err a b c d e f g h i).spdm = s.spdm := rfl
@[simp] theorem State.err_msix (a b c d e f g h i : Nat) : (s.err a b c d e f g h i).msix = s.msix := rfl
@[simp] theorem State.err_d3hot (a b c d e f g h i : Nat) : (s.err a b c d e f g h i).d3hot = s.d3hot := rfl
@[simp] theorem State.err_pcieUp (a b c d e f g h i : Nat) : (s.err a b c d e f g h i).pcieUp = s.pcieUp := rfl
@[simp] theorem State.err_pkgLevel (a b c d e f g h i : Nat) : (s.err a b c d e f g h i).pkgLevel = s.pkgLevel := rfl
@[simp] theorem State.err_rptSeq (a b c d e f g h i : Nat) : (s.err a b c d e f g h i).rptSeq = s.rptSeq := rfl
@[simp] theorem State.err_cfgReject (a b c d e f g h i : Nat) : (s.err a b c d e f g h i).cfgReject = s.cfgReject := rfl
@[simp] theorem State.err_victims (a b c d e f g h i : Nat) : (s.err a b c d e f g h i).victims = s.victims := rfl
@[simp] theorem State.err_outbox (a b c d e f g h i : Nat) : (s.err a b c d e f g h i).outbox = s.outbox := rfl
@[simp] theorem State.err_draws (a b c d e f g h i : Nat) : (s.err a b c d e f g h i).draws = s.draws := rfl

/-! event writes raised. -/
@[simp] theorem State.event_pending (a b c d e f : Nat) : (s.event a b c d e f).pending = s.pending := rfl
@[simp] theorem State.event_clk (a b c d e f : Nat) : (s.event a b c d e f).clk = s.clk := rfl
@[simp] theorem State.event_mem (a b c d e f : Nat) : (s.event a b c d e f).mem = s.mem := rfl
@[simp] theorem State.event_sweep (a b c d e f : Nat) : (s.event a b c d e f).sweep = s.sweep := rfl
@[simp] theorem State.event_cfg (a b c d e f : Nat) : (s.event a b c d e f).cfg = s.cfg := rfl
@[simp] theorem State.event_regs (a b c d e f : Nat) : (s.event a b c d e f).regs = s.regs := rfl
@[simp] theorem State.event_shadows (a b c d e f : Nat) : (s.event a b c d e f).shadows = s.shadows := rfl
@[simp] theorem State.event_capture (a b c d e f : Nat) : (s.event a b c d e f).capture = s.capture := rfl
@[simp] theorem State.event_dies (a b c d e f : Nat) : (s.event a b c d e f).dies = s.dies := rfl
@[simp] theorem State.event_pes (a b c d e f : Nat) : (s.event a b c d e f).pes = s.pes := rfl
@[simp] theorem State.event_lanes (a b c d e f : Nat) : (s.event a b c d e f).lanes = s.lanes := rfl
@[simp] theorem State.event_sets (a b c d e f : Nat) : (s.event a b c d e f).sets = s.sets := rfl
@[simp] theorem State.event_istore (a b c d e f : Nat) : (s.event a b c d e f).istore = s.istore := rfl
@[simp] theorem State.event_graphs (a b c d e f : Nat) : (s.event a b c d e f).graphs = s.graphs := rfl
@[simp] theorem State.event_queues (a b c d e f : Nat) : (s.event a b c d e f).queues = s.queues := rfl
@[simp] theorem State.event_links (a b c d e f : Nat) : (s.event a b c d e f).links = s.links := rfl
@[simp] theorem State.event_dirs (a b c d e f : Nat) : (s.event a b c d e f).dirs = s.dirs := rfl
@[simp] theorem State.event_banks (a b c d e f : Nat) : (s.event a b c d e f).banks = s.banks := rfl
@[simp] theorem State.event_latches (a b c d e f : Nat) : (s.event a b c d e f).latches = s.latches := rfl
@[simp] theorem State.event_units (a b c d e f : Nat) : (s.event a b c d e f).units = s.units := rfl
@[simp] theorem State.event_nextUnit (a b c d e f : Nat) : (s.event a b c d e f).nextUnit = s.nextUnit := rfl
@[simp] theorem State.event_chans (a b c d e f : Nat) : (s.event a b c d e f).chans = s.chans := rfl
@[simp] theorem State.event_lastGrant (a b c d e f : Nat) : (s.event a b c d e f).lastGrant = s.lastGrant := rfl
@[simp] theorem State.event_ports (a b c d e f : Nat) : (s.event a b c d e f).ports = s.ports := rfl
@[simp] theorem State.event_tws (a b c d e f : Nat) : (s.event a b c d e f).tws = s.tws := rfl
@[simp] theorem State.event_qps (a b c d e f : Nat) : (s.event a b c d e f).qps = s.qps := rfl
@[simp] theorem State.event_ce (a b c d e f : Nat) : (s.event a b c d e f).ce = s.ce := rfl
@[simp] theorem State.event_kao (a b c d e f : Nat) : (s.event a b c d e f).kao = s.kao := rfl
@[simp] theorem State.event_sealPort (a b c d e f : Nat) : (s.event a b c d e f).sealPort = s.sealPort := rfl
@[simp] theorem State.event_erq (a b c d e f : Nat) : (s.event a b c d e f).erq = s.erq := rfl
@[simp] theorem State.event_log (a b c d e f : Nat) : (s.event a b c d e f).log = s.log := rfl
@[simp] theorem State.event_logNext (a b c d e f : Nat) : (s.event a b c d e f).logNext = s.logNext := rfl
@[simp] theorem State.event_gov (a b c d e f : Nat) : (s.event a b c d e f).gov = s.gov := rfl
@[simp] theorem State.event_doms (a b c d e f : Nat) : (s.event a b c d e f).doms = s.doms := rfl
@[simp] theorem State.event_start (a b c d e f : Nat) : (s.event a b c d e f).start = s.start := rfl
@[simp] theorem State.event_blend (a b c d e f : Nat) : (s.event a b c d e f).blend = s.blend := rfl
@[simp] theorem State.event_repairs (a b c d e f : Nat) : (s.event a b c d e f).repairs = s.repairs := rfl
@[simp] theorem State.event_oob (a b c d e f : Nat) : (s.event a b c d e f).oob = s.oob := rfl
@[simp] theorem State.event_spdm (a b c d e f : Nat) : (s.event a b c d e f).spdm = s.spdm := rfl
@[simp] theorem State.event_msix (a b c d e f : Nat) : (s.event a b c d e f).msix = s.msix := rfl
@[simp] theorem State.event_d3hot (a b c d e f : Nat) : (s.event a b c d e f).d3hot = s.d3hot := rfl
@[simp] theorem State.event_pcieUp (a b c d e f : Nat) : (s.event a b c d e f).pcieUp = s.pcieUp := rfl
@[simp] theorem State.event_pkgLevel (a b c d e f : Nat) : (s.event a b c d e f).pkgLevel = s.pkgLevel := rfl
@[simp] theorem State.event_rptSeq (a b c d e f : Nat) : (s.event a b c d e f).rptSeq = s.rptSeq := rfl
@[simp] theorem State.event_cfgReject (a b c d e f : Nat) : (s.event a b c d e f).cfgReject = s.cfgReject := rfl
@[simp] theorem State.event_victims (a b c d e f : Nat) : (s.event a b c d e f).victims = s.victims := rfl
@[simp] theorem State.event_outbox (a b c d e f : Nat) : (s.event a b c d e f).outbox = s.outbox := rfl
@[simp] theorem State.event_draws (a b c d e f : Nat) : (s.event a b c d e f).draws = s.draws := rfl

/-! unreported writes raised. -/
@[simp] theorem State.unreported_pending (a b c d e f : Nat) : (s.unreported a b c d e f).pending = s.pending := rfl
@[simp] theorem State.unreported_clk (a b c d e f : Nat) : (s.unreported a b c d e f).clk = s.clk := rfl
@[simp] theorem State.unreported_mem (a b c d e f : Nat) : (s.unreported a b c d e f).mem = s.mem := rfl
@[simp] theorem State.unreported_sweep (a b c d e f : Nat) : (s.unreported a b c d e f).sweep = s.sweep := rfl
@[simp] theorem State.unreported_cfg (a b c d e f : Nat) : (s.unreported a b c d e f).cfg = s.cfg := rfl
@[simp] theorem State.unreported_regs (a b c d e f : Nat) : (s.unreported a b c d e f).regs = s.regs := rfl
@[simp] theorem State.unreported_shadows (a b c d e f : Nat) : (s.unreported a b c d e f).shadows = s.shadows := rfl
@[simp] theorem State.unreported_capture (a b c d e f : Nat) : (s.unreported a b c d e f).capture = s.capture := rfl
@[simp] theorem State.unreported_dies (a b c d e f : Nat) : (s.unreported a b c d e f).dies = s.dies := rfl
@[simp] theorem State.unreported_pes (a b c d e f : Nat) : (s.unreported a b c d e f).pes = s.pes := rfl
@[simp] theorem State.unreported_lanes (a b c d e f : Nat) : (s.unreported a b c d e f).lanes = s.lanes := rfl
@[simp] theorem State.unreported_sets (a b c d e f : Nat) : (s.unreported a b c d e f).sets = s.sets := rfl
@[simp] theorem State.unreported_istore (a b c d e f : Nat) : (s.unreported a b c d e f).istore = s.istore := rfl
@[simp] theorem State.unreported_graphs (a b c d e f : Nat) : (s.unreported a b c d e f).graphs = s.graphs := rfl
@[simp] theorem State.unreported_queues (a b c d e f : Nat) : (s.unreported a b c d e f).queues = s.queues := rfl
@[simp] theorem State.unreported_links (a b c d e f : Nat) : (s.unreported a b c d e f).links = s.links := rfl
@[simp] theorem State.unreported_dirs (a b c d e f : Nat) : (s.unreported a b c d e f).dirs = s.dirs := rfl
@[simp] theorem State.unreported_banks (a b c d e f : Nat) : (s.unreported a b c d e f).banks = s.banks := rfl
@[simp] theorem State.unreported_latches (a b c d e f : Nat) : (s.unreported a b c d e f).latches = s.latches := rfl
@[simp] theorem State.unreported_units (a b c d e f : Nat) : (s.unreported a b c d e f).units = s.units := rfl
@[simp] theorem State.unreported_nextUnit (a b c d e f : Nat) : (s.unreported a b c d e f).nextUnit = s.nextUnit := rfl
@[simp] theorem State.unreported_chans (a b c d e f : Nat) : (s.unreported a b c d e f).chans = s.chans := rfl
@[simp] theorem State.unreported_lastGrant (a b c d e f : Nat) : (s.unreported a b c d e f).lastGrant = s.lastGrant := rfl
@[simp] theorem State.unreported_ports (a b c d e f : Nat) : (s.unreported a b c d e f).ports = s.ports := rfl
@[simp] theorem State.unreported_tws (a b c d e f : Nat) : (s.unreported a b c d e f).tws = s.tws := rfl
@[simp] theorem State.unreported_qps (a b c d e f : Nat) : (s.unreported a b c d e f).qps = s.qps := rfl
@[simp] theorem State.unreported_ce (a b c d e f : Nat) : (s.unreported a b c d e f).ce = s.ce := rfl
@[simp] theorem State.unreported_kao (a b c d e f : Nat) : (s.unreported a b c d e f).kao = s.kao := rfl
@[simp] theorem State.unreported_sealPort (a b c d e f : Nat) : (s.unreported a b c d e f).sealPort = s.sealPort := rfl
@[simp] theorem State.unreported_erq (a b c d e f : Nat) : (s.unreported a b c d e f).erq = s.erq := rfl
@[simp] theorem State.unreported_log (a b c d e f : Nat) : (s.unreported a b c d e f).log = s.log := rfl
@[simp] theorem State.unreported_logNext (a b c d e f : Nat) : (s.unreported a b c d e f).logNext = s.logNext := rfl
@[simp] theorem State.unreported_gov (a b c d e f : Nat) : (s.unreported a b c d e f).gov = s.gov := rfl
@[simp] theorem State.unreported_doms (a b c d e f : Nat) : (s.unreported a b c d e f).doms = s.doms := rfl
@[simp] theorem State.unreported_start (a b c d e f : Nat) : (s.unreported a b c d e f).start = s.start := rfl
@[simp] theorem State.unreported_blend (a b c d e f : Nat) : (s.unreported a b c d e f).blend = s.blend := rfl
@[simp] theorem State.unreported_repairs (a b c d e f : Nat) : (s.unreported a b c d e f).repairs = s.repairs := rfl
@[simp] theorem State.unreported_oob (a b c d e f : Nat) : (s.unreported a b c d e f).oob = s.oob := rfl
@[simp] theorem State.unreported_spdm (a b c d e f : Nat) : (s.unreported a b c d e f).spdm = s.spdm := rfl
@[simp] theorem State.unreported_msix (a b c d e f : Nat) : (s.unreported a b c d e f).msix = s.msix := rfl
@[simp] theorem State.unreported_d3hot (a b c d e f : Nat) : (s.unreported a b c d e f).d3hot = s.d3hot := rfl
@[simp] theorem State.unreported_pcieUp (a b c d e f : Nat) : (s.unreported a b c d e f).pcieUp = s.pcieUp := rfl
@[simp] theorem State.unreported_pkgLevel (a b c d e f : Nat) : (s.unreported a b c d e f).pkgLevel = s.pkgLevel := rfl
@[simp] theorem State.unreported_rptSeq (a b c d e f : Nat) : (s.unreported a b c d e f).rptSeq = s.rptSeq := rfl
@[simp] theorem State.unreported_cfgReject (a b c d e f : Nat) : (s.unreported a b c d e f).cfgReject = s.cfgReject := rfl
@[simp] theorem State.unreported_victims (a b c d e f : Nat) : (s.unreported a b c d e f).victims = s.victims := rfl
@[simp] theorem State.unreported_outbox (a b c d e f : Nat) : (s.unreported a b c d e f).outbox = s.outbox := rfl
@[simp] theorem State.unreported_draws (a b c d e f : Nat) : (s.unreported a b c d e f).draws = s.draws := rfl

end Sys2Proof.Machine
end

