-- ==== Sys2Proof/Laws/Access.lean ====
section
/-! SUPPORT. What accesses to banks, waiting requests and clean sets do (R175, R229): the lemmas that later proofs cite in
place of unfolding. -/

namespace Sys2Proof.Machine

theorem foldl_eq_self {α β : Type} (f : β → α → β) (b : β) (l : List α) (h : ∀ a ∈ l, f b a = b) : l.foldl f b = b := by
  induction l with
  | nil => rfl
  | cons a l ih => simp only [List.foldl, h a (by simp)]; exact ih (fun x hx => h x (by simp [hx]))

theorem fst_mem_of_mem_zipIdx {α : Type} {l : List α} {p : α × Nat} (h : p ∈ l.zipIdx) : p.1 ∈ l := by
  obtain ⟨a, i⟩ := p
  have := List.mem_zipIdx h
  simp at this
  exact this.2 ▸ List.getElem_mem _

/-- The first element that satisfies a test, after elements that do not. -/
theorem takeFirst_append {α : Type} (p : α → Bool) : ∀ (b : List α) (u : α) (a : List α), p u = true →
    b.all (fun x => !p x) = true → takeFirst p (b ++ u :: a) = some (u, b ++ a)
  | [], u, a, hu, _ => by simp [takeFirst, hu]
  | x :: b, u, a, hu, hb => by
    simp at hb
    simp [takeFirst, hb.1]
    rw [takeFirst_append p b u a hu (by simpa using hb.2)]

/-- A bank that is On serves at once (R229). -/
theorem access_served {s : State} {b : Nat} (h : s.bankState b = 0) : s.access b = (s, .served) := by
  unfold State.access; simp [h]

theorem accessNow_served {s : State} {b : Nat} (h : s.bankState b = 0) : s.accessNow b = (s, false) := by
  unfold State.accessNow; rw [access_served h]

/-- A header read whose bank serves, or of a CID without a header. -/
theorem readHdr_served {s : State} {cid : Nat} (h : s.cdt cid = 0 ∨
    s.bankState (s.homeOf cid * 256 + (s.cdt cid - 1) / 131072) = 0) : s.readHdr cid = (s, s.hdr cid) := by
  unfold State.readHdr
  by_cases h0 : s.cdt cid = 0
  · simp [h0]
  · rcases h with h | h
    · exact absurd h h0
    · simp only [h0, if_false, accessNow_served h]

/-- A set whose valid ways have good tag parity is left as it is (R175). -/
theorem scrubSet_clean {s : State} {n set : Nat}
    (h : ∀ w ∈ (s.mset n set).ways, w.valid = true → w.badCid = false ∧ w.badTag = false) : s.scrubSet n set = s := by
  unfold State.scrubSet
  apply foldl_eq_self
  intro p hp
  by_cases hv : p.1.valid = true
  · obtain ⟨h1, h2⟩ := h _ (fst_mem_of_mem_zipIdx hp) hv; simp [hv, h1, h2]
  · simp [hv]

/-- Entries of a token's instance are valid ways of the set, as a read sees them. -/
theorem mem_entsOf {x : MsSet} {t : Token} {e : Ent} (h : e ∈ x.entsOf t) :
    e.inSet = true ∧ ∃ w ∈ x.ways, w.valid = true ∧ e.e = w.seen := by
  unfold MsSet.entsOf at h
  rw [List.mem_map] at h
  obtain ⟨p, hp, rfl⟩ := h
  rw [List.mem_filter] at hp
  have hv : p.1.valid = true := by
    have := hp.2; unfold MsEntry.isOf at this; simp at this; exact this.1.1.1
  exact ⟨rfl, p.1, fst_mem_of_mem_zipIdx hp.1, hv, rfl⟩

theorem seen_of_good {e : MsEntry} (h : e.badVal = false) : e.seen = e := by simp [MsEntry.seen, h]

theorem scrubVals_clean {s : State} {n set : Nat} {p : MsEntry → Bool}
    (h : ∀ w ∈ (s.mset n set).ways, w.valid = true → w.badVal = false) : s.scrubVals n set p = s := by
  unfold State.scrubVals
  have : (s.mset n set).ways.filter (fun e => e.valid && p e && e.badVal) = [] := by
    rw [List.filter_eq_nil_iff]
    intro w hw
    by_cases hv : w.valid = true
    · simp [h w hw hv]
    · simp [hv]
  rw [this]; rfl

end Sys2Proof.Machine
end

