-- ==== Sys2Proof/Laws/Divider.lean ====
section
/-! SUPPORT. The divider's loop divides (R138): what its 36 iterations and the two fixes compute. -/

namespace Sys2Proof.Machine

/-- The divider after `k` iterations on the dividend magnitude `a` (R138): the quotient so far is of the bits brought in, the
remainder stands in P or is one divisor below 0. -/
structure Divider.After (a k : Nat) (d : Divider) : Prop where
  parts : ∃ quo rem lo : Nat, rem < d.dv.toNat ∧ lo < 2 ^ (36 - k) ∧ quo < 2 ^ k ∧
    a = (d.dv.toNat * quo + rem) * 2 ^ (36 - k) + lo ∧ d.q.toNat = lo * 2 ^ k + quo ∧
    (d.p = BitVec.ofInt 38 rem ∨ d.p = BitVec.ofInt 38 ((rem : Int) - d.dv.toNat))

/-- The sign bit of a 38-bit word that holds a small integer. -/
theorem msb_small (z : Int) (h : -2 ^ 36 ≤ z) (h' : z < 2 ^ 36) : (BitVec.ofInt 38 z).msb = decide (z < 0) := by
  rw [BitVec.msb_eq_toInt, BitVec.toInt_ofInt, Int.bmod_eq_of_le] <;> omega

theorem Divider.after_zero (d : Divider) (hp : d.p = 0) (hd : 0 < d.dv.toNat) : d.After d.q.toNat 0 :=
  ⟨⟨0, 0, d.q.toNat, hd, by simpa using d.q.isLt, by simp, by simp, by simp, .inl (by simpa using hp)⟩⟩

/-- One iteration brings in one bit of the dividend. -/
theorem Divider.after_iter (a k : Nat) (d : Divider) (hk : k < 36) (h : d.After a k) : d.iter.After a (k + 1) := by
  obtain ⟨quo, rem, lo, hr, hl, hq, ha, hQ, hP⟩ := h.parts
  obtain ⟨m, hm⟩ : ∃ m, 36 - k = m + 1 := ⟨35 - k, by omega⟩
  have he : 36 - (k + 1) = m := by omega
  have hme : 2 ^ m * 2 ^ k = 2 ^ 35 := by rw [← Nat.pow_add]; congr 1; omega
  have hD := d.dv.isLt
  have h2 : 2 ^ (m + 1) = 2 * 2 ^ m := by rw [Nat.pow_succ]; omega
  have hk2 : 2 ^ (k + 1) = 2 * 2 ^ k := by rw [Nat.pow_succ]; omega
  rw [hm, h2] at hl ha
  have hek : 0 < 2 ^ k := Nat.two_pow_pos k
  -- the bit brought in
  have hb : d.q.msb = decide (2 ^ m ≤ lo) := by
    rw [BitVec.msb_eq_decide, hQ]
    congr 1
    apply propext
    constructor
    · intro hh
      by_contra hc
      have : (lo + 1) * 2 ^ k ≤ 2 ^ m * 2 ^ k := Nat.mul_le_mul_right _ (by omega)
      rw [Nat.add_mul] at this
      omega
    · intro hh
      have : 2 ^ m * 2 ^ k ≤ lo * 2 ^ k := Nat.mul_le_mul_right _ hh
      omega
  obtain ⟨b, hbb, l', hl', hlo⟩ : ∃ b : Nat, b = (if d.q.msb then 1 else 0) ∧ ∃ l', l' < 2 ^ m ∧ lo = b * 2 ^ m + l' := by
    refine ⟨_, rfl, lo - (if d.q.msb then 1 else 0) * 2 ^ m, ?_⟩
    rw [hb]; by_cases hc : 2 ^ m ≤ lo <;> simp [hc] <;> omega
  have hb1 : b ≤ 1 := by rw [hbb]; split <;> omega
  have hbw : ((if d.q.msb then 1 else 0 : BitVec 38)) = BitVec.ofInt 38 b := by rw [hbb]; split <;> rfl
  have hdw : d.dv.setWidth 38 = BitVec.ofInt 38 d.dv.toNat := by
    apply BitVec.eq_of_toNat_eq; rw [BitVec.toNat_setWidth, BitVec.toNat_ofInt]; omega
  have hp' : d.iter.p = BitVec.ofInt 38 (2 * (rem : Int) + b - d.dv.toNat) := by
    unfold Divider.iter
    simp only [hbw, hdw]
    rcases hP with h1 | h1
    · rw [h1, msb_small _ (by omega) (by omega)]
      have : ¬ ((rem : Int) < 0) := by omega
      simp only [this, decide_false, Bool.false_eq_true, if_false]
      rw [show (2 : BitVec 38) = BitVec.ofInt 38 2 from rfl, ← BitVec.ofInt_mul, ← BitVec.ofInt_add, BitVec.sub_eq_add_neg,
        ← BitVec.ofInt_neg, ← BitVec.ofInt_add]
      congr 1; omega
    · rw [h1, msb_small _ (by omega) (by omega)]
      have : (rem : Int) - d.dv.toNat < 0 := by omega
      simp only [this, decide_true, if_true]
      rw [show (2 : BitVec 38) = BitVec.ofInt 38 2 from rfl, ← BitVec.ofInt_mul, ← BitVec.ofInt_add, ← BitVec.ofInt_add]
      congr 1; omega
  have hdv : d.iter.dv = d.dv := rfl
  have hq' : d.iter.q.toNat = (2 * d.q.toNat + (if d.iter.p.msb then 0 else 1)) % 2 ^ 36 := by
    show (d.q * 2 + (if d.iter.p.msb then 0 else 1)).toNat = _
    cases d.iter.p.msb <;> simp [BitVec.toNat_add, BitVec.toNat_mul] <;> omega
  have hz : d.iter.p.msb = decide (2 * (rem : Int) + b - d.dv.toNat < 0) := by rw [hp']; exact msb_small _ (by omega) (by omega)
  have hquo : 2 * d.q.toNat = 2 ^ 36 * b + (l' * 2 ^ (k + 1) + 2 * quo) := by
    rw [hQ, hlo, hk2, Nat.add_mul, Nat.mul_assoc b, hme]
    have : l' * (2 * 2 ^ k) = 2 * (l' * 2 ^ k) := Nat.mul_left_comm ..
    omega
  have hsmall : l' * 2 ^ (k + 1) + 2 * quo + 2 ≤ 2 ^ 36 := by
    have h3 : (l' + 1) * 2 ^ (k + 1) ≤ 2 ^ m * 2 ^ (k + 1) := Nat.mul_le_mul_right _ hl'
    have h4 : 2 ^ m * 2 ^ (k + 1) = 2 ^ 36 := by rw [← Nat.pow_add]; congr 1; omega
    rw [Nat.add_mul] at h3
    omega
  have hmul : 2 ^ m * 2 = 2 * 2 ^ m := Nat.mul_comm ..
  by_cases hneg : 2 * (rem : Int) + b - d.dv.toNat < 0
  · refine ⟨⟨2 * quo, 2 * rem + b, l', by rw [hdv]; omega, by rw [he]; exact hl', by rw [hk2]; omega, ?_, ?_, .inr ?_⟩⟩
    · rw [hdv, he, ha, hlo]
      ring
    · rw [hq', hz, decide_eq_true hneg, if_pos rfl, hquo]
      omega
    · rw [hp', hdv]; rfl
  · refine ⟨⟨2 * quo + 1, 2 * rem + b - d.dv.toNat, l', by rw [hdv]; omega, by rw [he]; exact hl', by rw [hk2]; omega, ?_, ?_, .inl ?_⟩⟩
    · rw [hdv, he, ha, hlo]
      have h5 : d.dv.toNat * (2 * quo + 1) + (2 * rem + b - d.dv.toNat) = 2 * (d.dv.toNat * quo + rem) + b := by
        have : d.dv.toNat * (2 * quo + 1) = 2 * (d.dv.toNat * quo) + d.dv.toNat := by ring
        omega
      rw [h5]; ring
    · rw [hq', hz, decide_eq_false hneg, if_neg (by simp), hquo]
      omega
    · rw [hp']; congr 1; omega

theorem Divider.after_iters (a : Nat) : ∀ (j k : Nat) (d : Divider), k + j ≤ 36 → d.After a k → (d.iters j).After a (k + j)
  | 0, _, _, _, h => h
  | j + 1, k, d, hk, h => by
    have := Divider.after_iters a j (k + 1) d.iter (by omega) (Divider.after_iter a k d (by omega) h)
    rwa [Nat.add_right_comm] at this

theorem Divider.iters_keeps : ∀ (j : Nat) (d : Divider), (d.iters j).dv = d.dv ∧ (d.iters j).negA = d.negA ∧
    (d.iters j).negB = d.negB ∧ (d.iters j).zero = d.zero
  | 0, _ => ⟨rfl, rfl, rfl, rfl⟩
  | j + 1, d => Divider.iters_keeps j d.iter

/-- After the remainder correction, Q and P hold quotient and remainder of the magnitudes (R138). -/
theorem Divider.run_magnitudes (signed : Bool) (a b : Word) (hb : 0 < (Divider.setup signed a b).dv.toNat) :
    (Divider.run signed a b).q = (Divider.setup signed a b).q / (Divider.setup signed a b).dv ∧
    (Divider.run signed a b).p.setWidth 36 = (Divider.setup signed a b).q % (Divider.setup signed a b).dv := by
  have h := Divider.after_iters _ 36 0 (Divider.setup signed a b) (by omega) (Divider.after_zero _ rfl hb)
  obtain ⟨hdv, -⟩ := Divider.iters_keeps 36 (Divider.setup signed a b)
  obtain ⟨quo, rem, lo, hr, hl, hq, ha, hQ, hP⟩ := h.parts
  simp only [Nat.zero_add, Nat.sub_self, Nat.pow_zero, Nat.lt_one_iff, Nat.mul_one] at hl ha hQ hq
  subst hl
  rw [hdv] at hr ha hP
  generalize hx : (Divider.setup signed a b).iters 36 = x at *
  have hrun : Divider.run signed a b = x.correct := by unfold Divider.run; rw [hx]
  generalize Divider.setup signed a b = d0 at *
  have hD := d0.dv.isLt
  have hquo : quo = d0.q.toNat / d0.dv.toNat := by
    rw [ha, Nat.add_zero, Nat.mul_add_div hb, Nat.div_eq_of_lt hr, Nat.add_zero]
  have hrem : rem = d0.q.toNat % d0.dv.toNat := by
    rw [ha, Nat.add_zero, Nat.mul_add_mod, Nat.mod_eq_of_lt hr]
  refine ⟨?_, ?_⟩
  · apply BitVec.eq_of_toNat_eq
    have : x.correct.q = x.q := by unfold Divider.correct; split <;> rfl
    rw [hrun, this, hQ, BitVec.toNat_udiv]; omega
  · have hp : x.correct.p = BitVec.ofInt 38 rem := by
      unfold Divider.correct
      rcases hP with h1 | h1
      · rw [h1, msb_small _ (by omega) (by omega)]
        have : ¬ ((rem : Int) < 0) := by omega
        simp only [this, decide_false, Bool.false_eq_true, if_false, h1]
      · rw [h1, msb_small _ (by omega) (by omega)]
        have : (rem : Int) - d0.dv.toNat < 0 := by omega
        simp only [this, decide_true, if_true]
        have hdw : x.dv.setWidth 38 = BitVec.ofInt 38 d0.dv.toNat := by
          rw [hdv]; apply BitVec.eq_of_toNat_eq; rw [BitVec.toNat_setWidth, BitVec.toNat_ofInt]; omega
        rw [hdw, ← BitVec.ofInt_add]
        congr 1; omega
    rw [hrun, hp]
    apply BitVec.eq_of_toNat_eq
    rw [BitVec.toNat_setWidth, BitVec.toNat_umod, BitVec.toNat_ofInt, ← hrem]
    omega

theorem Divider.correct_keeps (d : Divider) : d.correct.zero = d.zero ∧ d.correct.negA = d.negA ∧ d.correct.negB = d.negB := by
  unfold Divider.correct; split <;> exact ⟨rfl, rfl, rfl⟩

theorem Divider.run_keeps (signed : Bool) (a b : Word) : (Divider.run signed a b).zero = (b == 0) ∧
    (Divider.run signed a b).negA = (signed && a.msb) ∧ (Divider.run signed a b).negB = (signed && b.msb) := by
  obtain ⟨-, h1, h2, h3⟩ := Divider.iters_keeps 36 (Divider.setup signed a b)
  obtain ⟨g1, g2, g3⟩ := Divider.correct_keeps ((Divider.setup signed a b).iters 36)
  exact ⟨g1.trans h3, g2.trans h1, g3.trans h2⟩

/-- DIVU (R110, R138). -/
theorem intDivU_eq (a b : Word) : intDivU a b =
    if b = 0 then { w0 := BitVec.allOnes 36, w1 := a, fl := { dz := true } } else { w0 := a / b, w1 := a % b } := by
  unfold intDivU Divider.result
  have hz : (Divider.run false a b).zero = (b == 0) ∧ (Divider.run false a b).negA = false ∧ (Divider.run false a b).negB = false := by
    exact Divider.run_keeps false a b
  simp only [hz]
  by_cases h : b = 0
  · simp [h]
  · have hb : 0 < b.toNat := Nat.pos_of_ne_zero (fun hc => h (BitVec.eq_of_toNat_eq hc))
    obtain ⟨h1, h2⟩ := Divider.run_magnitudes false a b hb
    simp only [Divider.setup, Bool.false_eq_true, if_false] at h1 h2
    simp [h1, h2]

theorem magnitude_toNat (w : Word) : (magnitude w).toNat = if 2 ^ 35 ≤ w.toNat then 2 ^ 36 - w.toNat else w.toNat := by
  unfold magnitude
  rw [BitVec.msb_eq_decide]
  by_cases h : 2 ^ 35 ≤ w.toNat
  · simp only [h, decide_true, if_true]; simp; omega
  · simp only [h, decide_false, Bool.false_eq_true, if_false]

/-- The magnitude of a quotient with equal signs is 2^35 for the most negative word and -1 only (R138). -/
theorem overflow_only (a b : Word) (h : b ≠ 0) :
    (a.msb == b.msb && (magnitude a / magnitude b).msb) = (a == 0x800000000 && b == BitVec.allOnes 36) := by
  have ha := a.isLt
  have hb := b.isLt
  have hb0 : b.toNat ≠ 0 := fun hc => h (BitVec.eq_of_toNat_eq hc)
  have hm := magnitude_toNat b
  have hn := magnitude_toNat a
  have hq : (magnitude a / magnitude b).msb = decide (2 ^ 35 ≤ (magnitude a).toNat / (magnitude b).toNat) := by
    rw [BitVec.msb_eq_decide, BitVec.toNat_udiv]
  rw [hq, BitVec.msb_eq_decide, BitVec.msb_eq_decide, Bool.eq_iff_iff]
  simp only [Bool.and_eq_true, beq_iff_eq, decide_eq_decide, decide_eq_true_eq]
  have hm0 : 0 < (magnitude b).toNat := by rw [hm]; split <;> omega
  rw [Nat.le_div_iff_mul_le hm0]
  constructor
  · rintro ⟨h1, h2⟩
    constructor <;> apply BitVec.eq_of_toNat_eq
    · show _ = 2 ^ 35
      rw [hm, hn] at h2; split at h2 <;> split at h2 <;> omega
    · show _ = 2 ^ 36 - 1
      rw [hm, hn] at h2; split at h2 <;> split at h2 <;> omega
  · rintro ⟨rfl, rfl⟩
    rw [hm, hn]
    decide

/-- DIV (R110, R138). -/
theorem intDiv_eq (a b : Word) : intDiv a b =
    if b = 0 then { w0 := BitVec.allOnes 36, w1 := a, fl := { dz := true } }
    else { w0 := a.sdiv b, w1 := a.srem b, fl := { v := a == 0x800000000 && b == BitVec.allOnes 36 } } := by
  unfold intDiv Divider.result
  have hz : (Divider.run true a b).zero = (b == 0) ∧ (Divider.run true a b).negA = a.msb ∧ (Divider.run true a b).negB = b.msb := by
    exact Divider.run_keeps true a b
  simp only [hz]
  by_cases h : b = 0
  · simp [h]
  · have hm : 0 < (magnitude b).toNat := by
      refine Nat.pos_of_ne_zero (fun hc => h ?_)
      have hc' : magnitude b = 0 := BitVec.eq_of_toNat_eq hc
      unfold magnitude at hc'
      split at hc'
      · have := congrArg (fun w => 0 - w) hc'
        simpa using this
      · exact hc'
    obtain ⟨h1, h2⟩ := Divider.run_magnitudes true a b hm
    simp only [Divider.setup, if_true] at h1 h2
    have hb0 : (b == 0) = false := beq_eq_false_iff_ne.mpr h
    simp only [hb0, Bool.false_eq_true, if_false, h, h1, h2, ArithRes.mk.injEq, Bool.true_and]
    refine ⟨?_, ?_, ?_⟩
    · rw [BitVec.sdiv_eq]
      unfold magnitude
      cases a.msb <;> cases b.msb <;> simp
    · rw [BitVec.srem_eq]
      unfold magnitude
      cases a.msb <;> cases b.msb <;> simp
    · rw [overflow_only a b h]

end Sys2Proof.Machine
end

