-- ==== Sys2Proof/Laws/Store.lean ====
section
/-! SUPPORT. Laws of the tables keyed by a number: a read after a write, and the canonical form. -/

namespace Sys2Proof.Machine

theorem trises_weaken {α : Type} {t : Tab α} {i j : Nat} (h : trises (some j) t = true) (hij : i ≤ j) :
    trises (some i) t = true := by
  cases t with
  | nil => rfl
  | cons p t => simp [trises] at h ⊢; exact ⟨by omega, h.2⟩

theorem trises_none {α : Type} {t : Tab α} {i : Nat} (h : trises (some i) t = true) : trises none t = true := by
  cases t with
  | nil => rfl
  | cons p t => simp [trises] at h ⊢; exact h.2

theorem tfind_tins_same {α : Type} (t : Tab α) (k : Nat) (v : α) : tfind (tins t k v) k = some v := by
  induction t with
  | nil => simp [tins, tfind]
  | cons p t ih =>
    obtain ⟨j, w⟩ := p
    simp only [tins]
    split
    · simp [tfind]
    · split
      · simp [tfind]
      · rename_i h1 h2
        simp [tfind, h1, ih]

theorem tfind_tins_other {α : Type} (t : Tab α) {k m : Nat} (v : α) (hm : m ≠ k) :
    tfind (tins t k v) m = tfind t m := by
  induction t with
  | nil => simp [tins, tfind, Ne.symm hm]
  | cons p t ih =>
    obtain ⟨j, w⟩ := p
    simp only [tins]
    split
    · subst_vars; simp [tfind, Ne.symm hm]
    · split
      · simp [tfind, Ne.symm hm]
      · simp only [tfind, ih]

theorem tfind_tdel_same {α : Type} (t : Tab α) (k : Nat) : tfind (tdel t k) k = none := by
  induction t with
  | nil => rfl
  | cons p t ih =>
    obtain ⟨j, w⟩ := p
    simp only [tdel]
    split
    · exact ih
    · rename_i h; simp [tfind, h, ih]

theorem tfind_tdel_other {α : Type} (t : Tab α) {k m : Nat} (hm : m ≠ k) : tfind (tdel t k) m = tfind t m := by
  induction t with
  | nil => rfl
  | cons p t ih =>
    obtain ⟨j, w⟩ := p
    simp only [tdel]
    split
    · subst_vars; simp [tfind, Ne.symm hm, ih]
    · simp only [tfind, ih]

/-- A read of the key just written gives the value written. -/
theorem tget_tput_same {α : Type} [DecidableEq α] {d : α} (t : Tab α) (k : Nat) (v : α) :
    tget d (tput d t k v) k = v := by
  simp only [tget, tput]
  split
  · subst_vars; rw [tfind_tdel_same]; rfl
  · rw [tfind_tins_same]; rfl

/-- A write leaves every other key alone. -/
theorem tget_tput_other {α : Type} [DecidableEq α] {d : α} (t : Tab α) {k m : Nat} (v : α) (hm : m ≠ k) :
    tget d (tput d t k v) m = tget d t m := by
  simp only [tget, tput]
  split
  · rw [tfind_tdel_other _ hm]
  · rw [tfind_tins_other _ _ hm]

theorem trises_tins {α : Type} {t : Tab α} {o : Option Nat} (h : trises o t = true) (k : Nat) (v : α)
    (hk : ∀ i, o = some i → i < k) : trises o (tins t k v) = true := by
  induction t generalizing o with
  | nil => cases o with
    | none => rfl
    | some i => simp [tins, trises, hk i rfl]
  | cons p t ih =>
    obtain ⟨j, w⟩ := p
    have ht : trises (some j) t = true := by cases o <;> simp_all [trises]
    simp only [tins]
    split
    · subst_vars; cases o <;> simp_all [trises]
    · split
      · rename_i h1 h2
        cases o with
        | none => simp [trises, h2, ht]
        | some i => simp [trises, h2, ht, hk i rfl]
      · rename_i h1 h2
        have := ih ht (by intro i hi; cases hi; omega)
        cases o <;> simp_all [trises]

theorem trises_tdel {α : Type} {t : Tab α} {o : Option Nat} (h : trises o t = true) (k : Nat) :
    trises o (tdel t k) = true := by
  induction t generalizing o with
  | nil => exact h
  | cons p t ih =>
    obtain ⟨j, w⟩ := p
    have ht : trises (some j) t = true := by cases o <;> simp_all [trises]
    simp only [tdel]
    split
    · cases o with
      | none => exact trises_none (ih ht)
      | some i => simp [trises] at h; exact trises_weaken (ih ht) (by omega)
    · have := ih ht
      cases o <;> simp_all [trises]

theorem mem_tins {α : Type} (t : Tab α) (k : Nat) (v : α) (p : Nat × α) (h : p ∈ tins t k v) : p = (k, v) ∨ p ∈ t := by
  induction t with
  | nil => simp [tins] at h; exact .inl h
  | cons q t ih =>
    simp only [tins] at h
    split at h
    · simp at h; rcases h with h | h
      · exact .inl h
      · exact .inr (List.mem_cons_of_mem _ h)
    · split at h
      · simp only [List.mem_cons] at h; rcases h with h | h
        · exact .inl h
        · exact .inr (by simpa using h)
      · simp only [List.mem_cons] at h; rcases h with h | h
        · exact .inr (by simp [h])
        · rcases ih h with h | h
          · exact .inl h
          · exact .inr (List.mem_cons_of_mem _ h)

theorem mem_tdel {α : Type} (t : Tab α) (k : Nat) (p : Nat × α) (h : p ∈ tdel t k) : p ∈ t := by
  induction t with
  | nil => exact h
  | cons q t ih =>
    simp only [tdel] at h
    split at h
    · exact List.mem_cons_of_mem _ (ih h)
    · simp only [List.mem_cons] at h; rcases h with h | h
      · simp [h]
      · exact List.mem_cons_of_mem _ (ih h)

/-- A write keeps the canonical form. -/
theorem twf_tput {α : Type} [DecidableEq α] {d : α} {t : Tab α} (h : twf d t = true) (k : Nat) (v : α) :
    twf d (tput d t k v) = true := by
  simp only [twf, Bool.and_eq_true, List.all_eq_true, decide_eq_true_eq] at h ⊢
  simp only [tput]
  split
  · exact ⟨trises_tdel h.1 k, fun p hp => h.2 p (mem_tdel t k p hp)⟩
  · refine ⟨trises_tins h.1 k v (by simp), fun p hp => ?_⟩
    rcases mem_tins t k v p hp with hp | hp
    · subst hp; assumption
    · exact h.2 p hp

theorem trises_filter {α : Type} {t : Tab α} {o : Option Nat} (f : Nat × α → Bool) (h : trises o t = true) :
    trises o (t.filter f) = true := by
  induction t generalizing o with
  | nil => exact h
  | cons p t ih =>
    have ht : trises (some p.1) t = true := by cases o <;> simp_all [trises]
    simp only [List.filter_cons]
    split
    · have := ih ht
      cases o <;> simp_all [trises]
    · cases o with
      | none => exact ih (trises_none ht)
      | some i => exact ih (trises_weaken ht (by simp [trises] at h; omega))

/-- Removing entries keeps the canonical form. -/
theorem twf_filter {α : Type} [DecidableEq α] {d : α} {t : Tab α} (f : Nat × α → Bool) (h : twf d t = true) :
    twf d (t.filter f) = true := by
  simp only [twf, Bool.and_eq_true, List.all_eq_true] at h ⊢
  exact ⟨trises_filter f h.1, fun p hp => h.2 p (List.mem_filter.mp hp).1⟩

theorem twf_tclear {α : Type} [DecidableEq α] {d : α} {t : Tab α} (lo hi : Nat) (h : twf d t = true) :
    twf d (tclear t lo hi) = true := twf_filter _ h

theorem twf_nil {α : Type} [DecidableEq α] (d : α) : twf d ([] : Tab α) = true := rfl

/-- Fixed lists: the element just replaced, and the others. -/
theorem lget_lset_same {α : Type} (d : α) (l : List α) (i : Nat) (v : α) (h : i < l.length) :
    lget d (lset l i v) i = v := by simp [lget, lset, h]

theorem lget_lset_other {α : Type} (d : α) (l : List α) {i j : Nat} (v : α) (h : j ≠ i) :
    lget d (lset l i v) j = lget d l j := by
  simp only [lget, lset, List.getD_eq_getElem?_getD]
  rw [List.getElem?_set_ne (Ne.symm h)]

@[simp] theorem lset_length {α : Type} (l : List α) (i : Nat) (v : α) : (lset l i v).length = l.length := by
  simp [lset]

end Sys2Proof.Machine
end

