-- ==== Sys2Proof/Laws/Fields.lean ====
section
/-! SUPPORT. Register fields: a replaced field reads as written and the bits around it stay; a stored register reads as
written and the others stay. -/

namespace Sys2Proof.Machine

/-- A number from the bits above, in and below a field. -/
theorem field_split (x lo w : Nat) : x = (x / 2 ^ lo / 2 ^ w * 2 ^ w + x / 2 ^ lo % 2 ^ w) * 2 ^ lo + x % 2 ^ lo := by
  have h1 := Nat.div_add_mod x (2 ^ lo)
  have h2 := Nat.div_add_mod (x / 2 ^ lo) (2 ^ w)
  rw [Nat.mul_comm (x / 2 ^ lo / 2 ^ w), h2, Nat.mul_comm (x / 2 ^ lo)]; exact h1.symm

/-- A replaced field: the bits above and below stay. -/
theorem setField_split (x lo w v : Nat) :
    setField x lo w v = (x / 2 ^ lo / 2 ^ w * 2 ^ w + v % 2 ^ w) * 2 ^ lo + x % 2 ^ lo := by
  have h := field_split x lo w
  simp only [setField, bitsOf, Nat.shiftRight_eq_div_pow]
  generalize x / 2 ^ lo / 2 ^ w * 2 ^ w = a at *
  generalize x / 2 ^ lo % 2 ^ w = b at *
  generalize x % 2 ^ lo = c at *
  rw [Nat.add_mul] at h ⊢
  omega

/-- A replaced field reads as written. -/
theorem bitsOf_setField (x lo w v : Nat) : bitsOf (setField x lo w v) lo w = v % 2 ^ w := by
  rw [setField_split]
  simp only [bitsOf, Nat.shiftRight_eq_div_pow]
  have hp : 0 < 2 ^ lo := Nat.two_pow_pos lo
  rw [Nat.mul_comm, Nat.mul_add_div hp, Nat.div_eq_of_lt (Nat.mod_lt _ hp), Nat.add_zero, Nat.mul_comm,
    Nat.mul_add_mod, Nat.mod_mod]

/-- The bits outside a replaced field stay. -/
theorem testBit_setField (x lo w v i : Nat) (h : i < lo ∨ lo + w ≤ i) : (setField x lo w v).testBit i = x.testBit i := by
  rw [setField_split]
  have hp : x % 2 ^ lo < 2 ^ lo := Nat.mod_lt _ (Nat.two_pow_pos lo)
  rw [Nat.mul_comm, Nat.testBit_two_pow_mul_add _ hp]
  rcases h with h | h
  · simp [h, Nat.testBit_mod_two_pow]
  · have : ¬ i < lo := by omega
    simp only [this, if_false]
    have hv : v % 2 ^ w < 2 ^ w := Nat.mod_lt _ (Nat.two_pow_pos w)
    rw [Nat.mul_comm, Nat.testBit_two_pow_mul_add _ hv]
    have h2 : ¬ i - lo < w := by omega
    simp only [h2, if_false, Nat.testBit_div_two_pow]
    congr 1; omega

theorem setField_lt (x lo w v : Nat) (hx : x < 4294967296) (h : lo + w ≤ 32) : setField x lo w v < 4294967296 := by
  show _ < 2 ^ 32
  apply Nat.lt_pow_two_of_testBit
  intro i hi
  rw [testBit_setField _ _ _ _ _ (Or.inr (by omega))]
  exact Nat.testBit_lt_two_pow (Nat.lt_of_lt_of_le (show x < 2 ^ 32 from hx) (Nat.pow_le_pow_right (by decide) hi))

/-- A located register is a row of its block. -/
theorem locate_row {off : Nat} {l : Loc} (h : locate off = some l) : ∃ c, l.row ∈ rowsOfBlock c := by
  unfold locate at h
  split at h
  · cases h
  · rename_i b inst o _
    have hf : ∀ (rs : List RegRow) (r : RegRow) (k : Nat), findRow rs o = some (r, k) → r ∈ rs := by
      intro rs
      induction rs with
      | nil => intro r k h; cases h
      | cons a rs ih =>
        intro r k h
        simp only [findRow] at h
        split at h
        · injection h with h; injection h with h1 h2; subst h1; simp
        · exact List.mem_cons_of_mem _ (ih r k h)
    cases hp : findRow (rowsOfBlock b.code) o with
    | none => rw [hp] at h; cases h
    | some p => rw [hp] at h; injection h with h; subst h; exact ⟨b.code, hf _ p.1 p.2 hp⟩

theorem rows_default : ∀ c < 20, (rowsOfBlock c).all (fun r => decide (r.default < 4294967296)) = true := by decide

theorem default_lt {c : Nat} {r : RegRow} (h : r ∈ rowsOfBlock c) : r.default < 4294967296 := by
  by_cases hc : c < 20
  · have := rows_default c hc
    simp only [List.all_eq_true, decide_eq_true_eq] at this
    exact this r h
  · exfalso
    have : rowsOfBlock c = [] := by
      unfold rowsOfBlock
      split <;> first | omega | rfl
    rw [this] at h; cases h

/-- Every reset value fits its register. -/
theorem regDefault_lt (off : Nat) : regDefault off < 4294967296 := by
  unfold regDefault
  cases h : locate off with
  | none => simp
  | some l =>
    obtain ⟨c, hc⟩ := locate_row h
    have hd := default_lt hc
    simp only [locDefault]
    have hl : ∀ (xs : List Nat) (k : Nat), (∀ x ∈ xs, x < 4294967296) → lget 0 xs k < 4294967296 := by
      intro xs k hx
      unfold lget
      rw [List.getD_eq_getElem?_getD]
      cases he : xs[k]? with
      | none => simp
      | some a => exact hx a (List.mem_of_getElem? he)
    split
    · split
      · simp
      · exact hd
    · omega
    · exact hl _ _ (by decide)
    · exact hl _ _ (by decide)
    · exact hd

/-- A stored register reads as written. -/
theorem reg_setReg_same (s : State) (off v : Nat) (h : v < 4294967296) : (s.setReg off v).reg off = v := by
  have hv : (BitVec.ofNat 32 v).toNat = v := by simp; omega
  have key : tfind (s.setReg off v).regs off =
      if BitVec.ofNat 32 v = BitVec.ofNat 32 (regDefault off) then none else some (BitVec.ofNat 32 v) := by
    show tfind (tput _ _ _ _) _ = _
    unfold tput
    split
    · exact tfind_tdel_same _ _
    · exact tfind_tins_same _ _ _
  unfold State.reg
  rw [key]
  by_cases e : BitVec.ofNat 32 v = BitVec.ofNat 32 (regDefault off)
  · simp only [e, if_true]
    have e2 := congrArg BitVec.toNat e
    rw [hv] at e2
    simp at e2
    have hd := regDefault_lt off
    omega
  · simp only [e, if_false]; exact hv

/-- Other registers stay. -/
theorem reg_setReg_other (s : State) (off v : Nat) {o : Nat} (h : o ≠ off) : (s.setReg off v).reg o = s.reg o := by
  have key : tfind (s.setReg off v).regs o = tfind s.regs o := by
    show tfind (tput _ _ _ _) _ = _
    unfold tput
    split
    · exact tfind_tdel_other _ h
    · exact tfind_tins_other _ _ h
  unfold State.reg
  rw [key]

theorem reg_lt (s : State) (off : Nat) : s.reg off < 4294967296 := by
  unfold State.reg
  split
  · exact BitVec.isLt _
  · exact regDefault_lt off

theorem reg_setFld (s : State) (off lo w v : Nat) (h : lo + w ≤ 32) :
    (s.setFld off lo w v).reg off = setField (s.reg off) lo w v :=
  reg_setReg_same _ _ _ (setField_lt _ _ _ _ (reg_lt s off) h)

theorem fld_setFld (s : State) (off lo w v : Nat) (h : lo + w ≤ 32) : (s.setFld off lo w v).fld off lo w = v % 2 ^ w := by
  rw [State.fld, reg_setFld s off lo w v h, bitsOf_setField]

/-- A register that an offset of a function's BAR0 holds is located. -/
theorem busTarget_reg {fn off : Nat} {l : Loc} (h : busTarget fn off = .reg l) : ∃ o, locate o = some l := by
  have key : ∀ o, regTarget (locate o) = .reg l → ∃ o, locate o = some l := by
    intro o ho
    cases e : locate o with
    | none => rw [e] at ho; cases ho
    | some x => rw [e] at ho; injection ho with ho; exact ⟨o, by rw [e, ho]⟩
  unfold busTarget at h
  simp only at h
  split at h
  · split at h
    · cases h
    · exact key _ h
  · repeat' split at h
    all_goals first
      | exact key _ h
      | cases h

theorem rows_masks : ∀ c < 20, (rowsOfBlock c).all (fun r => r.fields.all (fun f =>
    decide (f.mask ≠ 0) && decide (f.mask < 4294967296) && decide (f.lsb + f.width ≤ 32))) = true := by decide

/-- The fields of a located register lie in 32 bits and have a bit. -/
theorem field_masks {o : Nat} {l : Loc} (h : locate o = some l) {f : Field} (hf : f ∈ l.row.fields) :
    f.mask ≠ 0 ∧ f.mask < 4294967296 ∧ f.lsb + f.width ≤ 32 := by
  obtain ⟨c, hc⟩ := locate_row h
  by_cases hb : c < 20
  · have := rows_masks c hb
    simp only [List.all_eq_true, Bool.and_eq_true, decide_eq_true_eq] at this
    have := this l.row hc f hf
    exact ⟨this.1.1, this.1.2, this.2⟩
  · exfalso
    have : rowsOfBlock c = [] := by
      unfold rowsOfBlock
      split <;> first | omega | rfl
    rw [this] at hc; cases hc

end Sys2Proof.Machine
end

