-- ==== Sys2Proof/Laws/Finish.lean ====
section
/-! SUPPORT. The end of every command (R393): on a quiet state it changes nothing, and it always leaves a settled state. -/

namespace Sys2Proof.Machine

open Sys2Proof.Safety

theorem State.settle_of_nil {s : State} (h : s.raised = []) : s.settle = s := by simp [State.settle, h]

theorem State.runProcs_of_none {s : State} (h : ∀ p ∈ s.graphs, p.2.proc = GProc.none) : s.runProcs = s := by
  have : s.graphs.filter (fun p => p.2.proc != .none) = [] := by
    simp only [List.filter_eq_nil_iff]; intro p hp; simp [h p hp]
  simp [State.runProcs, this]

theorem State.pinned_of_nil {s : State} (h : s.clk.pins = []) : s.pinned = s := by simp [State.pinned, h, State.pinsDue]

theorem State.runSweep_of_none {s : State} (h : s.sweep = none) : s.runSweep = s := by simp [State.runSweep, h]

theorem State.showFault_of_eq {s : State} (h : s.faulted = s.start.faultLow) : s.showFault = s := by
  simp [State.showFault, h]

/-- The parts of a quiet state. -/
theorem quiet_iff (s : State) : Quiet s = true ↔
    s.raised = [] ∧ s.faulted = s.start.faultLow ∧ (∀ p ∈ s.graphs, p.2.proc = GProc.none) ∧ s.sweep = none ∧
      s.clk.pins = [] := by
  simp [Quiet, Settled, and_assoc]

/-- A command that leaves a quiet state ends there. -/
theorem State.finish_of_quiet {s : State} (h : Quiet s = true) : s.finish = s := by
  obtain ⟨h1, h2, h3, h4, h5⟩ := (quiet_iff s).mp h
  simp [State.finish, State.pinned_of_nil h5, State.runProcs_of_none h3, State.runSweep_of_none h4, State.settle_of_nil h1,
    State.showFault_of_eq h2]

theorem State.queueAll_raised (k : Nat) (s : State) (rs : List Raise) : (State.queueAll k s rs).raised = [] := by
  induction k generalizing s rs with
  | zero => simp [State.queueAll]
  | succ k ih => cases rs with
    | nil => simp [State.queueAll]
    | cons r rs => simp only [State.queueAll]; exact ih _ _

theorem State.settle_raised (s : State) : s.settle.raised = [] := by
  unfold State.settle
  split
  · exact List.isEmpty_iff.mp ‹_›
  · split
    · exact State.queueAll_raised _ _ _
    · rfl

theorem State.showFault_raised (s : State) : s.showFault.raised = s.raised := by
  unfold State.showFault; split <;> rfl

theorem State.showFault_shows (s : State) : s.showFault.faulted = s.showFault.start.faultLow := by
  unfold State.showFault
  split
  · assumption
  · rfl

/-- Every command leaves a settled state. -/
theorem State.finish_settled (s : State) : Settled s.finish = true := by
  simp only [Settled, State.finish, Bool.and_eq_true, List.isEmpty_iff, beq_iff_eq]
  exact ⟨by rw [State.showFault_raised]; exact State.settle_raised _, State.showFault_shows _⟩

/-- A quiet state stays quiet under an update that touches neither records nor graphs, the start, the sweep or the pins. -/
theorem quiet_congr {s t : State} (h1 : t.raised = s.raised) (h2 : t.graphs = s.graphs) (h3 : t.start = s.start)
    (h4 : t.sweep = s.sweep) (h5 : t.clk.pins = s.clk.pins) : Quiet t = Quiet s := by
  simp only [Quiet, Settled, State.faulted, h1, h2, h3, h4, h5]

end Sys2Proof.Machine
end

