-- ==== Sys2Proof/Laws/Firing.lean ====
section
/-! SUPPORT. How a firing begins and ends (R58, R96, R187): what the row of a single instruction does, in terms of the state
in which the firing begins. -/

namespace Sys2Proof.Machine

open Sys2Proof.Safety

theorem lowest_none_of_decodeOne {s : State} {n : Nat} {it : Item} {r : OpRow} {i : Insn}
    (h : s.decodeOne n it = .ok r i) : readSlot (s.slot n it.ip.toNat) = .ok r i := by
  simp only [State.decodeOne] at h
  split at h
  · cases h
  · rename_i r' i' hr
    split at h
    · cases h
    · cases h; exact hr

theorem charge_die (s : State) (n k c a m : Nat) : (s.charge n k c a).die m = s.die m := by
  unfold State.charge; split <;> rfl

/-- The row of a single instruction attempts the firing of the item that the PE selects. -/
theorem fireOp_attempt {s s1 : State} {n k c : Nat} {it : Item} {op : FOp} {r : OpRow} {i : Insn} (hc : c < 8)
    (h : Begins s s1 n k c it op r i) :
    s.fireOp n k op = s1.attempt (newFiring s1 n k c it) (firing s1 n k c it r i) := by
  obtain ⟨⟨h1, h2, h3⟩, h4, h5, h6, _⟩ := h
  have hs := lowest_none_of_decodeOne h6
  have hb : s1 = (let t := ((s.popHead n k c).noteBad n k c it).beginOn n k it
      (if t.generator n it then t.charge n k c 1 else t).reachCode n (t.graph it.graph.toNat) it.ip.toNat) := h5
  unfold State.fireOp State.fireWhen
  simp only [h1, h2, h3, h4, Bool.not_false, Bool.and_self, if_true, if_false, Bool.false_eq_true]
  unfold State.beginSingle
  simp only [← hb, h6]
  have hf : s1.fireOf n (newFiring s1 n k c it) it.ip.toNat none = some (firing s1 n k c it r i) := by
    have hcol : it.colour.toNat % 4096 = it.colour.toNat := Nat.mod_eq_of_lt it.colour.isLt
    simp [State.fireOf, hs, firing, newFiring, hcol, Nat.mod_eq_of_lt hc]
  show s1.runFiring n (newFiring s1 n k c it) = _
  have hp : (newFiring s1 n k c it).phase = .single := rfl
  have hi : (newFiring s1 n k c it).item.ip.toNat = it.ip.toNat := rfl
  simp only [State.runFiring, hp, hi, hf]

/-- The lane of a selected item is one of the eight. -/
theorem select_lane {s : State} {n k c : Nat} {it : Item} (h : s.select n k = some (c, it)) : c < 8 := by
  unfold State.select at h
  split at h
  · cases h
  · generalize hl : ([0, 1, 2, 3, 4, 5, 6, 7].filterMap (fun c =>
      match (s.lane (laneKey n k c)).head with
      | [] => none
      | it0 :: _ =>
        let it := s.delivered it0
        if (s.lane (laneKey n k c)).diag then none
        else if s.eligible n k c it then some (c, it) else none)) = l at h
    have hl8 : ∀ x ∈ l, x.1 < 8 := by
      intro x hx
      rw [← hl, List.mem_filterMap] at hx
      obtain ⟨a, ha, hx⟩ := hx
      have ha8 : a < 8 := by simp at ha; omega
      split at hx
      · cases hx
      · simp only at hx
        split at hx
        · cases hx
        · split at hx
          · cases hx; exact ha8
          · cases hx
    clear hl
    have key : ∀ (l : List (Nat × Item)) (b : Option (Nat × Item)), (∀ x ∈ l, x.1 < 8) → (∀ x, b = some x → x.1 < 8) →
        ∀ y, l.foldl (fun best x => match best with
        | none => some x
        | some b => if s.rank n k b.1 b.2 < s.rank n k x.1 x.2 then some x else some b) b = some y → y.1 < 8 := by
      intro l
      induction l with
      | nil => intro b _ hb y hy; exact hb y hy
      | cons x xs ih =>
        intro b hl hb y hy
        simp only [List.foldl_cons] at hy
        refine ih _ (fun z hz => hl z (List.mem_cons_of_mem _ hz)) ?_ y hy
        intro z hz
        split at hz
        · cases hz; exact hl x (List.mem_cons_self)
        · split at hz
          · cases hz; exact hl x (List.mem_cons_self)
          · cases hz; exact hb _ rfl
    exact key l none hl8 (by simp) _ h

/-- An attempt whose step 1 ends runs steps 2 to 5. -/
theorem attempt_of_stepOne {s1 : State} {g : Firing} {f : Fire} {v : Vals} {place : Option Place} {x : List PWord} {rs : Rs}
    (hg : g.got = []) (hi : g.item = f.it) (h : StepOne s1 f v place x rs) :
    s1.attempt g f = rs.s.finishFire f (bodyOf f.i.x f.i.op) rs v place x := by
  unfold State.attempt
  simp only [hg, hi]
  unfold StepOne at h
  rw [h]

end Sys2Proof.Machine
end

