-- ==== Sys2Proof/Laws/Parts.lean ====
section
/-! SUPPORT. The parts of State by number: a part just written reads as written, every other part stays; and memory: a read
after a write, and the canonical form. -/

namespace Sys2Proof.Machine

@[simp] theorem queue_setQueue (s : State) (k : Nat) (x) : (s.setQueue k x).queue k = x := tget_tput_same _ _ _
theorem queue_setQueue_other (s : State) {k j : Nat} (x) (h : j ≠ k) : (s.setQueue k x).queue j = s.queue j :=
  tget_tput_other _ _ h

@[simp] theorem lane_setLane (s : State) (k : Nat) (x) : (s.setLane k x).lane k = x := tget_tput_same _ _ _
theorem lane_setLane_other (s : State) {k j : Nat} (x) (h : j ≠ k) : (s.setLane k x).lane j = s.lane j :=
  tget_tput_other _ _ h

@[simp] theorem pe_setPe (s : State) (k : Nat) (x) : (s.setPe k x).pe k = x := tget_tput_same _ _ _
theorem pe_setPe_other (s : State) {k j : Nat} (x) (h : j ≠ k) : (s.setPe k x).pe j = s.pe j :=
  tget_tput_other _ _ h

@[simp] theorem graph_setGraph (s : State) (k : Nat) (x) : (s.setGraph k x).graph k = x := tget_tput_same _ _ _
theorem graph_setGraph_other (s : State) {k j : Nat} (x) (h : j ≠ k) : (s.setGraph k x).graph j = s.graph j :=
  tget_tput_other _ _ h

@[simp] theorem bank_setBank (s : State) (k : Nat) (x) : (s.setBank k x).bank k = x := tget_tput_same _ _ _
theorem bank_setBank_other (s : State) {k j : Nat} (x) (h : j ≠ k) : (s.setBank k x).bank j = s.bank j :=
  tget_tput_other _ _ h

@[simp] theorem latch_setLatch (s : State) (k : Nat) (x) : (s.setLatch k x).latch k = x := tget_tput_same _ _ _
theorem latch_setLatch_other (s : State) {k j : Nat} (x) (h : j ≠ k) : (s.setLatch k x).latch j = s.latch j :=
  tget_tput_other _ _ h

@[simp] theorem qp_setQp (s : State) (k : Nat) (x) : (s.setQp k x).qp k = x := tget_tput_same _ _ _
theorem qp_setQp_other (s : State) {k j : Nat} (x) (h : j ≠ k) : (s.setQp k x).qp j = s.qp j :=
  tget_tput_other _ _ h

@[simp] theorem dom_setDom (s : State) (k : Nat) (x) : (s.setDom k x).dom k = x := tget_tput_same _ _ _
theorem dom_setDom_other (s : State) {k j : Nat} (x) (h : j ≠ k) : (s.setDom k x).dom j = s.dom j :=
  tget_tput_other _ _ h

theorem die_setDie (s : State) (k : Nat) (x) (h : k < s.dies.length) : (s.setDie k x).die k = x :=
  lget_lset_same _ _ _ _ h
theorem die_setDie_other (s : State) {k j : Nat} (x) (h : j ≠ k) : (s.setDie k x).die j = s.die j :=
  lget_lset_other _ _ _ h

theorem dir_setDir (s : State) (k : Nat) (x) (h : k < s.dirs.length) : (s.setDir k x).dir k = x :=
  lget_lset_same _ _ _ _ h
theorem dir_setDir_other (s : State) {k j : Nat} (x) (h : j ≠ k) : (s.setDir k x).dir j = s.dir j :=
  lget_lset_other _ _ _ h

theorem link_setLink (s : State) (k : Nat) (x) (h : k < s.links.length) : (s.setLink k x).link k = x :=
  lget_lset_same _ _ _ _ h
theorem link_setLink_other (s : State) {k j : Nat} (x) (h : j ≠ k) : (s.setLink k x).link j = s.link j :=
  lget_lset_other _ _ _ h

theorem chan_setChan (s : State) (k : Nat) (x) (h : k < s.chans.length) : (s.setChan k x).chan k = x :=
  lget_lset_same _ _ _ _ h
theorem chan_setChan_other (s : State) {k j : Nat} (x) (h : j ≠ k) : (s.setChan k x).chan j = s.chan j :=
  lget_lset_other _ _ _ h

theorem port_setPort (s : State) (k : Nat) (x) (h : k < s.ports.length) : (s.setPort k x).port k = x :=
  lget_lset_same _ _ _ _ h
theorem port_setPort_other (s : State) {k j : Nat} (x) (h : j ≠ k) : (s.setPort k x).port j = s.port j :=
  lget_lset_other _ _ _ h

theorem twk_setTwk (s : State) (k : Nat) (x) (h : k < s.tws.length) : (s.setTwk k x).twk k = x :=
  lget_lset_same _ _ _ _ h
theorem twk_setTwk_other (s : State) {k j : Nat} (x) (h : j ≠ k) : (s.setTwk k x).twk j = s.twk j :=
  lget_lset_other _ _ _ h

/-! ### Memory -/

/-- A read of the word just written. -/
@[simp] theorem rd_wr (s : State) (a : Nat) (w : PWord) : (s.wr a w).rd a = w := tget_tput_same _ _ _

/-- A write leaves every other word alone. -/
theorem rd_wr_other (s : State) {a b : Nat} (w : PWord) (h : b ≠ a) : (s.wr a w).rd b = s.rd b := tget_tput_other _ _ h

/-- Consecutive words: the word at an offset of the block reads as its element. -/
theorem rd_wrs (s : State) (a : Nat) (ws : List PWord) (b : Nat) :
    (s.wrs a ws).rd b = if a ≤ b then (ws[b - a]?).getD (s.rd b) else s.rd b := by
  induction ws generalizing s a with
  | nil => simp [State.wrs]
  | cons w ws ih =>
    simp only [State.wrs]
    rw [ih]
    by_cases h1 : a = b
    · subst h1; simp [show ¬ a + 1 ≤ a by omega]
    · rw [rd_wr_other _ _ (Ne.symm h1)]
      by_cases h2 : a ≤ b
      · have h3 : a + 1 ≤ b := by omega
        have h4 : b - a = (b - (a + 1)) + 1 := by omega
        simp [h2, h3, h4]
      · have h3 : ¬ a + 1 ≤ b := by omega
        simp [h2, h3]

/-- Every write keeps the canonical form of memory. -/
theorem wf_wr {s : State} (h : Memory.wf s.mem = true) (a : Nat) (w : PWord) : Memory.wf (s.wr a w).mem = true :=
  twf_tput h _ _

theorem wf_wrs {s : State} (h : Memory.wf s.mem = true) (a : Nat) (ws : List PWord) : Memory.wf (s.wrs a ws).mem = true := by
  induction ws generalizing s a with
  | nil => exact h
  | cons w ws ih => exact ih (wf_wr h a w) _

/-- The loss of a bank's contents keeps the canonical form (R227). -/
theorem wf_loseBank {s : State} (h : Memory.wf s.mem = true) (b : Nat) : Memory.wf (s.loseBank b).mem = true := by
  unfold State.loseBank
  split
  all_goals first | exact h | exact twf_tclear _ _ h

/-- The emptying of a die's stores keeps it (R403). -/
theorem wf_emptyDie {s : State} (h : Memory.wf s.mem = true) (n : Nat) : Memory.wf (s.emptyDie n).mem = true :=
  twf_tclear _ _ (twf_tclear _ _ h)

/-- The scrub of a DDR channel keeps it (R403). -/
theorem wf_scrub {s : State} (h : Memory.wf s.mem = true) (m : Nat) :
    Memory.wf (s.mem.filter (fun p => !(decide (p.1 < s.ddrWords) && s.ddrChannel p.1 == some m))) = true := twf_filter _ h

/-- A die's part that a change of a die keeps is kept on every die. -/
theorem updDie_keeps {α : Type} (part : Die → α) (s : State) (n m : Nat) (f : Die → Die)
    (h : ∀ d, part (f d) = part d) : part ((s.updDie n f).die m) = part (s.die m) := by
  by_cases hm : m = n
  · subst hm
    by_cases hl : m < s.dies.length
    · unfold State.updDie
      rw [die_setDie s m _ hl, h]
    · have : (s.updDie m f).dies = s.dies := by
        unfold State.updDie State.setDie lset
        exact List.set_eq_of_length_le (by omega)
      unfold State.die
      rw [this]
  · unfold State.updDie
    rw [die_setDie_other s _ hm]

/-- The frame words that a die shows are kept by a change that keeps its write buffer. -/
theorem updDie_frameRd (s : State) (n m off : Nat) (f : Die → Die) (h : ∀ d, (f d).wbuf = d.wbuf) :
    (s.updDie n f).frameRd m off = s.frameRd m off := by
  unfold State.frameRd
  rw [updDie_keeps (fun d => d.wbuf) s n m f h]
  rfl

end Sys2Proof.Machine
end

