-- ==== Sys2Proof/Laws/Reader.lean ====
section
/-! SUPPORT. The reader of step 1 (R58): its monad laws, and step 1 with direct operands (R80, R81). -/

namespace Sys2Proof.Machine

/-- A reader run from a state of step 1. -/
def Rd.go {α : Type} (m : Rd α) (r : Rs) : Except Stop α × Rs := m.run.run r

theorem Rd.go_pure {α : Type} (a : α) (r : Rs) : Rd.go (pure a) r = (.ok a, r) := rfl

theorem Rd.go_throw {α : Type} (e : Stop) (r : Rs) : Rd.go (throw e : Rd α) r = (.error e, r) := rfl

theorem Rd.go_bind {α β : Type} (m : Rd α) (f : α → Rd β) (r : Rs) :
    Rd.go (m >>= f) r = match Rd.go m r with
      | (.ok a, r1) => Rd.go (f a) r1
      | (.error e, r1) => (.error e, r1) := by
  show (ExceptT.bind m f).run.run r = _
  simp only [Rd.go, ExceptT.bind, ExceptT.mk, ExceptT.run, StateT.run]
  show (StateT.bind m (ExceptT.bindCont f)) r = _
  simp only [StateT.bind]
  generalize hm : m r = p
  obtain ⟨e, r1⟩ := p
  cases e <;> simp [ExceptT.bindCont, bind, Id] <;> rfl

theorem Rd.go_bind_ok {α β : Type} {m : Rd α} {f : α → Rd β} {r r1 : Rs} {a : α} (h : Rd.go m r = (.ok a, r1)) :
    Rd.go (m >>= f) r = Rd.go (f a) r1 := by rw [Rd.go_bind, h]

theorem Rd.go_bind_error {α β : Type} {m : Rd α} {f : α → Rd β} {r r1 : Rs} {e : Stop} (h : Rd.go m r = (.error e, r1)) :
    Rd.go (m >>= f) r = (.error e, r1) := by rw [Rd.go_bind, h]

theorem Rd.go_state (r : Rs) : Rd.go Rd.state r = (.ok r.s, r) := rfl
theorem Rd.go_put (s : State) (r : Rs) : Rd.go (Rd.put s) r = (.ok (), { r with s := s }) := rfl
theorem Rd.go_note (s : State) (a : Ans) (r : Rs) : Rd.go (Rd.note s a) r = (.ok (), { r with s := s, got := r.got ++ [a] }) := rfl
theorem Rd.go_modify (f : Rs → Rs) (r : Rs) : Rd.go (modify f : Rd Unit) r = (.ok (), f r) := rfl
theorem Rd.go_replay_nil {r : Rs} (h : r.old = []) : Rd.go Rd.replay r = (.ok none, r) := by
  obtain ⟨s, old, got, vals, pins⟩ := r; subst h; rfl

/-- A read of the own Frame Store by a bank that serves it (R229). -/
theorem go_rdLocal {n off : Nat} {r : Rs} (h : r.old = []) (hb : r.s.bankState (n * 256 + off / 131072) = 0) :
    Rd.go (rdLocal n off) r = (.ok (r.s.frameRd n off), { r with got := r.got ++ [.word (r.s.frameRd n off)] }) := by
  unfold rdLocal
  rw [Rd.go_bind_ok (Rd.go_replay_nil h)]
  simp only []
  rw [Rd.go_bind_ok (Rd.go_state r)]
  have : r.s.access (n * 256 + off / 131072) = (r.s, .served) := by simp [State.access, hb]
  simp only [this]
  rw [Rd.go_bind_ok (Rd.go_note _ _ _)]
  rfl

/-- The value of a direct operand: a token value or an immediate (R80, R81). -/
theorem go_rdSpec_direct {f : Fire} {pos : Nat} {sp : Spec} {w : PWord} (h : Safety.direct f.it pos sp = some w) (r : Rs) :
    Rd.go (rdSpec f pos sp) r = (.ok w, r) := by
  unfold Safety.direct at h
  unfold rdSpec
  cases hm : sp.m <;> simp only [hm] at h ⊢ <;> cases h <;> rfl

theorem go_rdOperand {f : Fire} {pos : Nat} {sp : Spec} {w : PWord} {r r1 : Rs} (h : Rd.go (rdSpec f pos sp) r = (.ok w, r1)) :
    Rd.go (rdOperand f pos sp) r = (.ok w, { r1 with vals := lset r1.vals pos w }) := by
  unfold rdOperand
  rw [Rd.go_bind_ok h, Rd.go_bind_ok (Rd.go_modify _ _)]
  rfl

theorem go_selector_ok {b : Body} {pos : Nat} {w : PWord} (h : w.p = false) (r : Rs) :
    Rd.go (Rd.selector b pos w) r = (.ok (), r) := by
  simp [Rd.selector, h]; rfl

/-- Step 1 with direct operands is the opcode's further reads, after G13. -/
theorem go_stepOne_direct {s1 : State} {f : Fire} {b : Body} {a w : PWord} {vals : List PWord}
    (hg : Safety.G13Ready s1 f) (hd : Safety.DirectOperands s1 f a w) (ha : a.p = false) (hw : w.p = false) :
    ∃ vals', Rd.go (stepOne f b) (Rs.start s1 [] vals) =
      match Rd.go (b.extra f { a := a, b := w, d := PWord.zero, g13 := (Safety.g13 s1 f).v, link := none })
          { s := s1, old := [], got := [.word (Safety.g13 s1 f)], vals := vals', pins := [] } with
      | (.ok x, r) =>
        (.ok ({ a := a, b := w, d := PWord.zero, g13 := (Safety.g13 s1 f).v, link := none }, none, x), r)
      | (.error e, r) => (.error e, r) := by
  obtain ⟨hA, hB, hD, hL⟩ := hd
  obtain ⟨hg1, hg2⟩ := hg
  have hin : (f.i.fmt = .t3 && decide (f.r.d = .input)) = false := by
    cases hf : f.i.fmt <;> simp [hf] at hD ⊢; exact hD.1
  have hout : (f.i.fmt == .t3 && (f.r.d == .out1 || f.r.d == .out2) && f.i.d != Spec.unused) = false := by
    cases hf : f.i.fmt <;> simp [hf] at hD ⊢; simp [hD.2]
  have hA' := fun r => go_rdOperand (go_rdSpec_direct hA r)
  unfold stepOne
  rw [Rd.go_bind_ok (Rd.go_state _)]
  simp only [hg1, if_true, hin, hout, Bool.false_eq_true, if_false, Rs.start]
  rw [Rd.go_bind_ok (go_rdLocal rfl hg2), Rd.go_bind_ok (hA' _), Rd.go_bind_ok (go_selector_ok ha _)]
  by_cases htw : f.i.fmt = .tw
  · simp only [htw, if_true] at hB ⊢
    subst hB
    refine ⟨lset (lset vals 0 a) 1 (PWord.clean (sextWord 32 f.i.lit)), ?_⟩
    simp only [Rd.go_bind, Rd.go_modify, Rd.go_pure, go_selector_ok hw, Rd.go_state, Bool.and_false, Bool.false_eq_true,
      if_false, go_selector_ok (show PWord.zero.p = false from rfl), hL]
    simp only [List.nil_append, Safety.g13]
    generalize Rd.go (b.extra _ _) _ = p
    obtain ⟨e, r⟩ := p
    cases e <;> rfl
  · simp only [htw, if_false] at hB ⊢
    by_cases hu : f.r.useB = true
    · simp only [hu, if_true] at hB ⊢
      refine ⟨lset (lset vals 0 a) 1 w, ?_⟩
      simp only [Rd.go_bind, go_rdOperand (go_rdSpec_direct hB _), Rd.go_pure, go_selector_ok hw, Rd.go_state, hw,
        Bool.and_false, Bool.false_eq_true, if_false, go_selector_ok (show PWord.zero.p = false from rfl), hL]
      simp only [List.nil_append, Safety.g13]
      generalize Rd.go (b.extra _ _) _ = p
      obtain ⟨e, r⟩ := p
      cases e <;> rfl
    · simp only [hu, Bool.false_eq_true, if_false] at hB ⊢
      subst hB
      refine ⟨lset vals 0 a, ?_⟩
      simp only [Rd.go_bind, Rd.go_pure, go_selector_ok (show PWord.zero.p = false from rfl), Rd.go_state,
        show PWord.zero.p = false from rfl, Bool.and_false, Bool.false_eq_true, if_false, hL]
      simp only [List.nil_append, Safety.g13]
      generalize Rd.go (b.extra _ _) _ = p
      obtain ⟨e, r⟩ := p
      cases e <;> rfl

end Sys2Proof.Machine
end

