-- ==== Sys2Proof/Laws/Registers.lean ====
section
/-! SUPPORT. Register accesses (R8, R9, R449, R451): byte enables, the latch window, and an accepted full write. -/

namespace Sys2Proof.Machine

theorem sum_of_bytes (v a b c d : Nat) (h : v < 4294967296) (ha : a = v % 256) (hb : b = v / 256 % 256)
    (hc : c = v / 65536 % 256) (hd : d = v / 16777216 % 256) :
    0 + a * 1 + b * 256 + c * 65536 + d * 16777216 = v := by omega

theorem enabled_lane (v a i x : Nat) (h : bitOf 15 i = true) (hx : 8 * i = x) :
    (if bitOf 15 i then a + bitsOf v (8 * i) 8 * 2 ^ (8 * i) else a) = a + bitsOf v x 8 * 2 ^ x := by rw [if_pos h, hx]

/-- With all byte lanes enabled a value passes whole. -/
theorem enabled_full (v : Nat) (h : v < 4294967296) : enabled 15 v = v := by
  unfold enabled
  rw [show List.range 4 = [0, 1, 2, 3] from rfl, List.foldl_cons, enabled_lane v _ 0 0 rfl rfl, List.foldl_cons,
    enabled_lane v _ 1 8 rfl rfl, List.foldl_cons, enabled_lane v _ 2 16 rfl rfl, List.foldl_cons,
    enabled_lane v _ 3 24 rfl rfl, List.foldl_nil]
  refine sum_of_bytes v _ _ _ _ h ?_ ?_ ?_ ?_ <;>
    simp only [bitsOf, Nat.shiftRight_eq_div_pow, Nat.reducePow, Nat.div_one]

/-- The latch window of the PF (R249). -/
theorem busTarget_latch_pf (off k : Nat) (h : off = 2359296 + 4 * k) (hk : k < 4096) : busTarget 0 off = .latch k := by
  unfold busTarget
  have h0 : off / 4 * 4 = off := by omega
  simp only [h0, if_true]
  rw [if_pos ⟨by omega, by omega⟩]
  congr 1; omega

/-- The latch window of a VF (R249, R451). -/
theorem busTarget_latch_vf (fn off k : Nat) (hf : fn ≠ 0) (h : off = 65536 + 4 * k) (hk : k < 4096) :
    busTarget fn off = .latch k := by
  unfold busTarget
  have h0 : off / 4 * 4 = off := by omega
  simp only [h0, hf, if_false]
  rw [if_neg (by omega), if_neg (by omega), if_neg (by omega), if_neg (by omega), if_neg (by omega), if_pos (by omega)]
  congr 1; omega

end Sys2Proof.Machine
end

