-- ==== Sys2Proof/Laws/All.lean ====
section
/-! SUPPORT. Every law of the model. -/
end

