-- ==== Sys2Proof/Tests/Slice0.lean ====
section
/-! SUPPORT. Tests: small facts of one command each, with values taken from the spec's tables and examples or worked out by
hand from its rules; the well-formedness checks with an ill-formed command for each; and, for every statement of the
certificates, a witness that meets its hypotheses, clause by clause. -/

namespace Sys2Proof.Tests

open Sys2Proof Sys2Proof.Machine Sys2Proof.Safety

set_option Elab.async false

/-! ### Small states -/

/-- A ready state: the start is over, the link to the host up. -/
def ready : State := { State.reset with start := { Start.reset with state := 1, vstby := true }, pcieUp := true }

/-- A die that is up at 2.2 GHz. -/
def upDie : Die := { Die.reset with up := true, freq := 22, figs := [0, 0, 0] }

/-- L0 is up and its banks serve. -/
def oneDie : State :=
  { ready with dies := upDie :: List.replicate 5 Die.reset,
               doms := ([0, 1, 2, 3, 4, 5, 6, 7, 60, 64, 65, 66, 67, 68, 69] : List Nat).map (fun d => (d, { Dom.reset with state := 1 })),
               banks := (List.range 144).map (fun b => (b, { Bank.reset with state := 0 })) }

/-- A graph of one code block in slots 1 to 8, RUNNING, owned by the PF. -/
def aGraph : Graph :=
  { Graph.reset with state := .running, active := 1, base := 1, slots := 8, ceil := 7, owner := 0,
                     blocks := [{ entry := 0, len := 8, pool := 0, poolLen := 0, frame := 32 }] }

def tok : Spec := { m := .tok, f := 0 }
def imm (x : Nat) : Spec := { m := .imm, f := x }

/-- An item of context 4 for slot 1 of graph 1 with token operands. -/
def item (mask : BitVec 3) (a b d : PWord) : Item :=
  { cid := 4, colour := 0, ip := 1, cls := 0, pmask := mask, kind := 0, ovf := false, remote := false, v0 := a, v1 := b,
    v2 := d, n := 0, nxt := 0, graph := 1, bad := 0 }

/-- L0 with an instruction in slot 1 and an item at the head of lane 0 of PE 0. -/
def withInsn (i : Insn) (it : Item) : State :=
  { oneDie with istore := [(1, encodeInsn i)], graphs := [(1, aGraph)],
                lanes := [(laneKey 0 0 0, { Lane.empty with head := [it] })] }

/-! ### A firing of one instruction -/

/-- The row of an opcode. -/
def rowOf (op : FOp) : OpRow := (opRows.find? (fun r => r.op == op)).getD ⟨0, op, false, [], false, .none, 1⟩

/-- An opcode with token operands, in its widest format without a list. -/
def plain (op : FOp) : Insn :=
  let r := rowOf op
  { op := op, x := r.x, fmt := r.fmts.headD .t3, a := tok, b := if r.useB then tok else Spec.unused,
    d := if r.d = .input then tok else Spec.unused, lit := 0, ptr := 0 }

/-- The item that carries the tokens of `plain op`. -/
def plainItem (op : FOp) (a b d : Nat) : Item :=
  let r := rowOf op
  item (BitVec.ofNat 3 (1 + (if r.useB then 2 else 0) + (if r.d = .input then 4 else 0)))
    (.clean (BitVec.ofNat 36 a)) (if r.useB then .clean (BitVec.ofNat 36 b) else PWord.zero)
    (if r.d = .input then .clean (BitVec.ofNat 36 d) else PWord.zero)

/-- Step 1 of a firing, run. -/
def stepOneOf (s1 : State) (f : Fire) : Except Stop (Vals × Option Place × List PWord) × Rs :=
  (stepOne f (bodyOf f.i.x f.i.op)).run.run (Rs.start s1 [] (tokenVals f.it))

/-- Step 1 ends with its operands, no flag traps, and the D words can be written. -/
def steps (s1 : State) (f : Fire) (out : State → Fire → Vals → List PWord → Option FOut) : Bool :=
  match stepOneOf s1 f with
  | (.ok (v, place, x), rs) =>
    (match out rs.s f v x with
     | some o => decide (trapCause v.g13 (fireFlags f v o.fl) = none) &&
        (match Claims.step3 rs.s f v o place with | .ok _ => true | .error _ => false)
     | none => false)
  | (.error _, _) => false

theorem of_steps {s1 : State} {f : Fire} {out : State → Fire → Vals → List PWord → Option FOut} (h : steps s1 f out = true) :
    ∃ (v : Vals) (place : Option Place) (x : List PWord) (rs : Rs) (o : FOut) (t : State),
      StepOne s1 f v place x rs ∧ out rs.s f v x = some o ∧ trapCause v.g13 (fireFlags f v o.fl) = none ∧
      Claims.step3 rs.s f v o place = .ok t := by
  unfold steps at h
  generalize hs : stepOneOf s1 f = q at h
  obtain ⟨e, rs⟩ := q
  rcases e with e | ⟨v, place, x⟩
  · cases h
  simp only [] at h
  generalize ho : out rs.s f v x = oo at h
  cases oo with
  | none => cases h
  | some o =>
    simp only [Bool.and_eq_true, decide_eq_true_eq] at h
    obtain ⟨ht, hw⟩ := h
    generalize hp : Claims.step3 rs.s f v o place = w at hw
    cases w with
    | error _ => cases hw
    | ok t => exact ⟨v, place, x, rs, o, t, hs, ho, ht, hp⟩

/-- The firing of PE 0 of L0 in lane 0 begins, decodes and steps. -/
def fires (s : State) (it : Item) (op : FOp) (r : OpRow) (i : Insn)
    (out : State → Fire → Vals → List PWord → Option FOut) : Bool :=
  (decide (s.select 0 0 = some (0, it)) && !it.broken && !s.discards it && wantOp 0 op s it &&
    decide ((begun s 0 0 0 it).decodeOne 0 it = .ok r i) && decide (i.op = op)) &&
  steps (begun s 0 0 0 it) (firing (begun s 0 0 0 it) 0 0 0 it r i) out

theorem of_fires {s : State} {it : Item} {op : FOp} {r : OpRow} {i : Insn}
    {out : State → Fire → Vals → List PWord → Option FOut} (h : fires s it op r i out = true) :
    ∃ (s1 : State) (v : Vals) (place : Option Place) (x : List PWord) (rs : Rs) (o : FOut) (t : State),
      Begins s s1 0 0 0 it op r i ∧ StepOne s1 (firing s1 0 0 0 it r i) v place x rs ∧
      out rs.s (firing s1 0 0 0 it r i) v x = some o ∧
      trapCause v.g13 (fireFlags (firing s1 0 0 0 it r i) v o.fl) = none ∧
      Claims.step3 rs.s (firing s1 0 0 0 it r i) v o place = .ok t := by
  unfold fires at h
  simp only [Bool.and_eq_true, decide_eq_true_eq, Bool.not_eq_true'] at h
  obtain ⟨⟨⟨⟨⟨⟨h1, h2⟩, h3⟩, h4⟩, h5⟩, h6⟩, hm⟩ := h
  obtain ⟨v, place, x, rs, o, t, hr⟩ := of_steps hm
  exact ⟨_, v, place, x, rs, o, t, ⟨⟨h1, h2, h3⟩, h4, rfl, h5, h6⟩, hr⟩

/-- The integer rows. -/
def integers : List (Instr × FOp) :=
  [(.add 0 0, .add), (.sub 0 0, .sub), (.neg 0 0, .neg), (.mul 0 0, .mul), (.mulw 0 0, .mulw), (.mulwu 0 0, .mulwu), (.div 0 0, .div),
   (.divu 0 0, .divu), (.min 0 0, .min), (.max 0 0, .max), (.minu 0 0, .minu), (.maxu 0 0, .maxu), (.and 0 0, .and), (.or 0 0, .or),
   (.xor 0 0, .xor), (.andn 0 0, .andn), (.not 0 0, .not), (.shl 0 0, .shl), (.shr 0 0, .shr), (.sar 0 0, .sar), (.rol 0 0, .rol),
   (.ror 0 0, .ror), (.popc 0 0, .popc), (.clz 0 0, .clz), (.ceq 0 0, .ceq), (.cne 0 0, .cne), (.clt 0 0, .clt), (.cle 0 0, .cle),
   (.cltu 0 0, .cltu), (.cleu 0 0, .cleu), (.mov 0 0, .mov)]

/-- IntegerFirings: every row of the family meets the hypotheses with A = 2 and B = 3. -/
theorem witness_IntegerFirings : ∀ p ∈ integers, Claims.integer p.1 = some (0, 0, p.2) ∧
    ∃ (s s1 : State) (it : Item) (r : OpRow) (i : Insn) (v : Vals) (place : Option Place) (x : List PWord) (rs : Rs) (t : State),
      Begins s s1 0 0 0 it p.2 r i ∧ StepOne s1 (firing s1 0 0 0 it r i) v place x rs ∧
      trapCause v.g13 (fireFlags (firing s1 0 0 0 it r i) v
        (Claims.poisonedBy (v.a.p || v.b.p || v.d.p) (Claims.intResult p.2 v.a.v v.b.v)).fl) = none ∧
      Claims.step3 rs.s (firing s1 0 0 0 it r i) v
        (Claims.poisonedBy (v.a.p || v.b.p || v.d.p) (Claims.intResult p.2 v.a.v v.b.v)) place = .ok t := by
  have h : integers.all (fun p => decide (Claims.integer p.1 = some (0, 0, p.2)) &&
      fires (withInsn (plain p.2) (plainItem p.2 2 3 0)) (plainItem p.2 2 3 0) p.2 (rowOf p.2) (plain p.2)
        (fun _ _ v _ => some (Claims.poisonedBy (v.a.p || v.b.p || v.d.p) (Claims.intResult p.2 v.a.v v.b.v)))) = true := by
    decide +kernel
  intro p hp
  have hq := List.all_eq_true.mp h p hp
  simp only [Bool.and_eq_true, decide_eq_true_eq] at hq
  obtain ⟨s1, v, place, x, rs, o, t, hB, hS, ho, ht, hw⟩ := of_fires hq.2
  cases ho
  exact ⟨hq.1, _, s1, _, _, _, v, place, x, rs, t, hB, hS, ht, hw⟩

/-- RouteFirings: every row of the family meets the hypotheses, with the control value 0 and with 1. -/
theorem witness_RouteFirings : ∀ p ∈ ([(.adc 0 0, .adc), (.sbc 0 0, .sbc), (.steer 0 0, .steer), (.select 0 0, .select), (.gate 0 0, .gate)] : List (Instr × FOp)), ∀ x ∈ [0, 1], Claims.routing p.1 = some (0, 0, p.2) ∧
    ∃ (s s1 : State) (it : Item) (r : OpRow) (i : Insn) (v : Vals) (place : Option Place) (y : List PWord) (rs : Rs) (o : FOut)
      (t : State),
      Begins s s1 0 0 0 it p.2 r i ∧ StepOne s1 (firing s1 0 0 0 it r i) v place y rs ∧
      Claims.routeOut p.2 v.a v.b v.d = some o ∧ trapCause v.g13 (fireFlags (firing s1 0 0 0 it r i) v o.fl) = none ∧
      Claims.step3 rs.s (firing s1 0 0 0 it r i) v o place = .ok t := by
  have h : ([(.adc 0 0, .adc), (.sbc 0 0, .sbc), (.steer 0 0, .steer), (.select 0 0, .select), (.gate 0 0, .gate)] : List (Instr × FOp)).all (fun p => [0, 1].all (fun x => decide (Claims.routing p.1 = some (0, 0, p.2)) &&
      fires (withInsn (plain p.2) (plainItem p.2 2 x x)) (plainItem p.2 2 x x) p.2 (rowOf p.2) (plain p.2)
        (fun _ _ v _ => Claims.routeOut p.2 v.a v.b v.d))) = true := by decide +kernel
  intro p hp x hx
  have hq := List.all_eq_true.mp (List.all_eq_true.mp h p hp) x hx
  simp only [Bool.and_eq_true, decide_eq_true_eq] at hq
  obtain ⟨s1, v, place, y, rs, o, t, hB, hS, ho, ht, hw⟩ := of_fires hq.2
  exact ⟨hq.1, _, s1, _, _, _, v, place, y, rs, o, t, hB, hS, ho, ht, hw⟩

/-- The floating-point and conversion rows. -/
def floats : List (Instr × FOp) :=
  [(.fadd 0 0, .fadd), (.fsub 0 0, .fsub), (.fmul 0 0, .fmul), (.ffma 0 0, .ffma), (.fdiv 0 0, .fdiv), (.fsqrt 0 0, .fsqrt), (.fmin 0 0, .fmin),
   (.fmax 0 0, .fmax), (.fceq 0 0, .fceq), (.fclt 0 0, .fclt), (.fcle 0 0, .fcle), (.fcun 0 0, .fcun), (.cvtfi 0 0, .cvtfi), (.cvtfu 0 0, .cvtfu),
   (.cvtif 0 0, .cvtif), (.cvtuf 0 0, .cvtuf), (.fneg 0 0, .fneg), (.fabs 0 0, .fabs), (.cvtXS 0 0, .cvtXS), (.cvtSX 0 0, .cvtSX)]

/-- FloatFirings: every row of the family meets the hypotheses, on words that hold 1.0 in format S. -/
theorem witness_FloatFirings : ∀ p ∈ floats, Claims.floating p.1 = some (0, 0, p.2) ∧
    ∃ (s s1 : State) (it : Item) (r : OpRow) (i : Insn) (v : Vals) (place : Option Place) (x : List PWord) (rs : Rs) (o : FOut)
      (t : State),
      Begins s s1 0 0 0 it p.2 r i ∧ StepOne s1 (firing s1 0 0 0 it r i) v place x rs ∧
      o = Claims.poisonedBy (v.a.p || v.b.p || v.d.p) (Claims.floatResult p.2 i.x v.a.v v.b.v v.d.v v.g13) ∧
      trapCause v.g13 (fireFlags (firing s1 0 0 0 it r i) v o.fl) = none ∧
      Claims.step3 rs.s (firing s1 0 0 0 it r i) v o place = .ok t := by
  have h : floats.all (fun p => decide (Claims.floating p.1 = some (0, 0, p.2)) &&
      fires (withInsn (plain p.2) (plainItem p.2 0x3F800000 0x3F800000 0x3F800000)) (plainItem p.2 0x3F800000 0x3F800000 0x3F800000)
        p.2 (rowOf p.2) (plain p.2) (fun _ f v _ => some (Claims.poisonedBy (v.a.p || v.b.p || v.d.p)
          (Claims.floatResult p.2 f.i.x v.a.v v.b.v v.d.v v.g13)))) = true := by decide +kernel
  intro p hp
  have hq := List.all_eq_true.mp h p hp
  simp only [Bool.and_eq_true, decide_eq_true_eq] at hq
  obtain ⟨s1, v, place, x, rs, o, t, hB, hS, ho, ht, hw⟩ := of_fires hq.2
  cases ho
  exact ⟨hq.1, _, s1, _, _, _, v, place, x, rs, _, t, hB, hS, rfl, ht, hw⟩

/-- The context rows with operand values at the ends of what R118-R121, R124 and R130 allow: PRIO 7, a CALL whose list in slot
2 has a continuation and one argument, an EMIT of one word, a SEND to the own package. -/
def contexts : List (Instr × FOp × Insn × Item) := [
  (.self 0 0, .self, plain .self, plainItem .self 0 0 0),
  (.prio 0 0, .prio, plain .prio, plainItem .prio 7 0 0),
  (.send 0 0, .send, plain .send, plainItem .send 8 5 0x200001),
  (.ret 0 0, .ret, plain .ret, plainItem .ret 8 0 0),
  (.call 0 0, .call, { plain .call with ptr := 2 }, plainItem .call 9 1 2),
  (.emit 0 0, .emit, { plain .emit with lit := 15 }, plainItem .emit 1000 77 0),
  (.brk 0 0, .brk, plain .brk, plainItem .brk 8 0 0)]

def withCall (i : Insn) (it : Item) : State :=
  { withInsn i it with istore := [(1, encodeInsn i), (2, mkSlot 2 0x1100003)] }

/-- ContextFirings: every row of the family meets the hypotheses. -/
theorem witness_ContextFirings : ∀ p ∈ contexts, Claims.context p.1 = some (0, 0, p.2.1) ∧
    ∃ (s s1 : State) (r : OpRow) (v : Vals) (place : Option Place) (x : List PWord) (rs : Rs) (o : FOut) (t : State),
      Begins s s1 0 0 0 p.2.2.2 p.2.1 r p.2.2.1 ∧ StepOne s1 (firing s1 0 0 0 p.2.2.2 r p.2.2.1) v place x rs ∧
      Claims.contextOut p.2.1 rs.s (firing s1 0 0 0 p.2.2.2 r p.2.2.1) v x = some o ∧
      trapCause v.g13 (fireFlags (firing s1 0 0 0 p.2.2.2 r p.2.2.1) v o.fl) = none ∧
      Claims.step3 rs.s (firing s1 0 0 0 p.2.2.2 r p.2.2.1) v o place = .ok t := by
  have h : contexts.all (fun p => decide (Claims.context p.1 = some (0, 0, p.2.1)) &&
      fires (withCall p.2.2.1 p.2.2.2) p.2.2.2 p.2.1 (rowOf p.2.1) p.2.2.1 (Claims.contextOut p.2.1)) = true := by
    decide +kernel
  intro p hp
  have hq := List.all_eq_true.mp h p hp
  simp only [Bool.and_eq_true, decide_eq_true_eq] at hq
  obtain ⟨s1, v, place, x, rs, o, t, hB, hS, ho, ht, hw⟩ := of_fires hq.2
  exact ⟨hq.1, _, s1, _, v, place, x, rs, o, t, hB, hS, ho, ht, hw⟩

/-- RequestFirings: the latch opcodes on latch 4,095, FALLOC and FFREE. -/
theorem witness_RequestFirings : ∀ op ∈ [FOp.ltbAcq, .ltbRel, .falloc, .ffree],
    Begins (withInsn (plain op) (plainItem op 4095 0 0))
      (begun (withInsn (plain op) (plainItem op 4095 0 0)) 0 0 0 (plainItem op 4095 0 0)) 0 0 0 (plainItem op 4095 0 0) op
      (rowOf op) (plain op) ∧
    G13Ready (begun (withInsn (plain op) (plainItem op 4095 0 0)) 0 0 0 (plainItem op 4095 0 0))
      (firing (begun (withInsn (plain op) (plainItem op 4095 0 0)) 0 0 0 (plainItem op 4095 0 0)) 0 0 0
        (plainItem op 4095 0 0) (rowOf op) (plain op)) ∧
    DirectOperands (begun (withInsn (plain op) (plainItem op 4095 0 0)) 0 0 0 (plainItem op 4095 0 0))
      (firing (begun (withInsn (plain op) (plainItem op 4095 0 0)) 0 0 0 (plainItem op 4095 0 0)) 0 0 0
        (plainItem op 4095 0 0) (rowOf op) (plain op)) (.clean 4095) (.clean 0) := by
  simp only [Begins, Picks, G13Ready, DirectOperands, true_and]
  decide +kernel

def prefixOf (u : Bool) : FOp := if u then .repU else .repI

/-- A pair in slots 1 and 2: a prefix with a token count, and ADD of the index and 3. -/
def aPair (u : Bool) : List (Nat × Slot) :=
  [(1, encodeInsn (plain (prefixOf u))),
   (2, encodeInsn { plain .add with a := { m := .itx, f := 0 }, b := imm 3 })]

def withPair (u : Bool) (it : Item) : State := { withInsn (plain .add) it with istore := aPair u }

/-- A pair of 4,096 repetitions before its last one. -/
def aRun (u : Bool) : RepRun := { Claims.pairOf (item 1 (.clean 4096) PWord.zero PWord.zero) 0 u 4096 with next := 4095 }
def running (u : Bool) : State := { withPair u (aRun u).item with lanes := [], pes := [(peKey 0 0, { Pe.reset with runs := [aRun u] })] }
def addTok : Insn := { plain .add with b := imm 3 }
def addItx : Insn := { plain .add with a := { m := .itx, f := 0 }, b := imm 3 }

/-- RepeatedPairs, first part: the last of 4,096 repetitions of either prefix. -/
theorem witness_RepeatedPairs : ∀ u ∈ [false, true], ∃ (v : Vals) (place : Option Place) (x : List PWord) (rs : Rs) (t : State),
    ((running u).pe (peKey 0 0)).runs = [aRun u] ∧ (aRun u).unbroken = u ∧ ((running u).die 0).stopped = false ∧
    (running u).repGate 0 0 (aRun u) = .go ∧
    readSlot ((Claims.repeating (running u) 0 0 (aRun u)).slot 0 2) = .ok (rowOf .add) addItx ∧
    StepOne (Claims.repeating (running u) 0 0 (aRun u))
      (Claims.repetition (Claims.repeating (running u) 0 0 (aRun u)) 0 0 (aRun u) (rowOf .add) addItx) v place x rs ∧
    trapCause v.g13 (fireFlags (Claims.repetition (Claims.repeating (running u) 0 0 (aRun u)) 0 0 (aRun u) (rowOf .add) addItx) v
      (Claims.poisonedBy (v.a.p || v.b.p || v.d.p) (Claims.intResult .add v.a.v v.b.v)).fl) = none ∧
    Claims.step3 rs.s (Claims.repetition (Claims.repeating (running u) 0 0 (aRun u)) 0 0 (aRun u) (rowOf .add) addItx) v
      (Claims.poisonedBy (v.a.p || v.b.p || v.d.p) (Claims.intResult .add v.a.v v.b.v)) place = .ok t := by
  have h : [false, true].all (fun u => decide (((running u).pe (peKey 0 0)).runs = [aRun u] ∧ (aRun u).unbroken = u ∧
      ((running u).die 0).stopped = false ∧ (running u).repGate 0 0 (aRun u) = .go ∧
      readSlot ((Claims.repeating (running u) 0 0 (aRun u)).slot 0 2) = .ok (rowOf .add) addItx) &&
      steps (Claims.repeating (running u) 0 0 (aRun u))
        (Claims.repetition (Claims.repeating (running u) 0 0 (aRun u)) 0 0 (aRun u) (rowOf .add) addItx)
        (fun _ _ v _ => some (Claims.poisonedBy (v.a.p || v.b.p || v.d.p) (Claims.intResult .add v.a.v v.b.v)))) = true := by
    decide +kernel
  intro u hu
  have hq := List.all_eq_true.mp h u hu
  simp only [Bool.and_eq_true, decide_eq_true_eq] at hq
  obtain ⟨v, place, x, rs, o, t, hS, ho, ht, hw⟩ := of_steps hq.2
  cases ho
  exact ⟨v, place, x, rs, t, hq.1.1, hq.1.2.1, hq.1.2.2.1, hq.1.2.2.2.1, hq.1.2.2.2.2, hS, ht, hw⟩

/-- RepeatedPairs, second part: counts 0, 1 and 2,047 of either prefix, and 4,096 in a frame word. -/
theorem witness_RepeatedPairs_taken : ∀ p ∈ [(false, imm 0), (true, imm 0), (false, imm 1), (true, imm 2047),
      (true, { m := .frm, f := 3 }), (false, { m := .frm, f := 3 })],
    let it := item 1 (.clean 8) PWord.zero PWord.zero
    let pre := { plain (prefixOf p.1) with a := p.2 }
    let s := { withPair p.1 it with istore := [(1, encodeInsn pre), (2, encodeInsn addTok)], mem := [(frameWord 0 3, .clean 4096)] }
    let s1 := Claims.pairBegun s 0 0 0 it
    (s.pe (peKey 0 0)).runs = [] ∧ s.select 0 0 = some (0, it) ∧ it.broken = false ∧ s.discards it = false ∧
    wantOp 0 (prefixOf p.1) s it = true ∧ (((s.popHead 0 0 0).noteBad 0 0 0 it).beginOn 0 0 it).isPair 0 1 = true ∧
    ((s1.graph it.graph.toNat).state ≠ .parked ∧ s1.discards it = false) ∧
    readSlot (s1.slot 0 1) = .ok (rowOf (prefixOf p.1)) pre ∧
    s1.decodePair 0 it = .ok (rowOf .add) addTok ∧ readSlot (s1.slot 0 2) = .ok (rowOf .add) addTok ∧
    (match (rdSpec (firing s1 0 0 0 it (rowOf (prefixOf p.1)) pre) 0 pre.a).run.run (Rs.start s1 [] (tokenVals it)) with
     | (.ok w, q) => decide (q.s = s1) && !w.p && decide (w.v.toNat ≤ 4096)
     | _ => false) = true := by decide +kernel

/-- RepeatedPairs, third part: a resume item. -/
theorem witness_RepeatedPairs_resumed : Picks
    (withPair false { item 0 (.clean 1) PWord.zero PWord.zero with kind := 1, n := 9, nxt := 8 }) 0 0 0
    { item 0 (.clean 1) PWord.zero PWord.zero with kind := 1, n := 9, nxt := 8 } := by
  simp only [Picks]; decide +kernel

/-- L0 with an item of context 4 in lane 0, slot 1 empty (opcode 0 is undefined), and G12 of the context naming a handler. -/
def excState (it : Item) (h : Nat) : State :=
  { withInsn (plain .add) it with istore := [], mem := if h = 0 then [] else [(frameWord 0 12, .clean (BitVec.ofNat 36 h))] }

/-- Exceptions, duplicates: with no handler, with handler slot 4, and from the handler itself. -/
theorem witness_Exceptions_duplicate : ∀ h ∈ [0, 4, 1, 0xFFFFF],
    let it := { item 1 (.clean 2) (.clean 3) PWord.zero with kind := 2 }
    (excState it h).select 0 0 = some (0, it) ∧ it.broken = false ∧ (excState it h).discards it = false ∧ it.kind = 2 ∧
    Claims.handler (excState it h) it = h := by decide +kernel

/-- A slot of an undefined opcode in format T3 whose pointer names slot 2, where bad parity stands. -/
def badListState (it : Item) : State :=
  { excState it 4 with istore := [(1, mkSlot 0 2), (2, { w0 := 0, w1 := 0, par := 15 })] }

/-- Exceptions, an undefined opcode: without a list, and with a list entry of bad parity. -/
theorem witness_Exceptions_undefined : ∀ p ∈ [(0, false), (4, false), (5, true)],
    let it := item 1 (.clean 2) PWord.zero PWord.zero
    let s := if p.2 then badListState it else excState it p.1
    let s1 := begun s 0 0 0 it
    s.select 0 0 = some (0, it) ∧ it.broken = false ∧ s.discards it = false ∧ it.kind = 0 ∧
    (opRowOf (s.opAt 0 1)).isNone = true ∧ (opRowOf (s1.opAt 0 1)).isNone = true ∧ (s1.slot 0 1).parityOk = true ∧
    s1.rawListBad 0 (s1.graph 1) 1 = p.2 := by decide +kernel

/-- Exceptions, an item of a FROZEN graph. -/
theorem witness_Exceptions_discard :
    let it := item 1 (.clean 2) PWord.zero PWord.zero
    let s := { excState it 0 with graphs := [(1, { aGraph with state := .frozen })] }
    s.select 0 0 = some (0, it) ∧ it.broken = false ∧ s.discards it = true := by decide +kernel

/-- A firing of context 4 in slot 1; `rep` is that of the given repetition. -/
def aFire (rep : Option RepCtx) : Fire :=
  { n := 0, k := 0, it := item 7 (.clean 2) (.clean 3) (.clean 4), ip := 1, colour := 0, rep := rep,
    r := rowOf .add, i := plain .add, lane := 0, seq := 0 }

/-- L0 with the frame of context 4 at Frame Store offset `cdt`, its header Active in graph 1. G1 names Frame Store word 4,096, G2
holds 1, G3 2^14, G4 an unassigned address, G5 is poisoned. -/
def frames (cdt : Nat) : State :=
  { oneDie with graphs := [(1, { aGraph with blocks := [{ entry := 0, len := 8, pool := 2, poolLen := 4, frame := 32 }] })],
                istore := [(3, mkSlot 0x123 0x456)],
                mem := [(4, .clean (BitVec.ofNat 36 cdt)),
                        (frameWord 0 (cdt - 1), .clean (({ aff := 0, cls := 0, st := 1, graph := 1, block := 0 } : Hdr).word)),
                        (frameWord 0 (cdt + 1), .clean (BitVec.ofNat 36 (frameWord 0 4096))),
                        (frameWord 0 (cdt + 2), .clean 1), (frameWord 0 (cdt + 3), .clean 0x4000),
                        (frameWord 0 (cdt + 4), .clean 0xFFFFFFFFF), (frameWord 0 (cdt + 5), { v := 7, p := true })] }

/-- OperandForms, FRM: served, and past the Frame Store's end; CPL: the first word of the pool. -/
theorem witness_OperandForms_frame :
    ((frames 100).cdt 4 + 63 < 8388608 ∧ (frames 100).bankState (0 * 256 + ((frames 100).cdt 4 + 63) / 131072) = 0) ∧
    8388608 ≤ (frames 8388545).cdt 4 + 63 ∧
    (frames 100).blockOfCtx 4 = some ({ aGraph with blocks := [{ entry := 0, len := 8, pool := 2, poolLen := 4, frame := 32 }] },
      { entry := 0, len := 8, pool := 2, poolLen := 4, frame := 32 }) ∧
    (((frames 100).accessNow (isBank 0 3)).1.isWord 0 (2 * (1 + 2) + 0)).2 = true ∧
    ({ frames 100 with istore := [(3, { w0 := 0, w1 := 0, par := 15 })] }.accessNow (isBank 0 3)).1.isWord 0 6 = (0, false) := by
  decide +kernel

def fri (g off : Nat) : Spec := { m := .fri, f := g + off * 16 }
def idx (g h : Nat) : Spec := { m := .idx, f := h + g * 64 }
def glb (g off : Nat) : Spec := { m := .glb, f := g + off * 16 }
def pin (g inc : Nat) : Spec := { m := .pin, f := g + inc * 16 }

/-- OperandForms, pointer modes: their frame words are served and clean, and the address is a word of the own Frame Store. -/
theorem witness_OperandForms_pointer : ∀ p ∈ [(fri 1 255, 4351), (idx 1 2, 4097), (pin 1 255, 4096)],
    (∀ k ∈ Claims.slotsOf p.1, (frames 100).cdt 4 + k < 8388608 ∧
      (frames 100).bankState (0 * 256 + ((frames 100).cdt 4 + k) / 131072) = 0 ∧
      (Claims.gval (frames 100) (aFire none) k).p = false) ∧
    Claims.addressOf (frames 100) (aFire none) p.1 = some (frameWord 0 p.2) ∧
    (frames 100).addrFault (frameWord 0 p.2) false = none ∧ (frames 100).kindOf (frameWord 0 p.2) = .frame 0 p.2 := by
  decide +kernel

/-- OperandForms, pointer modes: an address that nothing holds, and a page that is too large. -/
theorem witness_OperandForms_faults :
    (∀ sp ∈ [fri 4 0, idx 4 4, pin 4 0], (match Claims.addressOf (frames 100) (aFire none) sp with
      | some a => (frames 100).addrFault a false == some 3 | none => false) = true) ∧
    (Claims.addressOf (frames 100) (aFire none) (glb 2 255)).isSome = true ∧
    Claims.addressOf (frames 100) (aFire none) (glb 3 0) = none ∧
    (∀ sp ∈ [fri 5 0, idx 2 5, glb 5 0, pin 5 0],
      (Claims.slotsOf sp).any (fun k => (Claims.gval (frames 100) (aFire none) k).p) = true) := by decide +kernel

/-- A token of the context of `item` for slot 1. -/
def aTok (port : BitVec 2) (x : Word) : Token :=
  { cid := 4, ip := 1, colour := 0, port := port, cls := 0, pkg := 0, val := .clean x }

/-- L0 with a token at its slice, an instruction in slot 1 and entries in ways of the token's set. -/
def meeting (i : Insn) (t : Token) (es : List MsEntry) : State :=
  { oneDie with istore := [(1, encodeInsn i)], graphs := [(1, aGraph)],
                dies := { upDie with arr := [t] } :: List.replicate 5 Die.reset,
                sets := [(State.reset.setOf 0 t, { MsSet.empty with ways := es ++ List.replicate (16 - es.length) MsEntry.empty })] }

def addFold (count : Nat) : Insn :=
  { op := .add, x := false, fmt := .tl, a := { m := .toka, f := 0 }, b := imm 1, d := Spec.unused, lit := count, ptr := 0 }

/-- What the slice needs before it decides a token (R165, R174, R175). -/
def canDecide (s : State) (t : Token) : Bool :=
  let s1 := Claims.tokenTaken s 0 []
  (s1.die 0).dcache.isEmpty &&
  decide ((s.die 0).arr = [t]) && (s1.die 0).walks.isEmpty && (s1.die 0).waitq.isEmpty &&
  decide (s1.bankState (msBank 0 (s1.setOf 0 t)) = 0) && decide (s1.bankState (isBank 0 t.ip.toNat) = 0) &&
  (s1.mset 0 (s1.setOf 0 t)).ways.all (fun w => !w.valid || (!w.badCid && !w.badTag && !w.badVal)) &&
  !(s1.mset 0 (s1.setOf 0 t)).ovf

/-- TokensMeet, first clause: a port that the instruction does not need, and a slot of bad parity. -/
theorem witness_TokensMeet_once :
    (canDecide (meeting (plain .not) (aTok 2 5) []) (aTok 2 5) = true ∧
      2 ∉ ((meeting (plain .not) (aTok 2 5) []).sliceView 0 1).need ∧
      ((meeting (plain .not) (aTok 2 5) []).sliceView 0 1).toka = none) ∧
    (let s := { meeting (plain .not) (aTok 0 5) [] with istore := [(1, { encodeInsn (plain .not) with par := 0xF })] }
     canDecide s (aTok 0 5) = true ∧ (s.sliceView 0 1).now = true) := by decide +kernel

/-- TokensMeet, plain entries: a duplicate, the last token of two, and the first of two. -/
theorem witness_TokensMeet_plain :
    let v := (meeting (plain .add) (aTok 0 5) []).sliceView 0 1
    (v.now = false ∧ v.need = [0, 1] ∧ v.toka = none) ∧
    (let s := meeting (plain .add) (aTok 0 5) [plainEntry (aTok 0 7)]
     canDecide s (aTok 0 5) = true ∧
     (((Claims.partners s 0 (aTok 0 5)).filter (fun x => !x.e.acc)).find? (fun x => x.e.port == 0)).isSome = true) ∧
    (let s := meeting (plain .add) (aTok 0 5) [plainEntry (aTok 1 7)]
     canDecide s (aTok 0 5) = true ∧ (Claims.partners s 0 (aTok 0 5)).any (fun x => x.e.acc) = false ∧
     ((Claims.partners s 0 (aTok 0 5)).filter (fun x => !x.e.acc)).find? (fun x => x.e.port == 0) = none ∧
     ((Claims.partners s 0 (aTok 0 5)).filter (fun x => !x.e.acc)).any (fun x => x.e.port == 1) = true) ∧
    (let s := meeting (plain .add) (aTok 0 5) []
     canDecide s (aTok 0 5) = true ∧ (Claims.partners s 0 (aTok 0 5)).length = 0 ∧
     (s.mset 0 (s.setOf 0 (aTok 0 5))).ways.findIdx? (fun w => !w.valid) = some 0) ∧
    (let s := meeting (plain .add) (aTok 0 5) (List.replicate 16 (plainEntry { aTok 0 5 with colour := 9 }))
     canDecide s (aTok 0 5) = true ∧ (Claims.partners s 0 (aTok 0 5)).length = 0 ∧
     (s.mset 0 (s.setOf 0 (aTok 0 5))).ways.all (fun w => w.valid) = true ∧ (s.die 0).freeSlot = some 0) := by decide +kernel

/-- TokensMeet, the decode cache: a hit, and an entry of another IP. -/
theorem witness_TokensMeet_cache :
    let v : View := { need := [0], toka := none, now := false }
    let s (ip : Nat) : State := { meeting (plain .not) (aTok 0 5) [] with
      dies := { upDie with arr := [aTok 0 5], dcache := [(1, ip, v)] } :: List.replicate 5 Die.reset }
    tfind ((Claims.tokenTaken (s 1) 0 []).die 0).dcache (1 % 4096) = some (1, v) ∧
    (∀ p ∈ ((s 4097).die 0).dcache, p.2.1 ≠ 1) := by decide

/-- TokensMeet, accumulation: the first of 65,535 tokens, and the second. -/
theorem witness_TokensMeet_fold :
    (let s := meeting (addFold 65535) (aTok 0 5) []
     canDecide s (aTok 0 5) = true ∧ (s.sliceView 0 1).now = false ∧
     (match (s.sliceView 0 1).toka with
      | some (p, sp, c) => decide (p = 0) && decide ((firstFold (aTok 0 5) sp c).rem ≠ 0)
      | none => false) = true ∧
     (Claims.partners s 0 (aTok 0 5)).find? (fun x => x.e.acc) = none) ∧
    (let e := firstFold (aTok 0 5) { m := .toka, f := 0 } 3
     let s := meeting (addFold 3) (aTok 0 6) [e]
     canDecide s (aTok 0 6) = true ∧ (s.sliceView 0 1).toka.isSome = true ∧
     ((Claims.partners s 0 (aTok 0 6)).find? (fun x => x.e.acc)).isSome = true ∧ (e.fold (aTok 0 6).val).rem ≠ 0) := by
  decide +kernel

/-- L0 with a token in walk slot 63 and sixteen entries of other instances in its set. -/
def walking (bump : Nat) (held : Bool) : State :=
  let t := aTok 0 5
  let set := State.reset.setOf 0 t
  { meeting (plain .add) t [] with
    dies := { upDie with bump := bump, regionFull := held, walks := [{ slot := 63, set := set, tok := t, acc := none, held := held }] } ::
      List.replicate 5 Die.reset,
    sets := [(set, { ways := (List.range 16).map (fun c => plainEntry { t with colour := BitVec.ofNat 12 (c + 1) }), ovf := false })] }

/-- WalksAndDispatch: a walk that ends (the last record of the region is free), one that finds the region full, and one that
goes on when a record is free again. -/
theorem witness_WalksAndDispatch_walk :
    (let s := walking 67108863 false
     ((s.die 0).walks.find? (fun w => w.slot == 63 && !w.held)).isSome = true ∧
     ((s.die 0).walks.all (fun w => (Claims.walkOutcome (s.sliceLook 0 1).1 0 w (s.sliceLook 0 1).2 []).isSome)) = true) ∧
    (let s := walking 67108864 false
     ((s.die 0).walks.all (fun w => (Claims.walkOutcome (s.sliceLook 0 1).1 0 w (s.sliceLook 0 1).2 []).isNone)) = true) ∧
    (let s := walking 67108863 true
     ((s.die 0).walks.find? (fun w => w.held)).isSome = true ∧ (s.die 0).bump < 67108864 ∧
     ((s.die 0).walks.all (fun w => match Claims.walkOutcome (s.sliceLook 0 1).1 0 w (s.sliceLook 0 1).2 [] with
       | some t => ((Claims.slotFreed t 0 w).die 0).walks.all (fun x => !x.held) | none => false)) = true) := by
  decide +kernel

/-- L0 with an item at its dispatch unit, whose context's header is in state `st` with affinity PE `aff`; the lanes of PE `aff`
hold eight items. -/
def dispatching (st aff : Nat) : State :=
  { frames 100 with
    dies := { upDie with disp := [{ item := item 3 (.clean 2) (.clean 3) PWord.zero, released := false }] } ::
      List.replicate 5 Die.reset,
    mem := [(4, .clean 100), (frameWord 0 99, .clean (({ aff := aff, cls := 2, st := st, graph := 1, block := 0 } : Hdr).word))],
    lanes := [(laneKey 0 63 2, { Lane.empty with head := List.replicate 8 (item 3 (.clean 2) (.clean 3) PWord.zero) })],
    regs := [(lmOff 0 0x500, 4)] }

/-- WalksAndDispatch, dispatch: on the affinity PE, on a shallower one, parked and lost. -/
theorem witness_WalksAndDispatch_dispatch : (∀ st ∈ [0, 1, 2, 3],
      (dispatching st 0).cdt 4 = 100 ∧ (dispatching st 0).bankState (0 * 256 + 99 / 131072) = 0 ∧
      ((dispatching st 0).hdr 4).st = st) ∧
    (let s := dispatching 1 0
     s.affinityPe 0 0 = 0 ∧ Claims.placement s 0 0 false = 0 ∧
     (s.lanePush (peKey 0 0) 2 (item 3 (.clean 2) (.clean 3) PWord.zero)).isSome = true) ∧
    (let s := dispatching 1 63
     s.affinityPe 0 63 = 63 ∧ Claims.placement s 0 63 false = 48 ∧
     (s.lanePush (peKey 0 48) 2 (item 3 (.clean 2) (.clean 3) PWord.zero)).isSome = true) := by decide +kernel

/-- L0 with a token in walk slot 63, whose set is full and has a chain of one record, of another instance; its head word may be
poisoned. -/
def chained (bad : Bool) : State :=
  let t := aTok 0 5
  let set := State.reset.setOf 0 t
  let s := walking 67108863 false
  let r := recWords (plainEntry { t with colour := 17 }) 0 set
  { s with
    dies := { s.die 0 with chainUsed := 1 } :: List.replicate 5 Die.reset,
    sets := s.sets.map (fun p => (p.1, { p.2 with ovf := true })),
    mem := (set, { PWord.clean 40000 with p := bad }) :: ((List.range 6).map (fun k => (320000 + k, lget PWord.zero r k))) }
def chainWalk : Walk := { slot := 63, set := State.reset.setOf 0 (aTok 0 5), tok := aTok 0 5, acc := none, held := false }

/-- The slice after it looked the token up, and the one record that the walk reads. -/
def chainSeen : State := ((chained false).sliceLook 0 1).1
def chainRead : List (Nat × MsEntry) := [(40000, recEntry (chainSeen.rds (chainSeen.recAddr 0 40000) 5))]

/-- WalksAndDispatch, a chain: a walk that reads its one record, which is of another instance; and a poisoned head word. -/
theorem witness_WalksAndDispatch_chain :
    Claims.walkReads chainSeen 0 chainWalk ((chained false).sliceLook 0 1).2 chainRead ∧
    (((chained true).die 0).walks.find? (fun w => w.slot == 63 && !w.held) = some chainWalk ∧
      ((((chained true).sliceLook 0 1).1).mset 0 chainWalk.set).ovf = true ∧
      (((chained true).sliceLook 0 1).1.rd (((chained true).sliceLook 0 1).1.regionBase 0 + chainWalk.set)).p = true) := by
  have h0 : fieldOf (chainSeen.rd (chainSeen.regionBase 0 + chainWalk.set)).v 0 26 = 40000 := by decide +kernel
  have h1 : Claims.chainPart chainSeen 0 chainRead 40000 0 := by
    unfold chainRead
    simp only [Claims.chainPart]
    decide +kernel
  have h2 : ∀ k < 1, Claims.undecided chainSeen 0 chainWalk ((chained false).sliceLook 0 1).2 (chainRead.take k) := by
    intro k hk
    obtain rfl : k = 0 := by omega
    unfold Claims.undecided
    decide +kernel
  refine ⟨Or.inr ⟨by decide +kernel, by decide +kernel, by decide +kernel, h2, 0, ?_, Or.inl rfl⟩, by decide +kernel⟩
  rw [h0]; exact h1

/-- The lane of class 2 on PE 0 of L0 is full: its tail store and its middle hold what they can; an item released from a
deferral comes to it. -/
def fullLane : Lane :=
  { Lane.empty with tail := List.replicate 1152 (item 3 (.clean 2) (.clean 3) PWord.zero),
                    mid := List.replicate 32766 (item 3 (.clean 2) (.clean 3) PWord.zero) }
def released : DispIn := { item := item 3 (.clean 2) (.clean 3) PWord.zero, released := true }
def crowded : State := (dispatching 1 0).setDie 0 { (dispatching 1 0).die 0 with disp := [released] }

/-- WalksAndDispatch, dispatch: an input whose push is refused; it is the only one. -/
theorem witness_WalksAndDispatch_held :
    Claims.held { crowded with lanes := [(laneKey 0 0 2, fullLane)] } 0 [released] [] := by
  intro b y a h
  cases b with
  | cons z b => exact absurd (congrArg List.length h) (by simp)
  | nil =>
    injection h with h1 h2; subst h1 h2
    refine ⟨Or.inr (by decide +kernel), by decide +kernel, ?_⟩
    have full (s : State) (h1 : (s.lane (laneKey 0 0 2)).tail.length = 1152) (h3 : (s.lane (laneKey 0 0 2)).mid.length = 32766)
        (h2 : storeRoom (s.lanesOf 0) (fun l => l.tail.length) 1152 = 0) (x : Item) : s.lanePush 0 2 x = none := by
      have h4 : s.laneFull 0 2 = true := by
        show (storeRoom (s.lanesOf 0) (fun l => l.tail.length) (s.lane (laneKey 0 0 2)).tail.length == 0 &&
          decide (32768 < (s.lane (laneKey 0 0 2)).mid.length + 4)) = true
        rw [h1, h3, h2]; rfl
      unfold State.lanePush; rw [if_pos h4]
    have hl : State.lane (Claims.inputs { crowded with lanes := [(laneKey 0 0 2, fullLane)] } 0 ([] ++ ([] ++ []))) (laneKey 0 0 2) =
        fullLane := rfl
    exact full _ (by rw [hl]; exact List.length_replicate) (by rw [hl]; exact List.length_replicate) (by decide +kernel) _

/-- Latch 4,095 in a state, with the rights of group 63 and a request that waits. -/
def latched (rights : Nat) (l : Latch) (u : UnitReq) : State :=
  { oneDie with latches := [(4095, l)], regs := [(ltbOff 252, BitVec.ofNat 32 rights)], units := [u] }

def anAcquire (n : Nat) : UnitReq := .acquire n 9 4095 4 1 3
def aRelease (n : Nat) : UnitReq := .release n 9 4095

theorem witness_Latches_oldest : ∀ n < 6,
    Claims.oldest (latched 0 Latch.free (anAcquire n)) (Claims.acquireOf 63) (anAcquire n) [] ∧
    Claims.oldest (latched 0 Latch.free (aRelease n)) (Claims.releaseOf 63) (aRelease n) [] :=
  fun _ _ => ⟨⟨[], [], rfl, rfl, rfl, rfl⟩, ⟨[], [], rfl, rfl, rfl, rfl⟩⟩

/-- The four cases of an acquire for the requesters of L0 and L5, and the three of a host function. -/
theorem witness_Latches_acquire :
    (∀ req ∈ [0x11, 0x16], ∀ l ∈ [Latch.free, { Latch.free with held := true, req := 3, cid := 7, waiter := true }],
      ((latched 0 l (anAcquire 0)).flag (ltbOff (4 * (4095 / 64))) req = false) ∧
      ((latched (2 ^ req) l (anAcquire 0)).flag (ltbOff (4 * (4095 / 64))) req = true) ∧
      ((latched (2 ^ req) l (anAcquire 0)).latch 4095).parOk = true ∧
      ((latched (2 ^ req) l (anAcquire 0)).latch 4095).held = l.held) ∧
    (∀ req ∈ [0, 16], ∀ h ∈ [false, true],
      (let s := latched (2 ^ req) { Latch.free with held := h } (anAcquire 0)
       s.pcieUp = true ∧ s.ready = true ∧ s.flag (ltbOff (4 * (4095 / 64))) req = true ∧ (s.latch 4095).parOk = true ∧
       (s.latch 4095).held = h ∧ (latched 0 Latch.free (anAcquire 0)).flag (ltbOff (4 * (4095 / 64))) req = false)) := by
  decide +kernel

/-- A lift message that waits at L0. -/
theorem witness_Latches_lift :
    (State.die { oneDie with dies := { upDie with liftMsgs := [{ latch := 4095, cid := 4, cls := some 3 }] } :: List.replicate 5 Die.reset } 0).liftMsgs = [{ latch := 4095, cid := 4, cls := some 3 }] := rfl

/-- L0 with bank 0 in a transition. -/
def waking (st target : Nat) : State :=
  { oneDie with banks := [(0, { Bank.reset with state := st, req := target, target := some target })] }

/-- Storage, banks: a bank reaches Active, Sleep and Off. -/
theorem witness_Storage_bank : ∀ p ∈ [(3, 0), (0, 1), (0, 2)],
    ((waking p.1 p.2).bank 0).target = some p.2 ∧ (waking p.1 p.2).ce.open_ = [] ∧
    ((Claims.arrivedBank (waking p.1 p.2) 0 p.2).bank 0).req = (Claims.arrivedBank (waking p.1 p.2) 0 p.2).bankState 0 ∧
    (∀ n < 6, ((Claims.arrivedBank (waking p.1 p.2) 0 p.2).die n).firing.all (fun g => g.wait != .bank 0) = true) := by
  decide +kernel

/-- Storage, the write buffer: the first buffered write of PE 1 behind one of PE 0 to another word; a pool being built. -/
theorem witness_Storage_die :
    let e : WBuf := { pe := 1, addr := frameWord 0 8, w := .clean 9 }
    let d : Die := { upDie with wbuf := [{ e with pe := 0, addr := frameWord 0 7 }, e], building := true, isdTotal := 40 }
    let s : State := { oneDie with dies := d :: List.replicate 5 Die.reset }
    (s.die 0).wbuf = [{ e with pe := 0, addr := frameWord 0 7 }] ++ e :: [] ∧ e.pe = 1 ∧
    s.bankState (0 * 256 + (e.addr % 0x1000000) / 131072) = 0 ∧ (s.die 0).building = true := by decide +kernel

/-- Storage, held writes: one behind a buffered PE write keeps those behind it in its bank, and another bank's lands. -/
theorem witness_Storage_held :
    let h : HeldWr := { addr := frameWord 0 8, w := .clean 9, chan := none }
    let buf : List WBuf := [{ pe := 0, addr := frameWord 0 8, w := .clean 1 }]
    let hs := [{ h with addr := frameWord 0 7 }, h, { h with addr := frameWord 0 9 }, { h with addr := frameWord 0 131072 }]
    Claims.landing 0 buf [] hs = [{ h with addr := frameWord 0 7 }, { h with addr := frameWord 0 131072 }] ∧
    Claims.staying 0 buf [] hs = [h, { h with addr := frameWord 0 9 }] ∧
    oneDie.bankState (frameBank 0 (frameWord 0 7)) = 0 := by decide +kernel

/-- Storage, reservations: the bound 5 admits the fifth context and no sixth. -/
theorem witness_Storage_bound : ∀ p ∈ [(4, true), (5, false)],
    let s := { oneDie with graphs := [(1, { aGraph with active := p.1 })], regs := [(tmpOff 0x404, 5)],
                           units := [.unreserve 1, .reserve 0 9 1] }
    Claims.admits s 1 = p.2 := by decide +kernel
theorem witness_Storage_oldest (s : State) (h : s.units = [.unreserve 1, .reserve 0 9 1]) :
    Claims.oldest s Claims.isReserve (.reserve 0 9 1) [.unreserve 1] ∧
    Claims.oldest s Claims.isUnreserve (.unreserve 1) [.reserve 0 9 1] :=
  ⟨⟨[.unreserve 1], [], h, rfl, rfl, rfl⟩, ⟨[], [.reserve 0 9 1], h, rfl, rfl, rfl⟩⟩

/-- L0 with its links up and a flit at the front of a direction. -/
def flying (d : Nat) (num : Option (BitVec 9)) (f : BitVec 128) : State :=
  { oneDie with links := List.replicate 12 { Link.reset with up := true },
                dirs := lset (List.replicate 24 LinkDir.reset) d { LinkDir.reset with
                  expect := 511, sinceAck := 15, replay := [(510, f)], wire := [(num, f)] } }

/-- A word write to L0's Frame Store, a read request, a response and a pour word. -/
def flits : List (BitVec 128) := [
  memFlit ftWr 0 6 (frameWord 0 8388607) 0 { v := 5, p := true } false,
  memFlit ftRdReq 0 6 (frameWord 0 0) 1023 PWord.zero false,
  memFlit ftRdRsp 0 6 (frameWord 0 0) 1023 (.clean 5) true]
def hubFlits : List (BitVec 128) := [
  memFlit ftWr 6 0 0 0 (.clean 5) false, memFlit ftRdReq 6 0 0 7 PWord.zero false,
  memFlit ftWr 6 0 (scratchWord 0x3FFFFF) 0 (.clean 5) false, pourFlit 0 15 0 0 1000 (.clean 77)]

/-- D2dFlits: good flits of every type of the expected number, at L0 and at Bedrock; a CRC error; another number. -/
theorem witness_D2dFlits_good :
    (∀ i ∈ [0, 1, 2], let f := lget 0 flits i
      let s := flying 1 (some 511) f
      (s.dir 1).wire = [(some 511, f)] ∧ s.dirUp 1 = true ∧ (s.dir 1).expect = 511 ∧ flitOk f = true ∧ flitBad f = false ∧
      flitDest f = dirTo 1 ∧ (flitType f = ftWr ∨ flitType f = ftRdReq ∨ flitType f = ftRdRsp) ∧
      flitOk (f ^^^ 0x80000000000000000000000000000001) = false) ∧
    (∀ i ∈ [0, 1, 2, 3], let f := lget 0 hubFlits i
      let s := flying 0 (some 510) f
      s.dirUp 0 = true ∧ (s.dir 0).expect = 511 ∧ (510 : BitVec 9) ≠ 511 ∧ flitOk f = true ∧ flitBad f = false ∧
      flitDest f = dirTo 0 ∧ (flitType f = ftWr ∨ flitType f = ftRdReq ∨ flitType f = ftPour)) := by decide +kernel

/-- D2dFlits: what a write and a read find at L0 and at Bedrock, in the first and the last words. -/
theorem witness_D2dFlits_arrives :
    let s := { flying 0 (some 511) (memFlit ftWr 6 0 0 0 (.clean 5) false) with
               banks := (0x61F, { Bank.reset with state := 0 }) :: oneDie.banks,
               start := { oneDie.start with capacity := 34359738368 } }
    s.kindOf (frameWord 0 8388607) = .frame 0 8388607 ∧ s.bankState (0 * 256 + 8388607 / 131072) = 0 ∧
    s.kindOf 0 = .ddr 0 ∧ s.kindOf (scratchWord 0x3FFFFF) = .scratch 0x3FFFFF := by decide +kernel

/-- D2dFlits: tokens for the own slice, for a die over the hub, and on to the next link. -/
theorem witness_D2dFlits_tokens :
    let f := tokenFlit (aTok 0 5) 0
    flitType f = ftToken ∧ flitOk f = true ∧ flitBad f = false ∧ flitDest f = dirTo 1 ∧ dirTo 1 < 6 ∧
    dirTo 0 = 6 ∧ ((flying 0 (some 511) f).die (flitDest f)).up = true ∧
    flitDest f ≠ dirTo 3 ∧ dirTo 3 < 6 ∧ (flying 0 (some 511) f).anyWait = false := by decide +kernel

/-- D2dFlits: a receiver that listens, one that discards, and one at which the replay begins. -/
theorem witness_D2dFlits_listens :
    (∀ k ∈ [none, some 0, some 1], let s := flying 1 none (creditFlit 0 10 65535)
      let x := s.setDir 1 { s.dir 1 with discarding := true, skip := k }
      ((x.dir 1).discarding = false ∨ (x.dir 1).skip = some 0) ↔ k = some 0) ∧
    ((flying 1 none (creditFlit 0 10 65535)).dir 1).discarding = false := by decide +kernel

/-- D2dFlits: CREDIT of pool 10, ACK and NAK of a number in the replay buffer, TRAIN_DONE, and an ACK that is due. -/
theorem witness_D2dFlits_control :
    (∀ i ∈ [0, 1, 2, 3], let f := lget 0 [creditFlit 0 10 65535, ctrlFlit 0 0 510, ctrlFlit 0 1 510, ctrlFlit 0 2 0] i
      let s := flying 1 none f
      (s.dir 1).wire = [(none, f)] ∧ s.dirUp 1 = true ∧ flitOk f = true ∧ flitBad f = false) ∧
    (flitType (creditFlit 0 10 65535) = ftCredit ∧ fieldOf (creditFlit 0 10 65535) 16 4 = 10) ∧
    (∀ k < 3, flitType (ctrlFlit 6 k 510) = ftCtrl ∧ fieldOf (ctrlFlit 6 k 510) 16 4 = k ∧ fieldOf (ctrlFlit 6 k 510) 20 9 = 510) ∧
    ((Claims.unwired (flying 0 none (ctrlFlit 6 0 510)) 1 []).dir (Claims.reverse 1)).replay.any (fun p => p.1 == 510) = true ∧
    ((Claims.unwired (flying 0 none (ctrlFlit 6 1 510)) 1 []).dir (Claims.reverse 1)).replays + 1 < 16 ∧
    ((flying 1 none (ctrlFlit 0 0 510)).dir 1).sinceAck ≠ 0 := by decide +kernel

/-- Port 0 in a state. -/
def withPort (x : Port) : State := { oneDie with ports := x :: List.replicate 15 Port.reset }

/-- A training block with its check byte. -/
def aBlk (b : Nat) : BitVec 64 := BitVec.ofNat 64 (b + blkXor b * 2 ^ 56)

/-- Four lanes placed, with the counts of the other three at the threshold. -/
def trained (ts1 ts2 : List Nat) (t : Option Nat) : Port :=
  { Port.reset with state := .training, fl := { FrameLink.reset with
      sync := [64, 64, 64, 64], ts1 := ts1, ts2 := ts2, ts2Start := t, lanes := [none, some 1, some 2, some 3] } }

/-- PortLinks, training: the TS1 before the sixteenth and the sixteenth, the TS2 before the eighth and the eighth on lane 0. -/
theorem witness_PortLinks_training :
    let blk := aBlk (0xB5 + 0x10000)
    let ts2 := aBlk (0xB6 + 0x10000 + 0x1000000 + 8192 * 2 ^ 32)
    (∀ c ∈ [14, 15], let s := withPort (trained [c, 16, 16, 16] [] none)
      let fl := Claims.placed s 0 0 blk.toNat 2
      (s.port 0).state = .training ∧ (s.port 0).fl.failedAt = none ∧ s.pfpPowered 0 = true ∧ 0 < 4 * s.pfpBond 0 ∧
      64 ≤ lget 0 (s.port 0).fl.sync 0 ∧ pfpTsZero blk.toNat false = true ∧
      blkOk blk.toNat = true ∧ Claims.laneOf blk.toNat = 0 ∧ laneOrderOk fl.lanes 4 = true ∧ bitsOf blk.toNat 0 8 = 0xB5 ∧
      allAtLeast (bumpAt fl.ts1 4 0) 4 16 = (c == 15) ∧ fl.ts2Start = none) ∧
    (∀ c ∈ [6, 7], let s := { withPort (trained [16, 16, 16, 16] [c, 8, 8, 8] (some 67)) with clk := { Clk.reset with edges := 100 } }
      let fl := Claims.placed s 0 0 ts2.toNat 2
      blkOk ts2.toNat = true ∧ pfpTsZero ts2.toNat true = true ∧ 64 ≤ lget 0 (s.port 0).fl.sync 0 ∧ Claims.laneOf ts2.toNat = 0 ∧ laneOrderOk fl.lanes 4 = true ∧ bitsOf ts2.toNat 0 8 = 0xB6 ∧
      bitsOf ts2.toNat 24 8 = 1 ∧ bitsOf ts2.toNat 16 8 = s.pfpBond 0 ∧ fl.ts2Start = some 67 ∧
      allAtLeast (bumpAt fl.ts2 4 0) 4 8 = (c == 7) ∧ 67 + 33 ≤ s.clk.edges) ∧
    (blkOk (aBlk 0x100B5 ^^^ 1).toNat = false ∧ bitsOf (aBlk 0x100B6).toNat 0 8 ≠ 0xB5) := by decide +kernel

/-- A frame of a body with sequence number and ack. -/
def aFrame (body : Nat) : BitVec 256 := BitVec.ofNat 256 (mkFrame 32 body)
def idlePort : Port :=
  { Port.reset with state := .idle, farCredits := 1, fl := { FrameLink.reset with expect := 255, replay := [(7, 0), (8, 0)] } }

/-- PortLinks, good frames: a FAIL and a CREDIT of the expected number 255, a RETRY from 8, an IDLE that acknowledges 7. -/
theorem witness_PortLinks_frames :
    let fail := aFrame (2 + 255 * 16 + 5 * 2 ^ 32)
    let credit := aFrame (3 + 255 * 16 + 65535 * 2 ^ 48)
    let retry := aFrame (5 + 8 * 2 ^ 32)
    let idle := aFrame (7 * 2 ^ 12 + 2 ^ 20)
    let s := withPort idlePort
    (s.port 0).active = true ∧
    (∀ i ∈ [0, 1, 2, 3], let f := (lget 0 [fail, credit, retry, idle] i).toNat
      frameOk 32 f = true ∧ pfpBad f = false ∧ frameType f = lget 0 [2, 3, 5, 0] i) ∧
    ((Claims.ackTaken s 0 fail.toNat).port 0).fl.judge fail.toNat = .inOrder ∧
    ((Claims.inOrder s 0 fail.toNat).port 0).farCredits ≠ 0 ∧
    ((Claims.ackTaken s 0 credit.toNat).port 0).fl.judge credit.toNat = .inOrder ∧ frameBits credit.toNat 4 0 8 = 0 ∧
    frameOk 32 (fail ^^^ 1).toNat = false := by decide +kernel

/-- PortLinks, the other clauses: a bad frame while frames are discarded; an ack that is owed; a credit that is due; training
that fails and starts again. -/
theorem witness_PortLinks_due :
    (let s := withPort { idlePort with fl := { idlePort.fl with discarding := true } }
     (s.port 0).active = true ∧ (s.port 0).fl.discarding = true) ∧
    (let s := withPort { idlePort with fl := { idlePort.fl with owesAck := true } }
     (s.port 0).active = true ∧ (s.port 0).fl.discarding = false ∧ (s.port 0).fl.owesAck = true) ∧
    (withPort { idlePort with owed := 16 }).failCreditAt 0 = some 0 ∧
    (withPort { idlePort with owed := 1 }).failCreditAt 0 = some 8580 ∧
    (let s := withPort idlePort
     (s.port 0).fl.replay.length < 128 ∧ (s.port 0).fl.retries + 1 < 16) ∧
    (let s := withPort { trained [] [] none with fl := { FrameLink.reset with sync := [63, 0, 0, 0] } }
     (s.port 0).state = .training ∧ lget 0 (s.port 0).fl.sync 0 < 64 ∧ 0 < 4 * s.pfpBond 0 ∧ (s.port 0).fl.failedAt = none) ∧
    (∀ on ∈ [true, false], let s := { withPort { Port.reset with state := .idle } with regs := if on then [(pfpOff 0 4, 1)] else [] }
     (s.port 0).state = .idle ∧ s.pfpOn 0 = on) ∧
    (let s := withPort { trained [] [] none with fl := { FrameLink.reset with failedAt := some 5 } }
     (s.port 0).state = .training ∧ (s.port 0).fl.failedAt = some 5) := by decide +kernel

def aRunning : Port :=
  { idlePort with state := .running, present := [(0, 1), (1, 1)], run := { Run.reset with s0 := some 1056, burstLeft := 1 } }

/-- PortRuns, the end of a presence clear: mode 0 with and without a prefill, a trigger at 16 ns from now, and a port that has
left IDLE. -/
theorem witness_PortRuns_clear :
    (∀ r ∈ [(0, 0), (0, 65535), (1, 0)],
      let s := withPort { idlePort with run := { Run.reset with clearing := true, trigger := r.1, prefill := r.2, trigT := 16 } }
      (s.port 0).run.clearing = true ∧ ((s.passEdges (s.port 0).run.clearEnd).port 0).state = .idle ∧
      ((s.passEdges (s.port 0).run.clearEnd).port 0).run.clearLost = false ∧ (s.passEdges (s.port 0).run.clearEnd).now + 16 ≤ 16) ∧
    (let s := withPort { Port.reset with state := .training, run := { Run.reset with clearing := true, clearLost := true } }
     (s.port 0).run.clearing = true ∧ ((s.passEdges (s.port 0).run.clearEnd).port 0).run.clearLost = true) := by decide +kernel

/-- PortRuns, the start of a run at slot boundary 0. -/
theorem witness_PortRuns_start :
    let s := withPort { idlePort with state := .armed, run := { Run.reset with s0 := some 0 } }
    (s.port 0).state = .armed ∧ (s.port 0).run.stop = none ∧ (s.port 0).run.s0 = some 0 ∧
    ((s.passUntil 0).port 0).run.s0 = some 0 := by decide +kernel

theorem ticks_of {s : State} {p e r t : Nat} (h : s.nextExam p = some e ∧ (∀ q < 16, (s.goUntil e).trips q e = false) ∧
    (((s.goUntil e).port p).run.s0 = some t ∧ r = (s.goUntil e).release p t ∧
      (((s.goUntil e).port p).state = .running ∨ ((s.goUntil e).port p).state = .armed ∧ 64 * e < t)) ∧
    ((s.goUntil e).port p).run.ending = none ∧ 0 < ((s.goUntil e).port p).run.burstLeft ∧
    ((s.goUntil e).port p).run.boundary = none) : Claims.ticks s p e r :=
  ⟨h.1, h.2.1, ⟨t, h.2.2.1⟩, h.2.2.2⟩

/-- PortRuns, a tick's examination at 9 ns, of a running and of an armed port: a slot that is present, one with a poisoned word,
one that is not present, and one written in the examination cycle. -/
theorem witness_PortRuns_tick : ∀ st ∈ [PState.running, PState.armed], ∀ x ∈ [some 9, some 10, none], ∀ p ∈ [false, true],
    let s := { withPort { aRunning with state := st, present := (x.map (fun t => (0, t))).toList } with
               mem := [(pourWordAddr 0 0 0, { v := 5, p := p })] }
    Claims.ticks s 0 9 1056 ∧ (s.goUntil 9).slotPresent 0 0 9 = (x == some 9) ∧
    ((Claims.examined s 0 9).all (fun w => !w.p) = !p) ∧
    (s.goUntil 9).fld (pfpOff 0 0x0C) 0 2 = 0 ∧ (s.goUntil 9).fld (pfpOff 0 0x0C) 2 16 = 0 := by
  have h : ∀ st ∈ [PState.running, PState.armed], ∀ x ∈ [some 9, some 10, none], ∀ p ∈ [false, true],
      let s := { withPort { aRunning with state := st, present := (x.map (fun t => (0, t))).toList } with
                 mem := [(pourWordAddr 0 0 0, { v := 5, p := p })] }
      (s.nextExam 0 = some 9 ∧ (∀ q < 16, (s.goUntil 9).trips q 9 = false) ∧
        (((s.goUntil 9).port 0).run.s0 = some 1056 ∧ 1056 = (s.goUntil 9).release 0 1056 ∧
          (((s.goUntil 9).port 0).state = .running ∨ ((s.goUntil 9).port 0).state = .armed ∧ 64 * 9 < 1056)) ∧
        ((s.goUntil 9).port 0).run.ending = none ∧ 0 < ((s.goUntil 9).port 0).run.burstLeft ∧
        ((s.goUntil 9).port 0).run.boundary = none) ∧
      (s.goUntil 9).slotPresent 0 0 9 = (x == some 9) ∧ ((Claims.examined s 0 9).all (fun w => !w.p) = !p) ∧
      (s.goUntil 9).fld (pfpOff 0 0x0C) 0 2 = 0 ∧ (s.goUntil 9).fld (pfpOff 0 0x0C) 2 16 = 0 := by decide +kernel
  intro st hst x hx p hp
  exact ⟨ticks_of (h st hst x hx p hp).1, (h st hst x hx p hp).2⟩

/-- PortRuns, the end of an armed port (STOP, HOST). -/
theorem witness_PortRuns_stop : ∀ reason ∈ [2, 3],
    let s := withPort { idlePort with state := .armed, run := { Run.reset with stop := some (reason, 0) } }
    (s.port 0).state = .armed ∧ (s.port 0).run.stop = some (reason, 0) := by
  decide +kernel

/-- The queue of port 0 with the words of a record. -/
def withRecord (ws : List SWord) : State :=
  { withPort idlePort with queues := [(256, { Silt.empty with head := ws })] }
def good (x : Word) (eop : Bool) : SWord := SWord.commit { w := .clean x, eop := eop, mark := .good }

/-- PortRuns, FAIL_RECORD: an empty queue; a record of two words. -/
theorem witness_PortRuns_record :
    ((oneDie.queue 256).diag = false ∧ oneDie.handlerParked 0 = false ∧ oneDie.siltTake 256 3 = none) ∧
    (let s := withRecord [good 1 false, good 2 true]
     (s.queue 256).diag = false ∧ s.handlerParked 0 = false ∧
     (match s.siltTake 256 3 with
      | some (w1, t1) => w1.mark == .good && !(t1.failWord 0 w1).2 &&
        (match (t1.failWord 0 w1).1.siltTake 256 3 with
         | some (w2, t3) => w2.mark == .good && (t3.failWord 0 w2).2
         | none => false)
      | none => false) = true) := by decide +kernel

/-- Twikel 1 in a state, in use. -/
def withTwk (x : Twk) : State := { oneDie with tws := [Twk.reset, x], regs := [(twkOff 1 0, 1)] }
def twkTrained (ts1 ts2 : List Nat) (t : Option Nat) : Twk :=
  { Twk.reset with training := true, fl := { FrameLink.reset with sync := List.replicate 8 64, ts1 := ts1, ts2 := ts2, ts2Start := t } }

/-- TwikelLinks, training: lane 7 before and at the sixteenth TS1 and the eighth TS2; a TS2 of another protocol; a bad block. -/
theorem witness_TwikelLinks_training :
    let ts1 := aBlk (0xC5 + 0x700 + 0x80000)
    let ts2 := aBlk (0xC6 + 0x700 + 0x80000 + 0x1000000 + 256 * 2 ^ 32)
    let bad := aBlk (0xC6 + 0x700 + 0x80000 + 0x2000000)
    (∀ c ∈ [14, 15], let s := withTwk (twkTrained [16, 16, 16, 16, 16, 16, 16, c] [] none)
      ((s.twk 1).training = true ∧ (s.twk 1).fl.failedAt = none ∧ s.twkPowered 1 = true ∧ s.twkUse 1 = true) ∧
      64 ≤ lget 0 (s.twk 1).fl.sync 7 ∧ twkTsZero ts1.toNat false = true ∧
      blkOk ts1.toNat = true ∧ laneOrderOk (Claims.twkPlaced s 1 7 ts1.toNat 2).lanes 8 = true ∧ bitsOf ts1.toNat 0 8 = 0xC5) ∧
    (∀ c ∈ [6, 7], let s := { withTwk (twkTrained [] [8, 8, 8, 8, 8, 8, 8, c] (some 67)) with clk := { Clk.reset with edges := 100 } }
      let fl := Claims.twkPlaced s 1 7 ts2.toNat 2
      twkTsZero ts2.toNat true = true ∧ blkOk ts2.toNat = true ∧ laneOrderOk fl.lanes 8 = true ∧ bitsOf ts2.toNat 0 8 = 0xC6 ∧ bitsOf ts2.toNat 24 8 = 1 ∧
      bitsOf ts2.toNat 16 8 = 8 ∧ fl.ts2Start = some 67 ∧ allAtLeast (bumpAt fl.ts2 8 7) 8 8 = (c == 7) ∧ 67 + 33 ≤ s.clk.edges) ∧
    blkOk bad.toNat = true ∧ twkTsZero bad.toNat true = true ∧ bitsOf bad.toNat 0 8 = 0xC6 ∧ bitsOf bad.toNat 24 8 ≠ 1 ∧ blkOk (ts1 ^^^ 1).toNat = false := by
  decide +kernel

/-- TwikelLinks, the other clauses. -/
theorem witness_TwikelLinks_due :
    (let s := withTwk { twkTrained [] [] none with fl := { FrameLink.reset with failedAt := some 5 } }
     (s.twk 1).training = true ∧ s.twkUse 1 = true ∧ (s.twk 1).fl.failedAt = some 5 ∧ lget 0 (s.twk 1).fl.sync 7 < 64) ∧
    (∀ b ∈ [0, 1], let s := { withTwk { Twk.reset with checks := [(0, 1000, 3)] } with clk := { Clk.reset with recent := [(2000, 3 + BitVec.ofNat 48 b)] } }
     (s.twk 1).checks = (0, 1000, 3) :: [] ∧
     ((s.passEdges 0).setTwk 1 { (s.passEdges 0).twk 1 with checks := [] }).clk.recent.any
       (fun p => Claims.within1us p.1 1000 && p.2 == 3) = (b == 0)) ∧
    (let s := withTwk { Twk.reset with up := true, owed := [0, 0, 0, 0, 0, 0, 0, 1], fl := { FrameLink.reset with owesAck := true } }
     (s.twk 1).up = true ∧ (s.twk 1).fl.discarding = false ∧ (s.twk 1).fl.owesAck = true ∧
     s.twkCreditAt 1 = some 8580) := by decide +kernel

def bigFrame (body : Nat) : BitVec 512 := BitVec.ofNat 512 (mkFrame 64 body)
def upTwk : Twk := { Twk.reset with up := true, fl := { FrameLink.reset with expect := 255, replay := [(7, 0), (8, 0)] } }

/-- TwikelFrames: TOKENS with one token, CREDIT, VERSION and EPOCH of the expected number, one received before, RETRY, IDLE. -/
theorem witness_TwikelFrames_good :
    let fs := [bigFrame (1 + 255 * 16 + 2 ^ 32), bigFrame (2 + 255 * 16 + 65535 * 2 ^ 32), bigFrame (3 + 255 * 16 + 2 ^ 136),
      bigFrame (4 + 255 * 16 + 9 * 2 ^ 32), bigFrame (1 + 254 * 16 + 2 ^ 32), bigFrame (5 + 8 * 2 ^ 32), bigFrame (7 * 2 ^ 12 + 2 ^ 20)]
    let s := withTwk upTwk
    (∀ i ∈ [0, 1, 2, 3, 4, 5, 6], let f := (lget 0 fs i).toNat
      (s.twk 1).up = true ∧ frameOk 64 f = true ∧ twkBad f = false ∧ frameType f = lget 0 [1, 2, 3, 4, 1, 5, 0] i ∧
      ((Claims.twkAcked s 1 f).twk 1).fl.judge f = (if i < 4 then .inOrder else if i = 4 then .old else
        ((Claims.twkAcked s 1 f).twk 1).fl.judge f)) := by decide +kernel

/-- TwikelFrames: a bad frame while frames are discarded; a frame on a link that is down. -/
theorem witness_TwikelFrames_bad :
    (let s := withTwk { upTwk with fl := { upTwk.fl with discarding := true } }
     (s.twk 1).up = true ∧ frameOk 64 1 = false ∧ (s.twk 1).fl.discarding = true) ∧
    ((withTwk Twk.reset).twk 1).up = false := by decide +kernel

def withQueue (q : Nat) (x : Silt) : State := { oneDie with queues := [(q, x)] }

theorem withQueue_queue (q : Nat) (x : Silt) : (withQueue q x).queue q = x := by
  simp [State.queue, withQueue, tget, tfind]

/-- SiltCommands: a class 1 queue whose middle and tail are full, whatever it stores. -/
theorem witness_SiltCommands_full (q : Nat) (w : SWord) :
    let x : Silt := { Silt.empty with tail := List.replicate 96 w, mid := List.replicate (2 ^ 19) w, inbox := [w] }
    Claims.pushing (withQueue q x) q w [] ∧ ((withQueue q x).queue q).full 1 = true := by
  simp only [Claims.pushing, withQueue_queue]
  refine ⟨⟨trivial, rfl⟩, ?_⟩
  simp only [Silt.full, siltCap, siltMidCap, List.length_replicate]
  decide

/-- SiltCommands: a class 1 queue with a word's room, and a word of a flushed packet. -/
theorem witness_SiltCommands_push : ∀ q ∈ [0, 191],
    let x : Silt := { Silt.empty with tail := List.replicate 95 (good 5 true), inbox := [good 5 true] }
    ((withQueue q x).queue q).inbox = good 5 true :: [] ∧ ((withQueue q x).queue q).drop = .none ∧
    ((withQueue q x).queue q).full 1 = false ∧ ((withQueue q { x with drop := .flushed }).queue q).drop = .flushed := by
  decide +kernel

/-- SiltCommands, pops of class 1: a queue in DIAG mode; the first and the last of three words; a token that was lost. -/
theorem witness_SiltCommands_pop :
    let link (x : Silt) : State := { withQueue 0 x with links := List.replicate 12 { Link.reset with up := true } }
    let last : Silt := { Silt.empty with head := [good 3 true], asm := [good 1 false, good 2 false] }
    let lost : Silt := { last with asm := [{ good 1 false with mark := .lost }, good 2 false] }
    ((withQueue 0 { Silt.empty with diag := true }).queue 0).diag = true ∧
    (let s := link { Silt.empty with head := [good 1 false, good 2 false, good 3 true] }
     s.linkReady (0 / 8) (0 % 8) = true ∧ s.behindWrite (0 / 8) (s.queue 0).asm = false ∧
     (match s.siltTake 0 1 with | some (w, _) => !w.eop | none => false) = true) ∧
    ((link last).queue 0).asm ≠ [] ∧ (link last).behindWrite (0 / 8) ((link last).queue 0).asm = false ∧
    (match (link last).siltTake 0 1 with
     | some (w, t) => w.eop && ((t.setQueue 0 { t.queue 0 with asm := [] }).takeItem 0 1 ((t.queue 0).asm ++ [w])).2.isSome
     | none => false) = true ∧
    (match (link lost).siltTake 0 1 with
     | some (w, t) => w.eop && ((t.setQueue 0 { t.queue 0 with asm := [] }).takeItem 0 1 ((t.queue 0).asm ++ [w])).2.isNone
     | none => false) = true := by decide +kernel

/-- SiltCommands: a pop of a fail queue, a refill, and the three timer actions at the end of a Drip timer. -/
theorem witness_SiltCommands_rest :
    (∀ q ∈ [256, 271], let s := withQueue q { Silt.empty with head := [good 1 true] }
     (s.queue q).diag = false ∧ s.handlerParked (q - 256) = false ∧ (s.siltTake q 3).isSome = true ∧ (s.queue q).abortDue = false ∧
     (s.queue q).visible (s.cutThr 3) ≠ 0 ∧ (s.queue q).head = good 1 true :: []) ∧
    (let s := withQueue 5 { Silt.empty with abortDue := true, drop := .rewound }
     (s.queue 5).abortDue = true ∧ (s.queue 5).drop ≠ .none) ∧
    (let s := withQueue 0 { Silt.empty with mid := List.replicate 33 (good 1 true), refill := true }
     siltClass 0 = some 1 ∧ (s.queue 0).refill = true ∧ (s.queue 0).mid ≠ []) ∧
    (∀ a ∈ [0, 1, 2], let s := { withQueue 0 { Silt.empty with drip := some 0 } with regs := [(sqOff 4, BitVec.ofNat 32 (a * 64))] }
     (s.queue 0).drip = some 0 ∧ (s.queue 0).diag = false ∧ (s.queue 0).dripTaken = false ∧
     (Claims.dripped s 0 0).fld (sqOff (4 * 1)) 6 2 = a) := by decide +kernel

/-- SiltOrder: its hypotheses hold of the queues of the SiltCommands witnesses; here of class 3. -/
theorem witness_SiltOrder :
    let s := withQueue 256 { Silt.empty with inbox := [good 5 true], head := [good 1 true] }
    (s.queue 256).inbox = good 5 true :: [] ∧ (s.queue 256).drop = .none ∧ (s.queue 256).full 3 = false ∧
    (s.queue 256).abortDue = false ∧ (s.siltTake 256 3).isSome = true := by decide +kernel

/-- PressureRows: a die that is up and one that is not; a class below its floor, recorded or not. -/
theorem witness_PressureRows_die :
    (oneDie.die 0).up = true ∧ (oneDie.die 5).up = false ∧
    (∀ b ∈ [false, true],
      let d : Die := { upDie with floorSince := List.replicate 8 (some 1), floorDone := List.replicate 8 b }
      let s : State := { oneDie with dies := d :: List.replicate 5 Die.reset }
      (s.die 0).up = true ∧ lget none (s.die 0).floorSince 7 = some 1 ∧ lget false (s.die 0).floorDone 7 = b) := by decide +kernel

/-- PressureRows, storage deadlock: a full lane with items of a RUNNING graph, and one without. -/
theorem witness_PressureRows_deadlock : ∀ h ∈ [0, 1],
    let l : Lane := { Lane.empty with fullSince := some (0, 0), head := if h = 1 then [plainItem .add 1 2 0] else [] }
    let s := { withInsn (plain .add) (plainItem .add 1 2 0) with lanes := [(laneKey 0 63 7, l)] }
    let t := s.passCycles 0 (0 + 0)
    s.fullSince 0 (.lane 63 7) = some (0, 0) ∧ tfind s.victims (regionKey 0 (.lane 63 7)) = none ∧
    t.victim (t.candidates 0 (.lane 63 7)) = (if h = 1 then some 1 else none) := by decide +kernel

/-- A write of a function that is accepted whole, decided. -/
def accepted (s : State) (fn off v : Nat) : Bool :=
  match busTarget fn off with
  | .reg l => s.answers (.reg l) && !s.closed fn l && Nat.land v l.row.refused == 0 && !staticBad l v &&
      !s.dynBad l v 0xFFFFFFFF && (Claims.discards s l v).isEmpty
  | _ => false

theorem of_accepted {s : State} {fn off v : Nat} (h : accepted s fn off v = true) : ∃ l, Claims.accepts s fn off v l := by
  unfold accepted at h
  split at h
  next l hl =>
    simp only [Bool.and_eq_true, Bool.not_eq_true', beq_iff_eq, List.isEmpty_iff] at h
    obtain ⟨⟨⟨⟨⟨h1, h2⟩, h3⟩, h4⟩, h5⟩, h6⟩ := h
    refine ⟨l, ⟨hl, h1, h2⟩, ?_, h6⟩
    rintro (h | h | h)
    · exact h h3
    · rw [h4] at h; cases h
    · rw [h5] at h; cases h
  next => cases h

/-- The located register of an offset. -/
def regAt (off : Nat) : Loc := (locate off).getD { row := { id := .idCfgReject, code := 0, off := 0, stride := 0, first := 0, count := 0, fields := [], refused := 0 }, inst := 0, idx := 0, off := 0 }

/-- RegisterAccess, writes: before the start; an unassigned offset; a partial write; a register of a die that is down; a reserved
bit and a Locked field of a running graph; a write that takes effect. -/
theorem witness_RegisterAccess_write :
    State.reset.answers (busTarget 16 0x3FFFFFC) = false ∧
    (busTarget 0 0x3FFFFFC = .none ∧ oneDie.answers .none = true) ∧
    (let l := regAt (lmOff 5 0x500)
     busTarget 0 (lmOff 5 0x500) = .reg l ∧ oneDie.answers (.reg l) = true ∧ oneDie.closed 0 l = true ∧ (7 : BitVec 4) ≠ 15) ∧
    (let l := regAt (lmOff 0 0x500)
     busTarget 0 (lmOff 0 0x503) = .reg l ∧ oneDie.answers (.reg l) = true ∧ oneDie.closed 0 l = false ∧
     Nat.land 0x2000 l.row.refused ≠ 0 ∧ accepted oneDie 0 (lmOff 0 0x500) 0x100 = true) ∧
    (let s := { oneDie with graphs := [(1, aGraph)] }
     let l := regAt (lmOff 0 0x204)
     busTarget 0 (lmOff 0 0x204) = .reg l ∧ s.answers (.reg l) = true ∧ s.closed 0 l = false ∧
     Nat.land 8 l.row.refused = 0 ∧ staticBad l 8 = false ∧ s.dynBad l 8 0xFFFFFFFF = false ∧
     (Claims.discards s l 8).foldl (fun a f => a + f.mask) 0 ≠ 0) := by decide +kernel

/-- RegisterAccess, reads: no link; an unassigned offset; a die that is down; a plain, a capturing and the high-water register. -/
theorem witness_RegisterAccess_read :
    State.reset.pcieUp = false ∧ oneDie.pcieUp = true ∧ busTarget 16 0x3FFFFFC = .none ∧
    (let l := regAt (lmOff 5 0x500)
     busTarget 0 (lmOff 5 0x500) = .reg l ∧ oneDie.answers (.reg l) = true ∧ l.row.code = 4 ∧ (oneDie.die l.inst).up = false) ∧
    (let l := regAt (lmOff 0 0x500)
     busTarget 0 (lmOff 0 0x500) = .reg l ∧ (oneDie.die l.inst).up = true ∧ l.row.id ≠ .lmMsOccHwm ∧ l.row.id ≠ .sqDbgPopLo ∧
     oneDie.captured l = none) ∧
    (let l := regAt (epochOff 4)
     busTarget 0 (epochOff 4) = .reg l ∧ l.row.code ≠ 4 ∧ (oneDie.captured l).isSome = true) ∧
    (regAt (lmOff 0 0x414)).row.id = .lmMsOccHwm ∧ busTarget 0 (lmOff 0 0x414) = .reg (regAt (lmOff 0 0x414)) := by
  decide +kernel

/-- HostForms: a doubleword of a VF's MSI-X table and of its PBA, a latch by the PF and by a VF; a link and none; the PF's
table, array and the rest of BAR4. -/
theorem witness_HostForms :
    (busTarget 16 0x23FC = .vector 63 3 ∧ oneDie.answers (.vector 63 3) = true ∧
     busTarget 16 0x3004 = .pba 1 ∧ oneDie.answers (.pba 1) = true ∧
     busTarget 0 0x243FFC = .latch 4095 ∧ busTarget 16 0x13FFC = .latch 4095 ∧ oneDie.answers (.latch 4095) = true) ∧
    (oneDie.pcieUp = true ∧ oneDie.ready = true ∧ State.reset.pcieUp = false ∧
     oneDie.cfg.gen < 16 ∧ oneDie.cfg.width < 64 ∧ oneDie.spaceRead .cfg 0 0 = (oneDie, 0x88101F3C)) := by decide +kernel

/-- HostForms, configuration space: the registers of the PCI Express capability lie at an offset that an access reaches. -/
theorem witness_HostForms_capability :
    Config.pcieCap + 0x10 = (BitVec.ofNat 26 (Config.pcieCap + 0x10)).toNat / 4 * 4 ∧
    Config.pcieCap + 8 = (BitVec.ofNat 26 (Config.pcieCap + 8)).toNat / 4 * 4 := by
  have h := Config.pcieCapAt.isLt
  simp only [Config.pcieCap, BitVec.toNat_ofNat]
  omega

def fieldAt (off lsb : Nat) : Field := ((regAt off).row.fields.find? (fun f => f.lsb == lsb)).getD { lsb := 0, width := 0, acc := .ro, cls := .live, reset := 0 }

/-- FieldWrites: a Live, a Boundary (not running and running), a W1C and an RC field are stored so; a Locked field of a running
graph and a field that a structure holds are not. -/
theorem witness_FieldWrites :
    (∀ p ∈ [(lmOff 0 0x500, 0), (pfpOff 15 0xC, 2), (lnkOff 11 0, 3), (fabOff 0x408, 0)],
      (locate p.1).isSome = true ∧ fieldAt p.1 p.2 ∈ (regAt p.1).row.fields ∧
      ownField (regAt p.1).row.id (fieldAt p.1 p.2).lsb = false ∧
      oneDie.lockedOut (regAt p.1) 0xFFFFFFFF (fieldAt p.1 p.2) = false) ∧
    ((fieldAt (lmOff 0 0x500) 0).acc = .rw ∧ (fieldAt (lmOff 0 0x500) 0).cls ≠ .boundary) ∧
    ((fieldAt (pfpOff 15 0xC) 2).acc = .rw ∧ (fieldAt (pfpOff 15 0xC) 2).cls = .boundary ∧
     oneDie.running (regAt (pfpOff 15 0xC)) 2 = false) ∧
    ({ oneDie with ports := List.replicate 16 { Port.reset with state := .running } } : State).running
      (regAt (pfpOff 15 0xC)) 2 = true ∧
    (fieldAt (lnkOff 11 0) 3).acc = .w1c ∧ (fieldAt (fabOff 0x408) 0).acc = .rc ∧
    ({ oneDie with graphs := [(1, aGraph)] } : State).lockedOut (regAt (lmOff 0 0x204)) 8 (fieldAt (lmOff 0 0x204) 0) = true ∧
    ownField (regAt (sqOff 0x8C)).row.id 0 = true := by decide +kernel

def anyGraphState : State := { oneDie with graphs := [(1, aGraph)] }

/-- RegisterRows: every row's write is accepted, with each value that its clauses tell apart. -/
theorem witness_RegisterRows :
    (∀ v ∈ [0, 2], accepted oneDie 0 (lnkOff 11 4) v = true) ∧
    (∀ v ∈ [0, 1, 2, 3], accepted oneDie 0 (sqOff 0x8C) v = true) ∧
    (∀ q ∈ [(0, 1), (256, 3)], siltClass ({ oneDie with regs := [(sqOff 0x80, BitVec.ofNat 32 q.1)] } : State).sqSel = some q.2 ∧
      accepted { oneDie with regs := [(sqOff 0x80, BitVec.ofNat 32 q.1)] } 0 (sqOff 0x8C) 2 = true) ∧
    (accepted oneDie 0 (lmOff 0 0x208) 5 = true ∧ oneDie.anyGraph = false ∧ anyGraphState.anyGraph = true ∧
      accepted anyGraphState 0 (lmOff 0 0x208) 0 = true) ∧
    (∀ b ∈ [0, 143, 0x600], (bankKind b).isSome = true ∧ accepted oneDie 0 (bankReg b) 4 = true) ∧
    (accepted oneDie 0 (bmvOff 31 0x10) 4096 = true ∧ (oneDie.chan 31).active = false ∧ oneDie.bmvOwner 31 = 0 ∧
      ({ oneDie with chans := List.replicate 32 { Chan.reset with active := true } } : State).chan 31 =
        { Chan.reset with active := true }) ∧
    (accepted oneDie 0 (pfpOff 15 4) 1 = true ∧ oneDie.pfpOn 15 = false ∧ oneDie.pfpLead 15 = 15) ∧
    (let s := { oneDie with regs := [(pfpOff 15 4, 1)] }
     accepted s 0 (pfpOff 15 4) 0 = true ∧ accepted s 0 (pfpOff 15 4) 1 = true ∧ s.pfpOn 15 = true) ∧
    accepted oneDie 0 (epochOff 0) 0 = true := by decide +kernel

/-- HostRegisterRows, queue pairs: tail, head, enable and disable of pair 0 by the PF and of pair 63 by VF 16. -/
theorem witness_HostRegisterRows_pairs : ∀ p ∈ [(0, 0), (16, 63)],
    let on := { oneDie with regs := [(Sys2Proof.Machine.qpOff p.2 0x14, 1)] }
    (p.1 = 0 ∨ qpFn p.2 = p.1) ∧
    (∀ s ∈ [0, 1], let x := if s = 1 then on else oneDie
      x.qpOn p.2 = (s == 1) ∧ (∀ o ∈ [0x18, 0x24], accepted x p.1 (Claims.pairOff p.1 p.2 o) 0 = true) ∧
      accepted x p.1 (Claims.pairOff p.1 p.2 0x14) 1 = true ∧ accepted x p.1 (Claims.pairOff p.1 p.2 0x14) 0 = true) ∧
    0 < on.sqSize p.2 ∧ (on.qp p.2).writing = false := by decide +kernel

/-- HostRegisterRows, the PF's own rows. -/
theorem witness_HostRegisterRows_pf :
    accepted { oneDie with erq := { Erq.reset with pending := 255 } } 0 (erqOff 4) 255 = true ∧
    accepted oneDie 0 (mcOff 0x40) 0 = true ∧ accepted oneDie 0 (mcOff 0x40) 1 = true ∧
    accepted oneDie 0 (pwrOff (0x100 + 4 * 0)) 1 = true ∧
    (∀ v ∈ [1, 3], accepted { oneDie with start := { oneDie.start with state := 2 } } 0 (startOff 4) v = true) ∧
    (0 < vecCount 0 ∧ 0 < vecCount 16 ∧ vecCount 16 ≤ 2047 ∧
      tget false ({ oneDie with msix := { oneDie.msix with pba := [(16 * 2048, true)] } } : State).msix.pba (16 * 2048 + 0) = true ∧
      tget false oneDie.msix.pba (16 * 2048 + 0) = false) ∧
    (oneDie.ready = true ∧ oneDie.sqDiag oneDie.sqSel = false ∧
      (let s := { withQueue 256 { Silt.empty with diag := true } with regs := [(sqOff 0x80, 256)] }
       s.sqDiag s.sqSel = true)) := by decide +kernel

/-- A descriptor of N words from DDR word 0 to word 4,096, with the format fields F and the actions in G. -/
def aDesc (n f g : Nat) : List Byte := leBytes 8 0 ++ leBytes 8 4096 ++ leBytes 4 n ++ leBytes 2 f ++ leBytes 2 g ++ leBytes 24 0
def withChan (x : Chan) : State := { oneDie with chans := List.replicate 31 Chan.reset ++ [x], start := { oneDie.start with capacity := 68719476736 } }
def listChan : Chan := { Chan.reset with active := true, byList := true, count := 1 }
def runChan (f g : Nat) : Chan := { listChan.run (aDesc 65 f g) with count := 1 }
def someData (b : List Byte) : HostData := { bytes := b, ep := [], errAt := none }

/-- BlockMover, list entries: no read waits; one is read while another runs; one runs, stops on reserved bits, ends in an error
of each kind. -/
theorem witness_BlockMover_list :
    (oneDie.chan 31).reading = false ∧
    (let s := withChan { runChan 0 0 with count := 2 }
     (s.chan 31).reading = true ∧ (s.chan 31).running = true) ∧
    (let s := withChan { listChan with count := 2 }
     (s.chan 31).reading = true ∧ (s.chan 31).running = false ∧ (s.chan 31).entry + 1 < (s.chan 31).count) ∧
    (let s := withChan listChan
     (s.chan 31).reading = true ∧ (s.chan 31).running = false ∧ ¬ (s.chan 31).entry + 1 < (s.chan 31).count ∧
     Claims.reported s (someData (aDesc 65 0 0 ++ leBytes 16 0)) = s ∧
     allZero (slice (aDesc 65 0 0 ++ leBytes 16 0) 48 16) = true ∧
     allZero (slice (aDesc 65 0 0 ++ leBytes 16 1) 48 16) = false ∧
     s.descCheck 31 0 (slice (aDesc 65 0 0 ++ leBytes 16 0) 0 48) = none ∧
     s.descCheck 31 0 (slice (aDesc 0 0 0 ++ leBytes 16 0) 0 48) = some (0x12, 0x15)) := by decide +kernel

/-- BlockMover, bursts: no channel is ready; channel 31 is granted, from device words and from the host; the last burst of a copy
of 65 words is read, meets a refused word, a poisoned one that stops, and one that does not fit. -/
theorem witness_BlockMover_burst :
    (oneDie.bmvPick = none ∧ (oneDie.chan 31).unread = none) ∧
    (∀ f ∈ [0, 1], let s := { withChan (runChan f 0) with regs := [(bmvOff 31 0, BitVec.ofNat 32 8)] }
     s.bmvHeld < 256 ∧ s.bmvPick = some (0, 31) ∧ (Claims.running s 31).sf = f) ∧
    (let s := withChan { runChan 0 0 with bursts := [{ k := 1, words := none, at_ := 0 }], granted := 2 }
     let d := Claims.running s 31
     let s2 := { s with start := { s.start with capacity := 64 } }
     let a : Bread := { s := s, words := [], err := none }
     (s.chan 31).unread = some { k := 1, words := none, at_ := 0 } ∧ d.sf = 0 ∧
     (Claims.readBurst s d 1 (someData [])).err = none ∧ (Claims.readBurst s2 d 1 (someData [])).err = some 0x10 ∧
     a.s.bmvRefused (d.src + (64 * 1 + 0)) false = false ∧ (a.s.idleRd 0x17 (d.src + (64 * 1 + 0))).2.p = false ∧
     fitsHost d (a.s.idleRd 0x17 (d.src + (64 * 1 + 0))).2.v = true) ∧
    (let d := descOf (aDesc 1 (1 + 2 ^ 10) 0)
     d.sf = 1 ∧ d.sop = true ∧ epHit [(0, 1)] (0 * fmtBits d.sf / 8) ((0 * fmtBits d.sf + fmtBits d.sf + 7) / 8) = true) ∧
    (let d := descOf (aDesc 1 (4 * 2 ^ 4 + 2 ^ 9) 0)
     d.df = 4 ∧ fitsHost d 0x100 = false ∧ fitsHost d 0xFF = true) := by decide +kernel

/-- BlockMover, writing: words for the host; a word refused, one behind a word held at another bank and at its own; a burst whose
last write is held, and issued; a channel that has nothing to write. -/
theorem witness_BlockMover_write :
    (∀ ch ∈ [0, 31], oneDie.bmvStep ch = none) ∧
    (let b : Burst := { k := 1, words := some [PWord.clean 5], at_ := 0 }
     let s := withChan { runChan 0x10 0 with bursts := [b], granted := 2 }
     (Claims.running s 31).df = 1 ∧ (s.bmvStep 31).isSome = true) ∧
    (∀ h ∈ [[], [{ addr := 2 ^ 35, w := PWord.clean 1, chan := some 31 }]],
     let b : Burst := { k := 1, words := some [PWord.clean 5], at_ := 0 }
     let held : Die := { upDie with held := h }
     let s := { withChan { runChan 0 0 with bursts := [b], granted := 2 } with dies := held :: List.replicate 5 Die.reset }
     let full := s.setChan 31 { runChan 0 0 with bursts := [{ b with at_ := 1 }], granted := 2 }
     let small := { s with start := { s.start with capacity := 64 } }
     s.bmvRefused (4096 + 64) true = false ∧ small.bmvRefused (4096 + 64) true = true ∧ s.chanHeld 31 = h ∧
     (s.bmvStep 31).isSome = h.isEmpty ∧ (full.bmvStep 31).isSome = h.isEmpty) := by decide +kernel

/-- BlockMover, the end of a descriptor: none has ended; the last of a list without an action and with a completion record; one
before the last, with the next entry read and not. -/
theorem witness_BlockMover_end :
    oneDie.bmvAtEnd 31 = false ∧
    (∀ g ∈ [0, 1], ∀ k ∈ [1, 2], ∀ e ∈ [none, some (0, aDesc 65 0 0)],
      let s := withChan { runChan 0 g with granted := 2, count := k, ahead := e }
      let d := Claims.running s 31
      d.recEn = (g == 1) ∧ d.latchEn = false ∧ d.tokEn = false ∧ d.msixEn = false ∧ (s.chan 31).byList = true ∧
      (s.chan 31).status = 0 ∧ (s.chan 31).stopping = none ∧ (s.chan 31).ahead = e ∧ (s.chan 31).entry + 1 ≤ k ∧
      s.bmvAtEnd 31 = true) := by decide +kernel

/-- oneDie with 64 GiB of DDR; the BAR2 window stands at page `page`. -/
def withDdr (page : Nat) : State :=
  { oneDie with start := { oneDie.start with capacity := 68719476736 }, regs := [(hostOff 0, BitVec.ofNat 32 page)] }
def bytesOf (n : Nat) : List (Option Byte) := (leBytes 8 n).map some

/-- Bar2Window: the first and the last container, a word of DDR, one of the carve-out and one that nothing holds; a write of five
bytes, of some and of none of the word's bytes. -/
theorem witness_Bar2Window :
    (State.reset.pcieUp = false ∧ bar2Size < bar2Size - 7 + 8) ∧
    ({ oneDie with start := { oneDie.start with state := 0 } } : State).ready = false ∧
    (∀ off ∈ [0, bar2Size - 8],
      (withDdr 0).pcieUp = true ∧ (withDdr 0).ready = true ∧ off + 8 ≤ bar2Size ∧ off % 8 = 0 ∧
      (withDdr 0).bar2RdRefused ((withDdr 0).bar2Word off) = false ∧
      (withDdr 0).bar2WrRefused ((withDdr 0).bar2Word off) = false) ∧
    (withDdr 3).bar2WrRefused ((withDdr 3).bar2Word 0) = true ∧ (withDdr 4).bar2RdRefused ((withDdr 4).bar2Word 0) = true ∧
    ((bytesOf 5).length = 8 ∧ (∀ i < 5, (lget none (bytesOf 5) i).isSome = true)) ∧
    ((∃ i < 5, (lget none (none :: bytesOf 5) i).isSome = true) ∧ (∃ i < 5, lget none (none :: bytesOf 5) i = none)) ∧
    (∀ i < 5, lget none (List.replicate 8 (none : Option Byte)) i = none) := by decide +kernel

/-- MemoryFrames: a quiet state; the storing forms reach a word, and a register and a port are there to be read. -/
theorem witness_MemoryFrames :
    Safety.Quiet (withDdr 0) = true ∧
    (∀ off ∈ [0, bar2Size - 8], (withDdr 0).kindOf ((withDdr 0).bar2Word off) = .ddr (off / 8) ∧ off / 8 < (withDdr 0).carve) ∧
    (let f := memFlit ftWr 6 0 0 0 (.clean 5) false
     let s := { flying 0 (some 511) f with start := (withDdr 0).start }
     Safety.Quiet s = true ∧ flitType f = ftWr ∧ (s.dir 0).wire = [(some (s.dir 0).expect, f)] ∧ s.dirUp 0 = true ∧
     flitOk f = true ∧ flitBad f = false ∧ flitDest f = dirTo 0 ∧ s.kindOf (flitAddr f) = .ddr 0) ∧
    (let d : Die := { upDie with held := [{ addr := frameWord 0 7, w := .clean 5, chan := none }] }
     let s : State := { oneDie with dies := d :: List.replicate 5 Die.reset }
     Safety.Quiet s = true ∧ (s.die 0).held = [{ addr := frameWord 0 7, w := .clean 5, chan := none }] ∧
     s.chans.all (fun x => x.bursts.isEmpty) = true ∧ s.bankState (frameBank 0 (frameWord 0 7)) = 0 ∧ (s.die 0).wbuf.all (fun b => b.addr != frameWord 0 7) = true) ∧
    (busTarget 16 0 = .reg (regAt 0) ∧ (regAt 0).row.id ≠ .sqDbgPopLo) ∧
    (let s := withPort { idlePort with fl := { idlePort.fl with owesAck := true } }
     Safety.Quiet s = true ∧ (s.port 0).active = true ∧ (s.port 0).fl.discarding = false ∧ (s.port 0).fl.owesAck = true) := by
  decide +kernel

/-- Pair 0 with one command to fetch. -/
def fetching : State :=
  { oneDie with regs := [(Sys2Proof.Machine.qpOff 0 0x14, 1)], qps := [(0, { Qp.reset with tail := 1 })] }
def packet (op flags index par : Nat) : BitVec 512 := BitVec.ofNat 512 (op + flags * 2 ^ 16 + index * 2 ^ 52 + par * 2 ^ 128)

/-- CommandFetch: pair 0 is served; NOP passes every check, opcode 0xFFFF none; a FENCE waits behind an open command; a command at
a boundary is held, unless 64 are. -/
theorem witness_CommandFetch :
    (oneDie.fetchPick ≠ some 0 ∧ fetching.engineOn = true ∧ fetching.fetchPick = some 0) ∧
    (let c := Claims.made fetching 0 (packet 1 0 0 0)
     c.fence = false ∧ c.atBoundary = false ∧ (Claims.passed fetching 0).cmdRefused c = none) ∧
    ((Claims.passed fetching 0).cmdRefused (Claims.made fetching 0 (packet 0xFFFF 0 0 0)) = some (0x11, 0, 0)) ∧
    (let s := { fetching with ce := { Engine.reset with open_ := [Claims.made fetching 0 (packet 1 0 0 0)] } }
     s.fetchPick = some 0 ∧ (Claims.made s 0 (packet 1 2 0 0)).fence = true ∧ s.outstanding 0 = true) ∧
    (let c := Claims.made fetching 0 (packet 0x0102 1 0 1)
     c.atBoundary = true ∧ c.fence = false ∧ (Claims.passed fetching 0).cmdRefused c = none ∧
     (Claims.passed fetching 0).ce.deferred.length + (Claims.passed fetching 0).ce.due.length < 64 ∧
     (let s := { fetching with ce := { fetching.ce with deferred := List.replicate 64 c } }
      s.fetchPick = some 0 ∧ (Claims.passed s 0).cmdRefused c = none ∧
      64 ≤ (Claims.passed s 0).ce.deferred.length + (Claims.passed s 0).ce.due.length)) ∧
    (0 < ({ Qp.reset with ahead := 1 } : Qp).ahead ∧ (fetching.qp 0).ahead = 0 ∧ (fetching.ringRead 0).outbox ≠ fetching.outbox ∧
     ({ oneDie with d3hot := true } : State).d3hot = true ∧ oneDie.d3hot = false ∧ oneDie.ce.deferAt = none ∧
     ({ oneDie with ce := { oneDie.ce with deferAt := some 0 } } : State).ce.deferAt = some 0) := by decide +kernel

/-- A command of the PF that has begun, with parameters. -/
def aCmd (op index par : Nat) : Cmd :=
  { id := 0, qp := 0, fn := 0, pkt := packet op 0 index par, beganAt := 0, res := [], mute := false }
/-- A state in which it is next, and the one in which it takes effect. -/
def turning (s : State) (c : Cmd) : State := { s with ce := { Engine.reset with begun := [c] } }
def turned (s : State) (c : Cmd) : State := { s with ce := { Engine.reset with open_ := [c] } }

/-- A command that is alone is next: with this, the witnesses below give a state and a command, and the hypotheses on `turned`. -/
theorem witness_turn {s : State} {c : Cmd} (h : s.ready = true) : Claims.turn (turning s c) c.op c (turned s c) := by
  refine ⟨h, [], ?_, ?_, rfl⟩
  · simp [turning, takeFirst]
  · simp [turning]

/-- FieldCommands: SET_FIELD of a Live field, of one of a die that is down, refused and locked; no such field; GET_FIELD. -/
theorem witness_FieldCommands :
    Claims.commandRow 0x0506 = some .logRead ∧ takeFirst (fun c => c.op == 0x0506) oneDie.ce.begun = none ∧
    (aCmd 1 0 0).op = 0x0001 ∧ (aCmd 2 0 0).op = 0x0002 ∧ oneDie.ready = true ∧
    (let c := aCmd 0x10 0 (lmOff 0 0x500 + 13 * 2 ^ 40 + 256 * 2 ^ 64)
     let l := regAt (lmOff 0 0x500)
     let f := fieldAt (lmOff 0 0x500) 0
     c.op = 0x10 ∧ c.field = some (l, f) ∧ (turned oneDie c).closed c.fn l = false ∧
     ((turned oneDie c).writeReg c.fn l (Claims.setValue c f) f.mask).2 = .done ∧
     ((turned oneDie c).writeReg c.fn l 0x1FFF f.mask).2 = .refused) ∧
    (let c := aCmd 0x10 0 (lmOff 0 0x500 + 13 * 2 ^ 40 + 0x1FFF * 2 ^ 64)
     ((turned oneDie c).writeReg c.fn (regAt (lmOff 0 0x500)) (Claims.setValue c (fieldAt (lmOff 0 0x500) 0))
       (fieldAt (lmOff 0 0x500) 0).mask).2 = .refused) ∧
    (let c := aCmd 0x10 0 (lmOff 5 0x500 + 13 * 2 ^ 40)
     c.field.isSome = true ∧ (turned oneDie c).closed c.fn (regAt (lmOff 5 0x500)) = true) ∧
    (let c := aCmd 0x10 0 (lmOff 0 0x204 + 23 * 2 ^ 40 + 8 * 2 ^ 64)
     c.field.isSome = true ∧ ((turned anyGraphState c).writeReg c.fn (regAt (lmOff 0 0x204))
       (Claims.setValue c (fieldAt (lmOff 0 0x204) 0)) (fieldAt (lmOff 0 0x204) 0).mask).2 = .locked) ∧
    (aCmd 0x10 0 0x3FFFFFC).field = none ∧ (aCmd 0x11 0 0x3FFFFFC).field = none ∧
    (aCmd 0x11 0 (lmOff 0 0x500 + 13 * 2 ^ 40)).field.isSome = true ∧ (aCmd 0x11 0 0).op = 0x11 := by decide +kernel

/-- An image of one block and one slot (R71, R72), with its CRC. -/
def anImage : List Byte :=
  let b := ([0x37A9C51E2, 1, 0x05A880001, 1, 1, 0, 15, 0, 0, 1, 0, 16, 0, 0].map (leBytes 8)).flatten
  b ++ leBytes 8 (crc32 b)
def hostRead (b : List Byte) : HostData := { bytes := b, ep := [], errAt := none }
/-- The CDT is enabled. -/
def withCdt : State := { oneDie with regs := [(fabOff 0x400, 0x800)] }

/-- GraphCommands, GRAPH_LOAD: the smallest image loads; another magic does not; a pool is being built. -/
theorem witness_GraphCommands_load :
    let c := aCmd 0x0100 0 (120 * 2 ^ 64)
    let t := turned withCdt c
    c.op = 0x0100 ∧ dataBad (hostRead anImage) = false ∧ t.imageRefused (Claims.image (hostRead anImage) c) = none ∧
    t.building = false ∧ t.freeBase (imgSlots (Claims.image (hostRead anImage) c)) = some 1 ∧ t.freeHandle = some 1 ∧
    t.imageRefused (Claims.image (hostRead (0 :: anImage.drop 1)) c) = some (1, 0) ∧
    ({ t with dies := { upDie with building := true } :: List.replicate 5 Die.reset } : State).building = true := by
  decide +kernel

/-- GraphCommands, GRAPH_START of a LOADED graph, before the CDT is enabled and on a header that is not Free. -/
theorem witness_GraphCommands_start :
    let c := aCmd 0x0101 0 (1 + 7 * 2 ^ 8 + 1 * 2 ^ 16 + 4 * 2 ^ 32)
    let g := { aGraph with state := .loaded }
    let free := { withCdt with graphs := [(1, g)], mem := [(4, .clean 100)] }
    let used := { withCdt with graphs := [(1, g)], mem := [(4, .clean 100), (frameWord 0 99, .clean (BitVec.ofNat 36 (2 ^ 9)))] }
    c.op = 0x0101 ∧ (turned free c).startRefused c = none ∧ (turned oneDie c).startRefused c = some (0x12, 6) ∧
    (used.hdr 4).st ≠ 0 ∧ (turned used c).startRefused c = some (0x12, 4) := by decide +kernel

/-- GraphCommands, GRAPH_ABORT, GRAPH_PARK, GRAPH_RESUME and ORPHAN_SWEEP in a state that allows each and in one that does not. -/
theorem witness_GraphCommands_states :
    let run := turned anyGraphState (aCmd 0x0102 0 1)
    let parked := turned { oneDie with graphs := [(1, { aGraph with state := .parked })] } (aCmd 0x0104 0 1)
    let frozen := turned { oneDie with graphs := [(1, { aGraph with state := .frozen })] } (aCmd 0x0105 0 (1 + 3 * 2 ^ 8))
    (aCmd 0x0102 0 1).graph = 1 ∧ run.graphRefused 1 [.loaded, .running, .parked, .frozen] = none ∧
    run.graphRefused 2 [.loaded, .running, .parked, .frozen] = some 0x12 ∧
    run.graphRefused 1 [.running] = none ∧ parked.graphRefused 1 [.running] = some 0x12 ∧
    parked.graphRefused 1 [.parked] = none ∧ run.graphRefused 1 [.parked] = some 0x12 ∧
    (∀ m ∈ [0, 1, 2], (aCmd 0x0105 0 (1 + m * 2 ^ 8)).par 8 8 = m ∧ run.graphRefused 1 [.running, .frozen] = none) ∧
    frozen.graphRefused 1 [.frozen] = none ∧ run.graphRefused 1 [.frozen] = some 0x12 := by decide +kernel

/-- GraphCommands, ORPHAN_SWEEP: one runs already; one finds an entry of a context without a header, and ends; an entry of a
context of the graph does not qualify. -/
theorem witness_GraphCommands_sweep :
    let c := aCmd 0x0105 0 (1 + 2 * 2 ^ 128)
    let w : Sweep := { cmd := c, pos := 0, found := 0, listed := [] }
    let s : State := { withCdt with graphs := [(1, aGraph)], sweep := some w, mem := [(4, .clean 100)] }
    let x : Ent := { inSet := true, idx := 0, e := { MsEntry.empty with valid := true, cid := 4, ip := 1 } }
    let owned := { s with mem := [(4, .clean 100), (frameWord 0 99, .clean (BitVec.ofNat 36 (2 ^ 9 + 2 ^ 11)))] }
    (s.sweepOn w).2 = true ∧ (s.sweepOn w).1.sweep.isSome = true ∧ s.sweep ≠ none ∧ w.cmd.par 8 8 = 0 ∧
    (s.readHdr x.e.cid.toNat).2.st = 0 ∧ (owned.readHdr 4).2.st ≠ 0 ∧ (owned.readHdr 4).2.graph = c.graph ∧ w.listed.length < 16 * w.cmd.par 128 32 ∧ owned.sweep = some w := by decide +kernel

/-- GraphCommands, INJECT_TOKENS: inline; read from the host good, with a reserved bit and with port 3. -/
theorem witness_GraphCommands_inject :
    (aCmd 0x0106 0 (2 ^ 16)).par 0 8 = 0 ∧
    (let c := aCmd 0x0106 0 (1 + 2 ^ 16)
     let xs (v : Nat) := (List.range (c.par 16 16)).map (fun k => leAt (hostRead (leBytes 16 v)).bytes (16 * k) 16)
     c.par 0 8 ≠ 0 ∧ (xs 4).any (fun x => bitsOf x 61 3 != 0 || bitsOf x 104 23 != 0) = false ∧
     ((xs 4).map tokenOf).any tokenBad = false ∧
     (xs (2 ^ 61)).any (fun x => bitsOf x 61 3 != 0 || bitsOf x 104 23 != 0) = true ∧
     ((xs 0xFFFFFF).any (fun x => bitsOf x 61 3 != 0 || bitsOf x 104 23 != 0) = false ∧
      ((xs 0xFFFFFF).map tokenOf).any tokenBad = true)) := by decide +kernel

/-- A command of a Block Mover channel with the parameter bytes of a descriptor. -/
def chanCmd (op : Nat) (b : List Byte) : Cmd := aCmd op 31 (leNat b)

/-- UnitCommands, channels: started, refused, busy; stopped while idle, running, waiting for an entry, and stopping already. -/
theorem witness_UnitCommands_channels :
    let c := chanCmd 0x0200 (aDesc 65 0 0)
    let bad := chanCmd 0x0200 (aDesc 0 0 0)
    let stop := aCmd 0x0201 31 1
    let idle := withChan Chan.reset
    c.op = 0x0200 ∧ c.index = 31 ∧ ((turned idle c).chan 31).active = false ∧ (turned idle c).descCheck 31 0 c.bytes = none ∧
    (turned idle bad).descCheck 31 0 bad.bytes = some (0x12, 0x15) ∧ ((turned (withChan (runChan 0 0)) c).chan 31).active = true ∧
    stop.op = 0x0201 ∧
    (let x := (turned (withChan (runChan 0 0)) stop).chan 31
     x.active = true ∧ x.stopping = none ∧ x.running = true ∧ x.doneWords ≠ (descOf x.desc).n) ∧
    (let x := (turned (withChan { runChan 0 0 with doneWords := 65 }) stop).chan 31
     x.active = true ∧ x.stopping = none ∧ x.running = true ∧ x.doneWords = (descOf x.desc).n) ∧
    (let x := (turned (withChan listChan) stop).chan 31
     x.active = true ∧ x.stopping = none ∧ x.running = false) ∧
    ((turned (withChan { runChan 0 0 with stopping := some true }) stop).chan 31).stopping.isSome = true := by decide +kernel

/-- UnitCommands, banks and repairs: Sleep of the first and the last bank of L0; a die that is down; Off of a bank in use; a
waiting command; a repair and one of no bank. -/
theorem witness_UnitCommands_banks :
    (∀ b ∈ [0, 143], let c := aCmd 0x0202 0 (b + 2 ^ 16)
      c.op = 0x0202 ∧ (0x600 ≤ c.par 0 16 ∨ ((turned oneDie c).die (c.par 0 16 / 256)).up = true) ∧
      Claims.bankWaited (turned oneDie c) c = false ∧ (turned oneDie c).bankRefused b 1 = none) ∧
    (let c := aCmd 0x0202 0 (0x500 + 2 ^ 16)
     c.par 0 16 < 0x600 ∧ ((turned oneDie c).die (c.par 0 16 / 256)).up = false) ∧
    (turned anyGraphState (aCmd 0x0202 0 (64 + 2 * 2 ^ 16))).bankRefused 64 2 = some 0x30 ∧
    (let c := aCmd 0x0202 0 (2 ^ 16)
     Claims.bankWaited { oneDie with ce := { Engine.reset with open_ := [c, { c with id := 1, res := [0] }] } } c = true) ∧
    ((aCmd 0x0203 0 0).op = 0x0203 ∧ oneDie.repairRefused 0 0 = none ∧ oneDie.repairRefused 0xFFFF 0 = some 1) := by
  decide +kernel

/-- UnitCommands, PORT_CONFIG: the enable bit set; a vector that the owner lacks; a Locked field of an enabled port. -/
theorem witness_UnitCommands_config :
    let c := aCmd 0x0300 0 (15 + 1 * 2 ^ 16 + 1 * 2 ^ 32)
    let v := aCmd 0x0300 0 (15 + 16 * 2 ^ 16 + 0x7FF00 * 2 ^ 160)
    let own := aCmd 0x0300 0 (15 + 16 * 2 ^ 16 + 5 * 2 ^ 160)
    let on : State := { oneDie with regs := [(pfpOff 15 4, 1)] }
    c.op = 0x0300 ∧ c.images.length = 1 ∧
    c.images.any (fun p => oneDie.dynBad p.1 p.2 (2 ^ 32 - 1) || oneDie.foreignGraph c.fn p.1 p.2) = false ∧
    c.images.any (fun p => p.1.row.fields.any (oneDie.lockedOut p.1 p.2)) = false ∧
    v.images.any (fun p => ({ oneDie with regs := [(pfpOff 15 0, 1)] } : State).dynBad p.1 p.2 (2 ^ 32 - 1)) = true ∧
    own.images.any (fun p => on.dynBad p.1 p.2 (2 ^ 32 - 1) || on.foreignGraph own.fn p.1 p.2) = false ∧
    own.images.any (fun p => p.1.row.fields.any (on.lockedOut p.1 p.2)) = true := by decide +kernel

/-- UnitCommands, POUR_ARM: armed, busy, not IDLE; a STOP of a running port, of an armed one on either side of the examination of tick 0, of one that stops, and of none. EPOCH_SCHEDULE: cancelled, too near, and
exactly 1,000 ns ahead. -/
theorem witness_UnitCommands_ports :
    let arm := aCmd 0x0301 0 0
    let stop := aCmd 0x0301 0 (1 * 2 ^ 8)
    arm.par 8 8 = 0 ∧ stop.par 8 8 ≠ 0 ∧
    (((withPort idlePort).port 0).run.clearing = false ∧ ((withPort idlePort).port 0).state = .idle) ∧
    ((withPort { idlePort with run := { Run.reset with clearing := true } }).port 0).run.clearing = true ∧
    ((withPort Port.reset).port 0).state ≠ .idle ∧ ((withPort Port.reset).port 0).state ≠ .armed ∧
    ((withPort Port.reset).port 0).state ≠ .running ∧
    (((withPort aRunning).port 0).state = .running ∧ ((withPort aRunning).port 0).run.stop = none) ∧
    (∀ k ∈ [0, 1], let x := { idlePort with state := .armed, run := { Run.reset with ticks := k } }
     ((withPort x).port 0).state = .armed ∧ ((withPort x).port 0).run.stop = none) ∧
    ((withPort { aRunning with run := { aRunning.run with stop := some (2, 0) } }).port 0).run.stop.isSome = true ∧
    (aCmd 0x0302 0 (2 ^ 64)).par 64 8 = 1 ∧
    (∀ x ∈ [999, 1000], (aCmd 0x0302 0 x).par 64 8 ≠ 1 ∧
      ((aCmd 0x0302 0 x).par 0 64 < (aCmd 0x0302 0 x).beganAt.toNat + 1000 ↔ x = 999)) := by decide +kernel

def withBlend (b : Blend) : State := { oneDie with blend := b }

/-- BlendCommands, slots: staging with nothing pending and with an activation pending; the read clean and not; a slot that
verifies and one that does not; an activation accepted and refused; cancelling. -/
theorem witness_BlendCommands_slots :
    let free := withBlend Blend.reset
    let busy := withBlend { Blend.reset with act := some (0, 0, 5) }
    let two := withBlend { Blend.reset with slots := [lget noSlot Blend.reset.slots 0, { lget noSlot Blend.reset.slots 0 with verified := true }] }
    (free.blend.act = none ∧ free.blend.revert = none ∧ busy.blend.act.isSome = true) ∧
    dataBad (hostRead []) = false ∧ dataBad { hostRead [] with ep := [(0, 64)] } = true ∧
    (free.bslot 0).failure free.blend.counter = none ∧ (free.bslot 1).failure free.blend.counter = some (0x12, 1) ∧
    two.activateRefused 0 1000 = none ∧ two.activateRefused 0 999 = some (0x12, 3) ∧
    free.activateRefused 0 1000 = some (0x12, 2) := by decide +kernel

/-- BlendCommands, stores and rows: the log's range; rows of a die that is up, and writes while no graph is; a selector write; a
settings read with an empty store and with two bad copies; a burn step before the last and the last. -/
theorem witness_BlendCommands_stores :
    (oneDie.die 0).up = true ∧ (oneDie.die 5).up = false ∧ (aCmd 0x0600 5 1).index = 5 ∧ (aCmd 0x0600 0 1).par 0 8 ≠ 0 ∧
    (oneDie.die 0).sweeping = false ∧ oneDie.anyGraph = false ∧ anyGraphState.anyGraph = true ∧
    (∀ b ∈ [true, false], ((withBlend { Blend.reset with selDue := b }).blend.selDue = b)) ∧
    (let s := withBlend { Blend.reset with reading := some 0 }
     s.blend.reading = some 0 ∧ (match s.blend.read s.activeSlot with | .ok _ => true | .error _ => false) = true) ∧
    (let s := withBlend { Blend.reset with reading := some 0, pss0 := .bad, pss1 := .bad }
     (match s.blend.read s.activeSlot with | .ok _ => false | .error _ => true) = true) ∧
    (∀ k ∈ [1, 2], let s := withBlend { Blend.reset with burning := some k }
     s.blend.burning = some k ∧ (k ≤ s.blend.counter + 1 ↔ k = 1)) := by decide +kernel

/-- Kaolin is ready with its seal closed; the Command Engine holds one request of a type, for a command. -/
def okKao : Kao := { Kao.reset with rstLow := false, ready := true, refOk := true }
def aReq (ty : Nat) (c : Cmd) : SealReq := { ty := ty, cmd := some c, body := [], since := 0, sendAt := 0 }
def withReq (k : Kao) (ty : Nat) (c : Cmd) : State :=
  { oneDie with kao := k, sealPort := { SealEnd.reset with up := true, waitingR := [aReq ty c] } }
def kRun (ty a b q n : Nat) : KRun :=
  { params := leBytes 1 ty ++ leBytes 1 a ++ leBytes 1 b ++ leBytes 1 q ++ leBytes 4 n ++ leBytes 24 0, cmd := none, sentTb := 0,
    started := true, startMec := 2, startCal := 1, coefs := [0], uncal := true, startEdge := none, stops := 0, conv := 0,
    sampleFrom := 0, samples := [], refFault := false, ended := none }

/-- SealRequests, the Command Engine: 63 and 64 requests held, every mode, and a calibration write with and without another. -/
theorem witness_SealRequests_commands :
    (∀ n ∈ [63, 64], ((turned (withReq okKao 1 (aCmd 0x0400 0 0)) (aCmd 0x0400 0 0)).sealPort.waitingR.filter
        (fun x => x.ty == 1)).length = 1 ∧
      (List.replicate n (aReq 1 (aCmd 0x0400 0 0))).filter (fun x => x.ty == 1) = List.replicate n (aReq 1 (aCmd 0x0400 0 0))) ∧
    (∀ m ∈ [0, 4, 5, 6], (aCmd 0x0401 0 m).op = 0x0401 ∧ (aCmd 0x0401 0 m).par 0 8 = m) ∧
    (∀ ty ∈ [4, 5], (withReq okKao ty (aCmd 0x0402 0 0)).sealPort.waitingR.any (fun x => decide (5 ≤ x.ty)) = (ty == 5)) := by
  decide +kernel

/-- SealRequests, every request row: served, and not served for each reason; MEASURE likewise, at its limit of 16. -/
theorem witness_SealRequests_rows :
    (∀ ty ∈ [2, 3, 4, 5, 6, 7], (Claims.sealRow ty true 0 false).isSome = true ∧ (Claims.sealRow ty false 0 true).isSome = true ∧
      let s := withReq okKao ty (aCmd 0x0401 0 0)
      (s.sealPort.up = true ∧ s.kao.ready = true ∧
        s.sealPort.waitingR.find? (fun x => x.ty == ty) = some (aReq ty (aCmd 0x0401 0 0))) ∧
      oneDie.sealPort.up = false ∧ (withReq Kao.reset ty (aCmd 0 0 0)).kao.ready = false ∧
      (withReq okKao 1 (aCmd 0 0 0)).sealPort.waitingR.find? (fun x => x.ty == ty) = none) ∧
    (∀ n ∈ [15, 16], (withReq { okKao with held := List.replicate n (kRun 1 0 1 1 1) } 1 (aCmd 0x0400 0 0)).kao.open_ = n) ∧
    (withReq okKao 1 (aCmd 0x0400 0 0)).measurePick = some (aReq 1 (aCmd 0x0400 0 0)) ∧
    (withReq okKao 2 (aCmd 0x0400 0 0)).measurePick = none := by decide +kernel

/-- SealRequests, READ, RELEASE and SIGN: below, at and above the oldest record and the covered end; covered, joined, with 129
and with 128 blocks free. -/
theorem witness_SealRequests_serve :
    let k : Kao := { okKao with oldest := 5, seqNext := 9, blocks := [leBytes 8 6] }
    (∀ f ∈ [4, 5], let c := aCmd 0x0401 0 (f * 2 ^ 64)
      c.par 0 8 = 0 ∧ (c.par 64 64 < k.oldest ↔ f = 4)) ∧ (aCmd 0x0401 0 1).par 0 8 ≠ 0 ∧
    k.coveredEnd = 7 ∧
    (∀ f ∈ [4, 5, 7, 8], let c := aCmd 0x0401 0 (5 + f * 2 ^ 64)
      (c.par 64 64 < k.oldest ∨ k.coveredEnd < c.par 64 64) ↔ (f = 4 ∨ f = 8)) ∧
    ({ k with seqNext := 7 } : Kao).seqNext ≤ ({ k with seqNext := 7 } : Kao).coveredEnd ∧ k.coveredEnd < k.seqNext ∧
    ({ k with signing := [{ n := 8, head := [], bySign := false, msg := none }] } : Kao).signing.any (fun m => m.n + 1 == k.seqNext) = true ∧
    k.signing.any (fun m => m.n + 1 == k.seqNext) = false ∧
    (∀ n ∈ [127, 128], 256 < (List.replicate n (leBytes 8 6)).length + k.signing.length + 129 ↔ n = 128) := by decide +kernel

/-- SealRequests, calibration writes: sealed, blocked, begun; no image, a bad one. (An image that passes every check carries a
signature over the device ID, which no Lean term evaluates.) -/
theorem witness_SealRequests_calibration :
    okKao.sealClosed = true ∧
    ({ okKao with sealClosed := false, mec := 0xFFFFFFFF } : Kao).blocked = true ∧
    ({ okKao with cal := some [] } : Kao).cal = some [] ∧ okKao.cal = none ∧
    Claims.calCheck okKao (aReq 7 (aCmd 0x0402 0 0)) [] = some (0x12, 2) ∧
    leAt (leBytes 4 0 ++ leBytes 2 1) 4 2 = 1 ∧ leAt (leBytes 4 0 ++ leBytes 2 2) 4 2 = 2 := by decide +kernel

def withKao (k : Kao) (rs : List KRun) : State := { oneDie with kao := { k with held := rs } }
/-- A request for an interval from channel 0 to channel 31. -/
def tdcRun (q n : Nat) : KRun := kRun 2 0 31 q n
def awaiting (c : Nat) (r : KRun) : KRun → Bool := fun x => x.awaits c false && decide (x.params = r.params)

/-- KaolinEvents, edges: a dead channel, none that waits; before and at the sample's start; past 10 µs, a further and the last
stop edge. -/
theorem witness_KaolinEvents_edges :
    (withKao { okKao with lastEdge := [(0, rawTime 10 0 + 1)] } []).kao.dead 0 (rawTime 10 1) = true ∧
    (withKao okKao []).kao.dead 0 0 = false ∧ takeFirst (fun x => x.awaits 0 false) (withKao okKao []).kao.held = none ∧
    takeFirst (fun x => x.awaits 0 false) (withKao okKao [tdcRun 2 1]).kao.held = some (tdcRun 2 1, []) ∧
    (tdcRun 2 1).startEdge = none ∧ rawTime 0 0 < ({ tdcRun 2 1 with sampleFrom := 1 } : KRun).sampleFrom ∧
    (tdcRun 2 1).sampleFrom ≤ rawTime 0 0 ∧
    (let r : KRun := { tdcRun 2 1 with startEdge := some (0, 0) }
     takeFirst (fun x => x.awaits 31 false) (withKao okKao [r]).kao.held = some (r, []) ∧
     0 + stopLimit < rawTime 20001 0 ∧ rawTime 20000 0 ≤ 0 + stopLimit ∧ r.stops + 1 < r.q ∧
     ({ r with stops := 1 } : KRun).q ≤ ({ r with stops := 1 } : KRun).stops + 1) := by decide +kernel

/-- KaolinEvents, timeouts and conversions: with and without a request; the fifth and the sixth conversion, at full scale. -/
theorem witness_KaolinEvents_ends :
    (let r : KRun := { tdcRun 1 1 with startEdge := some (0, 0) }
     takeFirst (fun x => x.running && !x.isDc && (x.chanA == 0 && x.startEdge.isNone)) (withKao okKao [tdcRun 1 1]).kao.held =
       some (tdcRun 1 1, []) ∧
     takeFirst (fun x => x.running && !x.isDc && (x.chanB == 31 && x.startEdge.isSome)) (withKao okKao [r]).kao.held =
       some (r, []) ∧
     takeFirst (fun x => x.running && !x.isDc && (x.chanA == 0 && x.startEdge.isNone)) (withKao okKao [r]).kao.held = none ∧
     takeFirst (fun x => x.running && !x.isDc && (x.chanB == 31 && x.startEdge.isSome)) (withKao okKao [tdcRun 1 1]).kao.held =
       none) ∧
    (∀ n ∈ [4, 5], let r : KRun := { kRun 3 7 0 0 1 with conv := n }
     takeFirst (fun x => x.running && x.isDc && bitsOf x.byteA 0 3 == 7) (withKao okKao [r]).kao.held = some (r, []) ∧
     (r.conv < 5 ↔ n = 4)) ∧
    takeFirst (fun x => x.running && x.isDc && bitsOf x.byteA 0 3 == 7) (withKao okKao [tdcRun 1 1]).kao.held = none ∧
    ((0x800000 : BitVec 24).toInt = -8388608 ∧ (0x7FFFFF : BitVec 24).toInt = 8388607 ∧ (0x7FFFFE : BitVec 24).toInt = 8388606) := by
  decide +kernel

/-- KaolinEvents, signatures, reference, seal, reset, start and timeouts: the states that the clauses tell apart. -/
theorem witness_KaolinEvents_states :
    oneDie.kao.ready = false ∧ okKao.signing = [] ∧
    (let b : SigBlock := { n := 0, head := [], bySign := true, msg := none }; ({ okKao with signing := [b] } : Kao).signing = b :: []) ∧
    (withReq okKao 4 (aCmd 0 0 0)).sealPort.up = true ∧ (withKao okKao []).sealPort.up = false ∧
    oneDie.kao.rstLow = true ∧ okKao.rstLow = false ∧ okKao.sealClosed = true ∧
    ({ okKao with sealClosed := false } : Kao).sealClosed = false ∧ ({ okKao with ready := false } : Kao).ready = false ∧
    oneDie.lateReq = none ∧ (withReq Kao.reset 2 (aCmd 0x0401 0 0)).lateReq = some (aReq 2 (aCmd 0x0401 0 0)) ∧
    (aReq 2 (aCmd 0x0401 0 0)).cmd = some (aCmd 0x0401 0 0) := by decide +kernel

/-- The reset of Kaolin answers a next state. -/
theorem witness_KaolinEvents_reset : ∃ t, exec (.krstN false ⟨true, true⟩) (withKao okKao [tdcRun 1 1]) = .next t := ⟨_, rfl⟩

def noFail : BringUp := { failStep := none, ringOwn := false, ringPrev := false, halves := 0 }
/-- A RESET_SCOPE command. -/
def resetCmd (kind index : Nat) : Cmd := { aCmd 3 index 0 with pkt := packet 3 (kind * 2 ^ 32) index 0 }

/-- Resets, RESET_SCOPE: every kind with its last index; each failing step; the DDR busy for each reason and not; ports and
links with and without their enable. -/
theorem witness_Resets_scope :
    (∀ p ∈ [(1, 5), (2, 7), (3, 15), (4, 1), (5, 16), (6, 63), (8, 0)],
      (resetCmd p.1 p.2).op = 3 ∧ (resetCmd p.1 p.2).kind = p.1 ∧ (resetCmd p.1 p.2).index = p.2) ∧
    (∀ k ∈ [9, 10, 11, 17, 18, 19], some k ∈ [some 9, some 10, some 11, some 17, some 18, some 19]) ∧
    noFail.failStep ∉ [some 9, some 10, some 11, some 17, some 18, some 19] ∧ ({ noFail with failStep := some 12 } : BringUp).failStep.isSome = true ∧
    ((∀ p ∈ oneDie.graphs, p.2.state = .free) ∧ (∀ x ∈ oneDie.chans, x.active = false) ∧
      (∀ x ∈ oneDie.ports, x.state ≠ .armed ∧ x.state ≠ .running) ∧ oneDie.queues = []) ∧
    (¬ (∀ p ∈ anyGraphState.graphs, p.2.state = .free) ∧ ¬ (∀ x ∈ (withChan (runChan 0 0)).chans, x.active = false) ∧
      ¬ (∀ x ∈ (withPort aRunning).ports, x.state ≠ .armed ∧ x.state ≠ .running)) ∧
    ((oneDie.portDisable 15).pfpOn 15 = false ∧ (State.portDisable { oneDie with regs := [(pfpOff 15 4, 1)] } 15).pfpOn 15 = true) ∧
    ((oneDie.twkUse 0 && oneDie.twkPowered 0) = false ∧ ((withTwk Twk.reset).twkUse 1 && (withTwk Twk.reset).twkPowered 1) = true) := by decide +kernel

/-- Resets, the link and PERST_N: up and down; high and low, with the supplies good and not, before and after the first start. -/
theorem witness_Resets_pins :
    State.reset.pcieUp = false ∧ oneDie.pcieUp = true ∧ State.reset.start.perstHigh = false ∧
    ({ oneDie.start with perstHigh := true } : Start).perstHigh = true ∧
    (State.reset.start.vin && State.reset.start.vio && State.reset.start.vstby) = false ∧
    (∀ p ∈ [true, false], let x : Start := { oneDie.start with vin := true, vio := true, vstby := true, poweredOn := p, perstHigh := false }
      (x.vin && x.vio && x.vstby) = true ∧ x.poweredOn = p ∧ x.perstHigh = false) := by decide +kernel

def rdReq (b0 code b2 b3 n : Nat) : List Byte := leBytes 1 b0 ++ leBytes 1 code ++ leBytes 1 b2 ++ leBytes 1 b3 ++ leBytes n 0
/-- The exchange has agreed on its algorithms. -/
def agreed : State := { oneDie with spdm := { Spdm.reset with versioned := true, capable := true, negotiated := true } }

/-- Spdm: every row's code and version; out of order, another version, a wrong code, a short message; no link. -/
theorem witness_Spdm_rows :
    State.reset.pcieUp = false ∧
    (∀ k : Fin 7, ∀ good ∈ [true, false], let q := rdReq (if good then Claims.spdmVer k else 0x13) (Claims.spdmCode k) 0 0 0
      agreed.pcieUp = true ∧ leAt q 1 1 = Claims.spdmCode k ∧ 4 ≤ q.length ∧ Claims.spdmNeed agreed k = true ∧
      (leAt q 0 1 = Claims.spdmVer k ↔ good = true)) ∧
    (∀ k : Fin 7, k ≠ 0 → Claims.spdmNeed oneDie k = false) ∧ Claims.spdmNeed oneDie 0 = true ∧
    (rdReq 0x10 0x84 0 0 0).length = 4 ∧ leAt (rdReq 0x10 0x85 0 0 0) 1 1 ≠ Claims.spdmCode 0 := by decide +kernel

/-- Spdm, the operands: certificate slots 0 and 1; challenges of 36 and 35 bytes and of each type; measurements 0, 4, 5 and 0xFF,
signed and not. -/
theorem witness_Spdm_operands :
    (∀ p ∈ [0, 1], leAt (rdReq 0x12 0x82 p 0 4) 2 1 = p) ∧
    (∀ p ∈ [(0, 31), (1, 32), (2, 32), (0xFF, 32)], let q := rdReq 0x12 0x83 0 p.1 p.2
      leAt q 2 1 = 0 ∧ leAt q 3 1 = p.1 ∧ (q.length < 36 ↔ p.2 = 31)) ∧
    (∀ op ∈ [0, 4, 5, 0xFF], ∀ sg ∈ [0, 1], let q := rdReq 0x12 0xE0 sg op 33
      leAt q 3 1 = op ∧ bitOf (leAt q 2 1) 0 = (sg == 1) ∧ (37 ≤ q.length ∧ leAt q 36 1 = 0)) := by decide +kernel

def withClk (c : Clk) (regs : Tab (BitVec 32)) : State := { oneDie with clk := c, regs := regs }

/-- EpochBoundaries, edges: no CK_TB; armed; a load pending, due or not; enabled and not; an instant still to come and one that
has, with and without a scheduled value before it, and one that a load jumped over. -/
theorem witness_EpochBoundaries_edges :
    (withClk { Clk.reset with run := false } []).clk.run = false ∧
    (let c : Clk := { Clk.reset with run := true }
     (Claims.atEdge (withClk c [(epochOff 0, 4)]) true).flag (epochOff 0) 2 = true ∧
     (Claims.atEdge (withClk c [(epochOff 0, 1)]) false).flag (epochOff 0) 2 = false ∧
     (Claims.atEdge (withClk c [(epochOff 0, 0)]) false).flag (epochOff 0) 0 = false ∧
     (Claims.atEdge (withClk c [(epochOff 0, 1)]) true).flag (epochOff 0) 0 = true ∧
     (Claims.atEdge (withClk c []) false).clk.loadAt = none ∧
     (Claims.atEdge (withClk { c with loadAt := some 64 } []) false).clk.loadAt.isSome = true) ∧
    (let c : Clk := { Clk.reset with tb := 64, pins := [64], sched := some 64 }
     (∀ x ∈ [64, 65], (BitVec.ofNat 64 x).toNat ≤ c.tb.toNat ↔ x = 64) ∧ c.pins = 64 :: [] ∧ c.jumped = false ∧
     ({ c with jumped := true } : Clk).jumped = true ∧ ({ c with sched := none } : Clk).sched = none) := by decide +kernel

/-- EpochBoundaries, events: at, 127 ns after and before and 128 ns after the last boundary, and before any; a scheduled value
reached; the die's and EPOCH_OUT's; a load. -/
theorem witness_EpochBoundaries_events :
    let u := withClk { Clk.reset with run := true, anyB := true, lastEdge := 1000, edges := 1000, tb := 1000 } []
    (u.clk.anyB = true ∧ Claims.edgeAt u 1000 = u.clk.lastEdge) ∧
    (∀ i ∈ [873, 1127], u.clk.anyB = true ∧ Claims.edgeAt u i ≠ u.clk.lastEdge ∧ Claims.edgeAt u i < u.clk.lastEdge + 128 ∧
      u.clk.lastEdge < Claims.edgeAt u i + 128) ∧
    ¬ (Claims.edgeAt u 1128 < u.clk.lastEdge + 128) ∧
    (oneDie.clk.anyB = false) ∧ (oneDie.clk.sched = none) ∧ oneDie.clk.loadAt = none ∧
    (let v := withClk { Clk.reset with run := true, sched := some 0 } []
     v.clk.jumped = false ∧ (v.goUntil 0).clk.sched.isSome = true) ∧
    ((oneDie.die 5).boundaryAt = none ∧ ({ Die.reset with boundaryAt := some 7 } : Die).boundaryAt = some 7) ∧
    (∀ b ∈ [true, false], ({ Clk.reset with outHigh := b } : Clk).outHigh = b) ∧
    (∀ x ∈ [63, 64], (BitVec.ofNat 64 x).toNat < (64 : BitVec 64).toNat ↔ x = 63) := by decide +kernel

def withGov (g : Gov) (d : Die) : State := { oneDie with gov := g, dies := d :: List.replicate 5 Die.reset }
/-- L0's limits are 5 and 22, the others' registers zero. -/
def clampedDie (ths : Nat) : State :=
  { withGov Gov.reset { upDie with therm := ths, clampSince := some 0 } with regs := [(pwrOff 0, 5 + 22 * 2 ^ 8)] }

/-- Governor, loops: 34.20 and 34.21 A, 32.40 and 32.41 A, 95 % of it; the cap's readings; the thermal limits of a die. -/
theorem witness_Governor_loops :
    (∀ i ∈ [3420, 3421], 3420 < ({ Gov.reset with iin := i } : Gov).iin ↔ i = 3421) ∧
    (∀ i ∈ [3240, 3241], let g := { Gov.reset with vin := 48000, iin := i }
      g.vin * 3240 < g.vin * g.iin ↔ i = 3241) ∧
    (∀ i ∈ [3078, 3079], let g := { Gov.reset with vin := 48000, iin := i }
      (g.iin * 100 ≤ 3420 * 95 ∧ g.vin * g.iin * 100 ≤ g.vin * 3240 * 95) ↔ i = 3078) ∧
    (let s := { withGov { Gov.reset with pkgW := 300 } upDie with regs := [(pwrOff 0x44, 299)] }
     s.fld (pwrOff 0x44) 0 9 < s.gov.pkgW ∧ ¬ s.gov.pkgW + 5 < s.fld (pwrOff 0x44) 0 9) ∧
    (∀ w ∈ [305, 306], let s := { withGov { Gov.reset with pkgW := 300 } upDie with regs := [(pwrOff 0x44, BitVec.ofNat 32 w)] }
      s.gov.pkgW + 5 < s.fld (pwrOff 0x44) 0 9 ↔ w = 306) ∧
    (oneDie.unfenced = [0, 1, 2, 3, 4, 5] ∧
      5 ∉ ({ oneDie with start := { oneDie.start with dies := 32 } } : State).unfenced) ∧
    (∀ h ∈ [(615, false), (616, false), (639, false), (640, true)], let s := withGov { Gov.reset with temps := [(2, h.1)] } upDie
      (8 * 80 ≤ max (s.hottest 0) (s.hottest 6) ↔ h.2 = true) ∧
      (max (s.hottest 0) (s.hottest 6) < 8 * 80 - 24 ↔ h.1 = 615)) := by decide +kernel

/-- Governor, frequencies and domains: a target met and not; a change pending, stopped, restarting; a clamp of each kind; the
states of a domain. -/
theorem witness_Governor_states :
    (oneDie.fenced 0 = false ∧ (oneDie.die 0).up = true ∧
     (∀ d ∈ [{ upDie with freq := Claims.fn oneDie 0 }, { upDie with freq := 0 }],
       (d.target = Claims.fn (withGov oneDie.gov d) 0 ↔ d.target ≠ 0))) ∧
    ((oneDie.die 5).change = none ∧ (oneDie.die 5).restartAt = none ∧ ({ upDie with stopped := true } : Die).stopped = true ∧
     (let d : Die := { upDie with change := some (10, 5), restartAt := some 30 }
      d.change = some (10, 5) ∧ d.stopped = false ∧ d.restartAt = some 30)) ∧
    ((clampedDie 7).limitHolds 0 .therm = true ∧ (clampedDie 22).limitHolds 0 .therm = false ∧
     ({ clampedDie 22 with gov := { Gov.reset with cur := 7 } } : State).limitHolds 0 .cur = true ∧
     ({ clampedDie 22 with regs := [(pwrOff 0, 7 + 6 * 2 ^ 8)] } : State).limitHolds 0 .floor = true ∧
     ((clampedDie 7).die 0).clampSince = some 0 ∧ ((clampedDie 7).die 0).clampDone = false) ∧
    (∀ x ∈ [0, 1, 2, 3], ∀ d ∈ [67, 79], ∀ r ∈ [true, false],
      (({ oneDie with doms := [(d, { state := x, req := r })] } : State).dom d).state = x ∧
      (({ oneDie with doms := [(d, { state := x, req := r })] } : State).dom d).req = r) := by decide +kernel

def supplied (vin vio vstby perst on : Bool) : State :=
  { State.reset with start := { Start.reset with vin := vin, vio := vio, vstby := vstby, perstHigh := perst, poweredOn := on } }

/-- Supplies: all good with and without a power-on before; a trip with its diodes at 99.875 and at 100 degrees; a retry. -/
theorem witness_Supplies :
    (∀ on ∈ [true, false], let s := supplied true true true true on
      s.start.vin = true ∧ s.start.vio = true ∧ s.start.vstby = true ∧ s.start.perstHigh = true ∧ s.start.poweredOn = on) ∧
    (supplied false true true true false).start.vin = false ∧
    (∀ t ∈ [799, 800],
      (∀ p ∈ ({ Gov.reset with temps := [(21, t)] } : Gov).temps, p.2 < 800) ↔ t = 799) ∧
    (∀ b ∈ [true, false], ({ Start.reset with tripped := b, retry := b } : Start).tripped = b ∧
      ({ Start.reset with tripped := b, retry := b } : Start).retry = b) := by decide +kernel

/-- A world in which every step passes: 32 GiB in each channel. -/
def healthy : StartEnv :=
  { essential := none, dies9 := 0, hubs := 0, dies11 := 0, rings := 0, halves := 0, chans := 0, groups := 0, twikels := 0,
    pcieCons := false, dimm := List.replicate 8 (2 ^ 35), fuses := [], width := 16, gen := 5,
    badLedger := 0, badRepairs := [] }
def powerOnDue (cause : Nat) : State := { supplied true true true true true with start := { (supplied true true true true true).start with due := some cause } }

/-- The first start verifies the factory Blend. -/
theorem first_blend : (Claims.numbered (powerOnDue 1) healthy false).startBlend.isSome = true := by decide +kernel

/-- The first start finds nothing that fails, whichever links are in use. -/
theorem first_found (u : Nat) : (Claims.foundIn Plan.full healthy 1 u true).ess = none := by
  simp only [Claims.foundIn, Found.cut]
  exact (by decide +kernel : firstEss (1 == 3) (healthy.essential.toList ++ Claims.ownFaults Plan.full (found Plan.full healthy 0) healthy true) = none)

/-- StartSequence, second clause, passing: the hypotheses of the start of a part that powers on, met together. -/
theorem witness_StartSequence_passes : ∃ (s s2 s3 s4 : State) (env : StartEnv) (cause inUse : Nat) (p : Plan) (ok : Bool)
    (recs : List RegRec) (f : Found), s.canStart = true ∧ s.start.due = some cause ∧ s2 = Claims.numbered s env (cause == 3) ∧
      p = s2.start.plan ∧ Claims.blended s2 env ok s3 ∧ Claims.setUp env ok s3 s4 recs ∧ inUse = Claims.linksInUse s4 recs ∧
      f = Claims.foundIn p env cause inUse ok ∧ f.ess = none := by
  obtain ⟨s3, h3⟩ := Option.isSome_iff_exists.mp first_blend
  refine ⟨powerOnDue 1, _, s3, _, healthy, 1, _, _, true, _, _, by decide +kernel, rfl, rfl, rfl, ?_, ⟨rfl, rfl⟩, rfl, rfl, ?_⟩
  · show Claims.blended (Claims.numbered (powerOnDue 1) healthy false) healthy true s3
    unfold Claims.blended
    rw [h3]
    exact ⟨rfl, rfl⟩
  · exact first_found _

/-- StartSequence, second clause, failing at step 2 and at step 8 (which passes after a Bedrock reset): what the steps find. -/
theorem witness_StartSequence_fails :
    (∀ k ∈ [1, 2, 8, 24], ∀ u ∈ [0, 3], (Claims.foundIn Plan.full { healthy with essential := some (k, true) } 1 u (decide (4 < k))).ess =
      some (k, true)) ∧
    (∀ u ∈ [0, 3], (Claims.foundIn Plan.full { healthy with essential := some (8, true) } 3 u true).ess = none ∧
      (Claims.foundIn Plan.full healthy 1 u false).ess = some (4, false) ∧
      (Claims.foundIn Plan.full { healthy with dies9 := 63 } 1 u true).ess = some (13, false) ∧
      (Claims.foundIn Plan.full { healthy with chans := 0xFC } 1 u true).ess = none ∧
      (Claims.foundIn Plan.full { healthy with chans := 0xFE } 1 u true).ess = some (15, false)) := by decide +kernel

/-- A ledger entry of a start that passed. -/
def anEntry : LedgerEntry :=
  { number := 1, cause := 1, outcome := 1, consec := 0, flags := 0, steps := [], dieFen := 0, dieFail := 0, ringFen := 0,
    ringFail := 0, ddrFen := 0, ddrFail := 0, grpFen := 0, grpFail := 0, twkFen := 0, twkFail := 0, cons := 0, hubFail := 0,
    firstFail := 0, tb := 0, blend := 0, post := 0 }

/-- StartSequence, the other clauses: nothing due; no entry held; the third and the fourth failure; an empty, a failed and a
cleared ledger. -/
theorem witness_StartSequence_rest :
    State.reset.canStart = false ∧ (powerOnDue 1).canStart = true ∧ State.reset.erq.heldR = [] ∧
    (let x (o n : Nat) : Start := { Start.reset with ledger := [{ anEntry with outcome := o, consec := n }], sinceClear := 1 }
     (x 3 1).count = 2 ∧ (x 3 2).count = 3 ∧ (x 4 3).count = 4 ∧ (x 1 0).count = 1 ∧ (x 3 1).previous = some { anEntry with outcome := 3, consec := 1 } ∧
     ({ x 3 1 with sinceClear := 0 } : Start).previous = none) := by decide +kernel

/-- A Blend whose one section is a sensor policy: diode 1 warns at 80, is critical at 100, with a hysteresis of 5 (R416). -/
def policyImage : List Byte :=
  leBytes 46 0 ++ leBytes 2 1 ++ leBytes 16 0 ++ leBytes 2 4 ++ leBytes 2 0 ++ leBytes 4 80 ++ leBytes 4 16 ++ leBytes 4 0 ++
    leBytes 2 1 ++ leBytes 2 0 ++ leBytes 4 80 ++ leBytes 4 100 ++ leBytes 4 5
def sensing (r : Option (BitVec 8)) : State :=
  { oneDie with blend := { Blend.reset with slots := [{ noSlot with written := true, image := policyImage }, noSlot] },
                oob := { Oob.reset with receiver := r } }

/-- Sensors: IDs 0, 1, 185 and 186, VSTBY good and not; a policy for ID 1 and none for ID 2; a reading one eighth below and at a
warning; a receiver and none; a diode that is faulty, one of two and the last of its die. -/
theorem witness_Sensors :
    (∀ id ∈ [0, 1, 185, 186], (id = 0 ∨ 185 < id ∨ oneDie.start.vstby = false) ↔ (id = 0 ∨ id = 186)) ∧
    State.reset.start.vstby = false ∧
    (sensing none).sensorPolicy 1 = some (80, 100, 5) ∧ (sensing none).sensorPolicy 2 = none ∧
    (sensing none).oob.receiver = none ∧ (sensing (some 9)).oob.receiver = some 9 ∧
    (∀ v ∈ [679, 680], ((80 + 5) * sensorScale 1 ≤ v ↔ v = 680)) ∧
    (bitOf (withGov { Gov.reset with faults := 1 } upDie).gov.faults 0 = true ∧
     (∃ j ∈ diodeMates 0, bitOf (Claims.faulty oneDie 0).gov.faults j = false) ∧
     (∀ j ∈ diodeMates 0, bitOf (Claims.faulty (withGov { Gov.reset with faults := 6 } upDie) 0).gov.faults j = true) ∧
     (∀ j ∈ diodeMates 21, bitOf (Claims.faulty (withGov { Gov.reset with faults := 7 * 2 ^ 18 } upDie) 21).gov.faults j = true)) := by
  decide +kernel

def ctl (c b3 b4 n : Nat) : List Byte := leBytes 1 0 ++ leBytes 1 0x81 ++ leBytes 1 c ++ leBytes 1 b3 ++ leBytes 1 b4 ++ leBytes n 0
def pldmReq (ty c : Nat) (d : List Byte) : List Byte := leBytes 1 1 ++ leBytes 1 0x81 ++ leBytes 1 ty ++ leBytes 1 c ++ d
def vdm (c n : Nat) : List Byte := leBytes 1 0x7E ++ leBytes 2 0x3C1F ++ leBytes 1 c ++ leBytes 4 n

/-- OutOfBand, the rows: each relation holds of its row, with a message of that row and with one of another. -/
theorem witness_OutOfBand_rows :
    State.reset.start.vstby = false ∧ oneDie.start.vstby = true ∧
    (∀ c ∈ [1, 2, 4, 5], ∀ e ∈ [c, 6], leAt (ctl e 0 0 0) 0 1 = 0 ∧ (leAt (ctl e 0 0 0) 2 1 = c ↔ e = c)) ∧
    (∀ p ∈ [(0, 2), (0, 3), (0, 4), (0, 5), (2, 0x50), (2, 0x51), (2, 0x11), (2, 0x12), (2, 4)], ∀ ty ∈ [p.1, 3],
      leAt (pldmReq ty p.2 []) 0 1 = 1 ∧ leAt (pldmReq ty p.2 []) 2 1 % 64 = ty ∧ leAt (pldmReq ty p.2 []) 3 1 = p.2) ∧
    leAt (ctl 0 0 0 0) 0 1 ≠ 1 ∧ leAt (vdm 1 0) 0 1 = 0x7E ∧ leAt (vdm 1 0) 1 2 = 0x3C1F ∧
    (∀ c ∈ [1, 2, 3, 4], leAt (vdm c 0) 3 1 = c) := by decide +kernel

/-- The relations of OutOfBand are met by their rows. -/
theorem witness_OutOfBand_relations (s : State) (eid : BitVec 8) (req : List Byte) :
    (∃ t bs, Claims.control s eid req (.setEndpointId eid req) 1 t bs) ∧
    Claims.pldm s eid req (.getTid eid req) 0 2 s [0, Config.pldmTid] ∧
    Claims.vendor s eid req (.restart eid req) 4 (Claims.restarted s eid) [0] :=
  ⟨⟨_, _, .inl ⟨rfl, rfl, rfl⟩⟩, .inr ⟨rfl, .inl ⟨rfl, rfl, rfl, rfl⟩⟩, .inr (.inr (.inr ⟨rfl, rfl, rfl, rfl⟩))⟩

/-- OutOfBand, the operands: EIDs 0, 1, 0xFE and 0xFF, another operation and length; receivers; sensor IDs at their limits. -/
theorem witness_OutOfBand_operands :
    (∀ e ∈ [0, 1, 0xFE, 0xFF], ∀ op ∈ [0, 1, 2], let q := ctl 1 op e 0
      q.length = 5 ∧ (leAt q 3 1 % 4 ≤ 1 ↔ op ≠ 2) ∧ leAt q 4 1 = e) ∧ (ctl 1 0 1 1).length ≠ 5 ∧
    (∀ p ∈ [(0, 0), (1, 0), (1, 1), (2, 0)], let q := pldmReq 2 4 (leBytes 1 p.1 ++ leBytes 1 p.2 ++ leBytes 1 9)
      leAt q 4 1 = p.1 ∧ leAt q 5 1 = p.2) ∧
    (∀ id ∈ [0, 1, 185, 186], leAt (pldmReq 2 0x11 (leBytes 2 id)) 4 2 = id) := by decide +kernel

/-- StepRuns: an idle device with its clock running and without; a state with a command in its queue. -/
theorem witness_StepRuns :
    oneDie.pending = [] ∧ State.reset.clk.run = false ∧ (Claims.queued oneDie [.perstN false]).pending = [.perstN false] := by
  decide +kernel

/-- EveryStepSettles: a state with a next state. -/
theorem witness_EveryStepSettles : ∃ t, step State.reset = .next t := ⟨_, rfl⟩

/-- SlotEncoding: a well-formed instruction of each format, and a slot that is read. -/
theorem witness_SlotEncoding :
    (∀ f ∈ [Fmt.t3, .tl, .tw, .px], opRows.any (fun r => r.fmts.contains f) = true) ∧
    (plain .add).wf = true ∧ decide (readSlot (encodeInsn (plain .add)) = .ok (rowOf .add) (plain .add)) = true := by decide +kernel

def p36 : Desc := descOf (leBytes 20 0 ++ leBytes 2 0x55 ++ leBytes 26 0)

/-- WordFormats: P36 at both ends, an even and an odd number of words, the first and the last pair. -/
theorem witness_WordFormats :
    p36.df = 5 ∧ p36.sf = 5 ∧ 2 * 0 + 1 < [0, (1 : Word)].length ∧ 2 * 1 + 1 = [0, 1, (2 : Word)].length ∧
    (List.replicate (9 * 1 + 5) (0 : Byte)).length = 9 * 1 + 5 ∧ 9 * 1 + 9 ≤ (List.replicate 18 (0 : Byte)).length := by
  decide +kernel

/-- A burst of DDR words into a format, with the check. -/
def aBurst (f : Nat) : Desc := descOf (leBytes 20 0 ++ leBytes 2 f ++ leBytes 26 0)
def aRead : Bread := { s := withDdr 0, words := [], err := none }

/-- Truncation: each checked width with and without the check, from the device and from the host; a word that fits and one that
does not, zero-filled and sign-extended; the other formats; a poisoned word with its stop off. -/
theorem witness_Truncation :
    (∀ p ∈ [(2, 32), (3, 16), (4, 8)], ∀ c ∈ [0, 0x200], let d := aBurst (p.1 * 16 + c)
      (d.df = p.1 ∧ d.sf = 0 ∧ d.sop = false ∧ d.chk = (c == 0x200)) ∧
      (aRead.err = none ∧ aRead.s.bmvRefused (d.src + (64 * 0 + 0)) false = false ∧
        aRead.s.idleRd 0x17 (d.src + (64 * 0 + 0)) = aRead.s.idleRd 0x17 0)) ∧
    ((aBurst 0x21).sf = 1 ∧ (aBurst 0x21).df = 2 ∧ (aBurst 0x10).df = 1 ∧ (aBurst 0x50).df = 5 ∧ (aBurst 0).df = 0) ∧
    (∀ w ∈ [8, 16, 32], (∀ j, w ≤ j → j < 36 → (BitVec.ofNat 36 (2 ^ w - 1)).getLsbD j = false) ∧
      ¬ (∀ j, w ≤ j → j < 36 → (BitVec.ofNat 36 (2 ^ w)).getLsbD j = false)) ∧
    (({ v := 0, p := true } : PWord).p = true ∧ (PWord.clean 5).p = false) := by
  refine ⟨by decide +kernel, by decide +kernel, ?_, by decide +kernel⟩
  intro w hw
  simp only [List.mem_cons, List.not_mem_nil, or_false] at hw
  rcases hw with rfl | rfl | rfl
  · exact ⟨fun j h1 h2 => (by decide +kernel : ∀ j < 36, 8 ≤ j → (BitVec.ofNat 36 (2 ^ 8 - 1)).getLsbD j = false) j h2 h1,
      fun h => absurd (h 8 (by omega) (by omega)) (by decide)⟩
  · exact ⟨fun j h1 h2 => (by decide +kernel : ∀ j < 36, 16 ≤ j → (BitVec.ofNat 36 (2 ^ 16 - 1)).getLsbD j = false) j h2 h1,
      fun h => absurd (h 16 (by omega) (by omega)) (by decide)⟩
  · exact ⟨fun j h1 h2 => (by decide +kernel : ∀ j < 36, 32 ≤ j → (BitVec.ofNat 36 (2 ^ 32 - 1)).getLsbD j = false) j h2 h1,
      fun h => absurd (h 32 (by omega) (by omega)) (by decide)⟩

/-- HomeDie: two states whose Home Maps agree, and the hash of CID 0xFFFFFF. -/
theorem witness_HomeDie :
    (∀ n < 256, (State.reset).fld (fabOff (4 * n)) 0 3 = oneDie.fld (fabOff (4 * n)) 0 3) ∧
    (4 : BitVec 24).setWidth 32 * 0x9E3B1F35#32 = 0x78EC7CD4#32 ∧
    (0xFFFFFF : BitVec 24).setWidth 32 * 0x9E3B1F35#32 = 0x96C4E0CB#32 := by decide +kernel

/-- Scrambler: a state of 58 bits. -/
theorem witness_Scrambler : (List.replicate 58 true).length = 58 := List.length_replicate

/-! ### Well-formedness -/

def okEnv : StartEnv := healthy
def hd (n : Nat) : HostData := { bytes := List.replicate n 0, ep := [], errAt := none }

/-- A well-formed command of every kind that has a check. -/
theorem test_wf_accepts :
    (([.repI 5 63 1, .repU 0 0 4096, .resumeItem 0 0 1, .siltPush 335 .word, .siltPop ⟨0x1BFF, 0⟩, .refillDone 0 [31], .drip 335,
      .bankRequest 0x62F 0, .bankTransitionDone 143, .listEntryFetch 31 (hd 64), .burstReadDone 0 (hd 8),
      .resetScope { noFail with failStep := some 14 }, .graphLoad (hd 8), .injectTokens (hd 16), .kaoCalWrite (hd 8),
      .blendStage (hd 8), .snapshot (hd 0), .bar2Read 0 1, .bar2Write 0 [none] false, .registerRead 16 0x3FFFFFC (Claims.plainRd 1),
      .registerWrite 0 0 0 (Claims.plainWr 8),
      .registerRead 0 0 { be := 0, space := .bar4, more := [0, 1] }, .sensorSample 185 (.val 0), .sensorSample 22 .fault, .startSequence okEnv, .msiXUnmask 0 2047,
      .msiXUnmask 16 63] : List Instr).all Instr.wf) = true := by decide +kernel

/-- Each check refuses a command that breaks it. -/
theorem test_wf_refuses :
    (([.repI 0 0 0, .repU 0 0 0, .resumeItem 0 0 0, .siltPush 336 .word, .siltPop ⟨0x1C00, 0⟩, .refillDone 0xFFF [], .drip 0x1000,
      .bankRequest 144 0, .bankRequest 0x630 0, .bankTransitionDone 0x590, .listEntryFetch 0 (hd 63),
      .burstReadDone 0 { hd 8 with errAt := some 9 }, .resetScope { noFail with failStep := some 12 },
      .graphLoad { hd 8 with ep := [(0, 0)] }, .injectTokens { hd 8 with errAt := some 9 },
      .kaoCalWrite { hd 8 with errAt := some 9 }, .blendStage { hd 8 with errAt := some 9 }, .snapshot { hd 0 with ep := [(1, 0)] },
      .bar2Read 0 0, .bar2Write 0 [] false, .registerRead 0 2 (Claims.plainRd 15), .registerWrite 0 0 0 (Claims.plainWr 0), .sensorSample 0 (.val 0),
      .sensorSample 186 (.val 0), .sensorSample 23 .fault, .startSequence { okEnv with essential := some (9, false) },
      .startSequence { okEnv with dimm := [] }, .startSequence { okEnv with fuses := [(0, 312)] }, .msiXUnmask 0 2048,
      .msiXUnmask 1 64] : List Instr).all (fun i => !i.wf)) = true := by decide +kernel

/-! ### Values from the spec -/

/-- The command answers a next state with a property. -/
def after (i : Instr) (s : State) (p : State → Bool) : Bool := match exec i s with | .next t => p t | _ => false

/-- R109-R111, by hand: the sum past 2^35 - 1, the borrow of 0 - 1, and the counts of 36 and more. -/
theorem test_integer_edges :
    intAdd 0x7FFFFFFFF 1 false = { w0 := 0x800000000, w1 := 0, fl := { v := true } } ∧
    intAdd 0xFFFFFFFFF 0 true = { w0 := 0, w1 := 1, fl := { c := true } } ∧
    intSub 0 1 false = { w0 := 0xFFFFFFFFF, w1 := 1, fl := { c := true } } ∧
    intNeg 0x800000000 = { w0 := 0x800000000, fl := { v := true } } ∧
    intMulW 0xFFFFFFFFF 2 = { w0 := 0xFFFFFFFFE, w1 := 0xFFFFFFFFF } ∧
    intMulWU 0xFFFFFFFFF 2 = { w0 := 0xFFFFFFFFE, w1 := 1 } ∧
    intShl 1 36 = res1 0 ∧ intSar 0x800000000 200 = res1 0xFFFFFFFFF ∧ intRol 0x800000001 37 = res1 3 ∧
    intRor 1 1 = res1 0x800000000 ∧ intPopc 0xFFFFFFFFF = res1 36 ∧ intClz 0 = res1 36 := by decide +kernel

/-- The worked example of R138, -13 by 4; division by zero and the most negative number by -1 (R110). -/
theorem test_div_examples :
    intDiv 0xFFFFFFFF3 4 = { w0 := 0xFFFFFFFFD, w1 := 0xFFFFFFFFF } ∧
    intDivU 5 0 = { w0 := 0xFFFFFFFFF, w1 := 5, fl := { dz := true } } ∧
    intDiv 0x800000000 0xFFFFFFFFF = { w0 := 0x800000000, w1 := 0, fl := { v := true } } := by decide +kernel

/-- The examples of "NaN results": conversions of signalling NaNs. -/
theorem test_cvt_nan :
    cvtXS 0x07F800001 = { w0 := 0x7FC000010, fl := { nv := true } } ∧
    cvtSX .near 0x7F8000001 = { w0 := 0x07FC00000, fl := { nv := true } } := by decide +kernel

/-- L0 with an FMUL.S of two words and a value of G13, in the context 4 with its G0 at 100. -/
def fmulState (g13 : Nat) : State :=
  { withInsn (plain .fmul) (plainItem .fmul 0x7F7FFFFF 0x40000000 0) with
      regs := [(fabOff 0x400, 0x800)], mem := [(4, .clean 100), (frameWord 0 113, .clean (BitVec.ofNat 36 g13))] }

/-- The worked example of FMUL.S: G13 after the firing in modes 0 and 1, and with the overflow trap on, when it is unchanged and
the graph of a context without a handler is frozen (R67). -/
theorem test_fmul_example :
    after (.fmul 0 0) (fmulState 0) (fun t => (t.frameRd 0 113).v == 0x14) = true ∧
    after (.fmul 0 0) (fmulState 0x400) (fun t => (t.frameRd 0 113).v == 0x414) = true ∧
    after (.fmul 0 0) (fmulState 0x80) (fun t => (t.frameRd 0 113).v == 0x80 && (t.graph 1).state == .frozen) = true ∧
    (fmtS.mul .near 0x7F7FFFFF 0x40000000).w0 = 0x7F800000 ∧
    (fmtS.mul .zero 0x7F7FFFFF 0x40000000).w0 = 0x7F7FFFFF := by decide +kernel

/-- The slots of the worked examples of chapters 3 and 4: REP.U with 64 repetitions, MOV to PIN, CALL; and the list entry. -/
theorem test_slot_words :
    (encodeInsn { op := .repU, x := false, fmt := .px, a := imm 64, b := Spec.unused, d := Spec.unused, lit := 0, ptr := 0 }).w0 =
      0xF8B104000 ∧
    (let i := encodeInsn { op := .mov, x := false, fmt := .t3, a := tok, b := Spec.unused, d := { m := .pin, f := 0x15 }, lit := 0, ptr := 2 }
     i.w0 = 0x250000010 ∧ i.w1 = 0x009015002) ∧
    (let i := encodeInsn { op := .call, x := false, fmt := .t3, a := tok, b := { m := .frm, f := 3 }, d := imm 0, lit := 0, ptr := 2 }
     i.w0 = 0x800000020 ∧ i.w1 = 0x031000002) ∧
    dentryOf 0x00110000F = { off := 15, port := 1, act := 0, last := true, sel := false, rsv := 0 } := by decide +kernel

/-- The worked example of R47: CID 0x01_2345 has index 0xDA; under a map that names die 4 there, its home is L4. -/
theorem test_home_example :
    ({ State.reset with regs := [(fabOff (4 * 0xDA), 4)] } : State).homeOf 0x012345 = 4 ∧ State.reset.homeOf 0x012345 = 2 := by
  decide +kernel

/-- The worked example of chapter 6: three arrivals folded by ADD. -/
theorem test_fold_example :
    let t : Token := { cid := 4, ip := 1, colour := 0, port := 0, cls := 0, pkg := 0, val := .clean 0x7FFFFFFF0 }
    let e1 := firstFold t { m := .toka, f := 0 } 3
    let e2 := e1.fold (.clean 0x20)
    let e3 := e2.fold (.clean 1)
    (e1.rem = 2 ∧ e1.ovf = false) ∧ (e2.val = .clean 0x800000010 ∧ e2.rem = 1 ∧ e2.ovf = true) ∧
      (e3.val = .clean 0x800000011 ∧ e3.rem = 0 ∧ e3.ovf = true) := by decide +kernel

/-- The worked example of chapter 8: the budgets of class 2 under floor 32 and ceiling 1,024, and the refill and charge. -/
theorem test_budget_example :
    let s := { State.reset with regs := [(tmpOff 0x48, BitVec.ofNat 32 (32 + 1024 * 2048))] }
    s.budget 2 2 = 128 ∧ s.budget 3 2 = 32 ∧ s.budget 4 2 = 0 ∧ creditRefill 128 5 = 128 ∧ creditUnder 32 28 = 28 := by
  decide +kernel

/-- The worked example of chapter 9: HELD by L1 and context 0x00_0312; and ACQUIRED in the layout of R243. -/
theorem test_latch_values :
    latchValue 2 false 0x12 0x312 = 0x00031292 ∧ latchValue 1 false 0x14 0x20044 = 0x020044A1 := by decide +kernel

/-- The worked example of chapter 10: the P36 stream of five words, and of three. -/
theorem test_p36_example :
    let ws : List Word := [0x123456789, 0xABCDEF012, 1, 0xFFFFFFFFF, 0x7000000C3]
    Claims.streamBytes p36 ws = [0x89, 0x67, 0x45, 0x23, 0x21, 0x01, 0xEF, 0xCD, 0xAB, 1, 0, 0, 0, 0xF0, 0xFF, 0xFF, 0xFF, 0xFF,
      0xC3, 0, 0, 0, 7] ∧ (Claims.streamBytes p36 (ws.take 3)).length = 14 := by decide +kernel

/-- The worked example of chapter 11: the fail record in SITE mode. -/
theorem test_fail_tokens :
    let s := { State.reset with regs := [] }
    let lo := 0x455 + 2 ^ 27
    s.failToken lo 0x700 0x12 1 (.clean 2) = none ∧
    s.failToken lo 0x700 0x12 2 (.clean 0x100) =
      some { cid := 0x455, ip := 0x700, colour := 0x12, port := 0, cls := 0, pkg := BitVec.ofNat 4 s.ownPkg, val := .clean 0x100 } ∧
    (s.failToken lo 0x700 0x12 3 (.clean 0)).map (fun t => t.ip) = some 0x701 := by decide +kernel

/-- A bank with the coefficients of the worked example of chapter 12. -/
def exampleBank : List Byte :=
  let ch3 := leBytes 8 1250 ++ leBytes 48 0 ++ leBytes 4 40 ++ leBytes 4 60 ++ leBytes 968 0
  let ch4 := leBytes 4 (2 ^ 32 - 2100) ++ leBytes 952 0 ++ leBytes 4 (2 ^ 32 - 30) ++ leBytes 4 (2 ^ 32 - 10) ++ leBytes 68 0
  leBytes 3120 0 ++ ch3 ++ leBytes 8 0 ++ ch4 ++ leBytes 28088 0 ++ leBytes 4 150

/-- The worked example of chapter 12: the interval, in femtoseconds. -/
theorem test_interval_example :
    let r : KRun := { kRun 1 3 4 1 1 with coefs := exampleBank, uncal := false }
    r.edgeTime 3 12000 100 * 1000000 = 6000025714062500 * 2048 ∧
    ({ r with samples := [r.interval (r.edgeTime 3 12000 100) (r.edgeTime 4 12006 1900)] } : KRun).mean = 3436034 := by
  decide +kernel

/-- The command packet of the worked example of chapter 13, from pair 3; its CID is homed on L0. -/
def startPacket : Cmd :=
  { id := 0, qp := 3, fn := 0, pkt := BitVec.ofNat 512 (leNat ([1, 1, 0, 0, 0x23, 1, 0, 0, 0, 0, 0, 0, 0, 0, 0, 0, 2, 4, 1, 0, 0x45, 0x23,
      1, 0, 1, 0, 0, 0, 0x80, 4, 0, 0] ++ List.replicate 8 0 ++ [0, 8, 0, 0, 0, 0, 0, 0] ++ List.replicate 16 0)), beganAt := 0,
    res := [], mute := false }
def startState : State :=
  { withCdt with
      regs := [(fabOff (4 * 0xDA), 0), (fabOff 0x400, 0x800)], mem := [(0x12345, .clean 100)],
      graphs := [(2, { aGraph with state := .loaded, active := 0, base := 0x400, slots := 256,
                                   blocks := [{ entry := 0, len := 64, pool := 0, poolLen := 0, frame := 32 },
                                              { entry := 64, len := 64, pool := 0, poolLen := 0, frame := 32 }] })] }

/-- GRAPH_START of that packet: header, G12, G14, G15, and the IP of the reply's result word. -/
theorem test_graph_start_example :
    after .graphStart (turning startState startPacket) (fun t =>
      (t.hdr 0x12345).aff == 5 && (t.hdr 0x12345).cls == 4 && (t.frameRd 0 112).v == 0x480 &&
      (t.frameRd 0 114).v == 0x003FFFFFF && (t.frameRd 0 115).v == 0x123 && (t.graph 2).state == .running &&
      (t.graph 2).active == 1) = true ∧
    startTokens startPacket 0x440 0 = [{ cid := 0x12345, ip := 0x440, colour := 0, port := 0, cls := 4, pkg := 0, val := .clean 0x800 }] := by
  decide +kernel

/-- The worked example of chapter 14: f with K = 15, and with the floor above the software cap. -/
theorem test_governor_example :
    let s (f k c : Nat) : State := { oneDie with regs := [(pwrOff 8, BitVec.ofNat 32 (f + k * 256))], gov := { Gov.reset with cap := c },
                                                 dies := List.replicate 6 { upDie with therm := 22 } }
    (s 5 15 22).govFreq 2 = 15 ∧ (s 12 15 10).govFreq 2 = 12 ∧ (s 5 15 22).clamped 2 = false ∧ (s 12 15 10).clamped 2 = true := by
  decide +kernel

/-- The worked example of chapter 15: the plans after starts 41, 42 and 43, and the DDR of seven channels. -/
theorem test_ledger_example :
    (let p := Plan.after { anEntry with outcome := 2, ddrFail := 0x20 }
     p.ddr = 0 ∧ p.ddrCons = 0x20) ∧
    (Plan.after { anEntry with outcome := 2, ddrFail := 0x20, cons := 0x20000 }).ddr = 0x20 ∧
    (let p := Plan.after { anEntry with outcome := 2, ddrFen := 0x20 }
     p.ddr = 0x20 ∧ p.ddrCons = 0) ∧
    (let s := { State.reset with start := { Start.reset with active := [0, 1, 2, 3, 4, 6, 7], capacity := 224 * 2 ^ 30 } }
     s.ddrWords = 0x700000000 ∧ s.carve = 0x600000000 ∧ s.ddrChannel (5 * 32) = some 6) := by decide +kernel

/-- The worked example of chapter 16: versions compare as 24-bit integers, and a check of the peers' floors. -/
theorem test_blend_header :
    let img := leBytes 32 0 ++ leBytes 4 0x030000 ++ leBytes 4 0x020200 ++ leBytes 2 9 ++ leBytes 2 8 ++ leBytes 1 5 ++ leBytes 1 1 ++ leBytes 18 0
    let x : BSlot := { noSlot with written := true, image := img }
    x.ver = 0x030000 ∧ x.floor = 0x020200 ∧ x.schema = 9 ∧ x.migFloor = 8 ∧ x.rollIndex = 5 ∧ x.mandatory = true := by decide +kernel

/-- The worked example of chapter 18: the offsets of LM_MS_FILL of L3, PFP_STATE of port 5 and QP_SQ_TAIL of pair 35; and the
same doorbell in VF2's subset. -/
theorem test_offsets_example :
    lmOff 3 0x420 = 0x0130420 ∧ pfpOff 5 0x20 = 0x02602A0 ∧ Sys2Proof.Machine.qpOff 35 0x18 = 0x02808D8 ∧
    busTarget 2 0x1058 = .reg (regAt 0x02808D8) := by decide +kernel

/-- MC_ID reads rom_version 0x0101 (R430). -/
theorem test_register_read :
    after (.registerRead 0 (BitVec.ofNat 26 (mcOff 0)) (Claims.plainRd 15)) oneDie (fun t => t.outbox.contains (.regData 0x0101)) = true := by
  decide +kernel

/-- A word written to DDR word 0 over a D2D link lands (R106). -/
theorem test_mem_wr :
    after (.memWr 0 0) { flying 0 (some 511) (memFlit ftWr 6 0 0 0 (.clean 5) false) with start := (withDdr 0).start }
      (fun t => t.rd 0 == .clean 5) = true := by decide +kernel

/-- A BAR2 write of bytes 0 to 4 of the first container, and of bytes 0 to 3, which is discarded and recorded; a read, zero
above bit 35 (R344). -/
theorem test_bar2 :
    after (.bar2Write 0 ((bytesOf 0xF12345678).take 5) false) (withDdr 0) (fun t => t.rd 0 == .clean 0xF12345678) = true ∧
    after (.bar2Write 0 ((bytesOf 0xF12345678).take 4) false) (withDdr 0)
      (fun t => t.rd 0 == PWord.zero && t.erq.pending + t.erq.heldR.length == 1) = true ∧
    after (.bar2Read 0 8) { withDdr 0 with mem := [(0, .clean 0x9ABCDEF01)] }
      (fun t => t.outbox.contains (.bar2Data (leBytes 8 0x9ABCDEF01) false)) = true := by decide +kernel

/-- The strap address of R411, and the power-on start of R433 with the last of the supplies. -/
theorem test_supplies :
    after (.vstbyGood true 3) State.reset (fun t => t.oob.addr == 0x4F && t.start.due == none) = true ∧
    after .vioGood (supplied true false true true false) (fun t => t.start.due == some 1 && t.start.poweredOn) = true ∧
    after (.vinLost .vin) (supplied true true true true true) (fun t => !t.start.vin && !t.pcieUp) = true := by decide +kernel

/-- Kaolin becomes ready after its reset with its start counted (R312, R322); MEC and calibration ID stay those of manufacture. -/
theorem test_kaolin_ready :
    after (.kaolinReady false) (withKao { Kao.reset with rstLow := false } [])
      (fun t => t.kao.ready && t.kao.starts == 1 && t.kao.mec == 2 && t.kao.calId == 1) = true := by decide +kernel

/-- TIMEBASE_LOAD puts TB_LOAD into the timebase (R371). -/
theorem test_timebase_load :
    after .timebaseLoad { oneDie with clk := { Clk.reset with run := true, loadAt := some 0 }, regs := [(epochOff 0x18, 7), (epochOff 0x1C, 1)] }
      (fun t => t.clk.tb == 0x100000007 && t.clk.loadAt == none) = true := by decide +kernel

/-- GET_ENDPOINT_ID answers the EID (R411), and GET_VERSION offers SPDM 1.2 (R342). -/
theorem test_messages :
    after (.getEndpointId 8 (ctl 2 0 0 0)) { oneDie with oob := { Oob.reset with eid := 0x0A } }
      (fun t => t.outbox.contains (.mctp 8 [0, 1, 2, 0, 0x0A, 0, 0])) = true ∧
    after (.getVersion (rdReq 0x10 0x84 0 0 0)) oneDie
      (fun t => t.outbox.contains (.doe (leBytes 2 1 ++ [1, 0] ++ leBytes 4 4 ++ [0x10, 0x04, 0, 0, 0, 1, 0, 0x12])) && t.spdm.versioned) = true := by
  decide +kernel

/-- A NOP completes: no command is open, and its reply carries the timebase (R352). -/
theorem test_nop :
    after .nop (turning oneDie (aCmd 1 0 0)) (fun t => t.ce.open_.isEmpty && t.ce.begun.isEmpty) = true := by decide +kernel

/-- The step takes the front of the queue. -/
theorem test_step_queue :
    (match step { supplied true false true true false with pending := [.vioGood, .vstbyLost] } with
     | .next t => t.start.vio && t.pending == [.vstbyLost]
     | _ => false) = true := by decide +kernel

end Sys2Proof.Tests
end

section
/-! Every command ends with `finish`, so none faults and none is refused. -/

namespace Sys2Proof.Machine

open Sys2Proof.Safety

/-- Every command goes on, and what it leaves has passed the end of a command (R393). -/
theorem exec_finishes (i : Instr) (s : State) : ∃ u : State, exec i s = .next u.finish := by
  cases i <;> exact ⟨_, rfl⟩

/-- Every step does, a tick on an empty queue too. -/
theorem step_finishes (s : State) : ∃ u : State, step s = .next u.finish := by
  unfold step
  split
  case h_1 => exact ⟨s.advance 1, rfl⟩
  case h_2 c rest _ => exact exec_finishes c { s with pending := rest }

/-- Settles O45: a step is a tick or a command, and both answer a next state. -/
theorem stepsGoOn : Obligations.StepsGoOn := by
  intro s
  obtain ⟨u, hu⟩ := step_finishes s
  exact ⟨u.finish, hu⟩

end Sys2Proof.Machine
end

section
/-! The part of a write that one field takes (R9, R12, R376): what `putField` is in each case, and what it leaves alone. -/

namespace Sys2Proof.Machine

/-! ### Shadows: the registers stay, and the masks change as asked -/

theorem reg_congr {s t : State} (h : t.regs = s.regs) (o : Nat) : t.reg o = s.reg o := by
  unfold State.reg; rw [h]

theorem dropShadow_regs (s : State) (off m : Nat) : (s.dropShadow off m).regs = s.regs := by
  unfold State.dropShadow; split <;> rfl

@[simp] theorem reg_dropShadow (s : State) (off m o : Nat) : (s.dropShadow off m).reg o = s.reg o :=
  reg_congr (dropShadow_regs s off m) o

@[simp] theorem reg_addShadow (s : State) (off m v o : Nat) : (s.addShadow off m v).reg o = s.reg o := rfl

/-- A field whose shadow was dropped is in no pending shadow of its register. -/
theorem mask_of_dropShadow {s : State} {off m : Nat} {x : Shadow} (h : tfind (s.dropShadow off m).shadows off = some x) :
    x.mask &&& BitVec.ofNat 32 m = 0 := by
  unfold State.dropShadow at h
  split at h
  case h_1 hn => rw [hn] at h; cases h
  case h_2 y _ =>
    simp only at h
    split at h
    · rw [tfind_tdel_same] at h; cases h
    · rw [tfind_tins_same] at h
      cases h
      show y.mask &&& ~~~(BitVec.ofNat 32 m) &&& BitVec.ofNat 32 m = 0
      ext i
      simp

/-- A field written to the shadow is pending there with its bits of the value. -/
theorem tfind_addShadow (s : State) (off m v : Nat) : ∃ x, tfind (s.addShadow off m v).shadows off = some x ∧
    x.mask &&& BitVec.ofNat 32 m = BitVec.ofNat 32 m ∧
    x.val &&& BitVec.ofNat 32 m = BitVec.ofNat 32 v &&& BitVec.ofNat 32 m := by
  refine ⟨_, tfind_tins_same _ _ _, ?_⟩
  generalize BitVec.ofNat 32 m = bm
  generalize BitVec.ofNat 32 v = bv
  cases tfind s.shadows off with
  | none => exact ⟨BitVec.and_self, rfl⟩
  | some o =>
    constructor
    · show (bm ||| o.mask) &&& bm = bm
      ext i hi; cases hb : bm[i] <;> simp [hb]
    · show ((bv &&& bm) ||| (o.val &&& ~~~bm)) &&& bm = bv &&& bm
      ext i hi; cases hb : bm[i] <;> simp [hb]

/-! ### Fields of a register -/

theorem fld_congr {s t : State} {off : Nat} (h : t.reg off = s.reg off) (lo w : Nat) : t.fld off lo w = s.fld off lo w := by
  unfold State.fld; rw [h]

theorem bitsOf_lt (x lo w : Nat) : bitsOf x lo w < 2 ^ w := Nat.mod_lt _ (Nat.two_pow_pos w)

/-- A field set to a value that fits it reads as set. -/
theorem fld_setFld_of_lt (s : State) (off : Nat) {lo w x : Nat} (h : lo + w ≤ 32) (hx : x < 2 ^ w) :
    (s.setFld off lo w x).fld off lo w = x := by
  rw [fld_setFld _ _ _ _ _ h, Nat.mod_eq_of_lt hx]

/-! ### The cases of a field -/

section

variable {s t : State} {l : Loc} {v : Nat} {f : Field}

theorem putField_skipped (h : s.lockedOut l v f = true ∨ ownField l.row.id f.lsb = true) : State.putField s l v t f = t := by
  unfold State.putField
  rw [if_pos (by rcases h with h | h <;> simp [h])]

/-- A field that the generic write stores passes the test of `putField`. -/
theorem storesField_not_skipped (h : Claims.storesField s l v f) : (ownField l.row.id f.lsb || s.lockedOut l v f) = false := by
  obtain ⟨-, hown, hlock⟩ := h
  rw [hown, hlock]; rfl

theorem putField_rw (h : Claims.storesField s l v f) (ha : f.acc = .rw) (hc : f.cls ≠ .boundary) :
    State.putField s l v t f = t.setFld l.off f.lsb f.width (bitsOf v f.lsb f.width) := by
  simp only [State.putField, storesField_not_skipped h, ha]
  cases hk : f.cls with
  | live => rfl
  | locked => rfl
  | boundary => exact absurd hk hc

theorem putField_boundary_idle (h : Claims.storesField s l v f) (ha : f.acc = .rw) (hc : f.cls = .boundary)
    (hr : s.running l f.lsb = false) : State.putField s l v t f =
      (t.setFld l.off f.lsb f.width (bitsOf v f.lsb f.width)).dropShadow l.off f.mask := by
  simp [State.putField, storesField_not_skipped h, ha, hc, hr]

theorem putField_boundary_running (h : Claims.storesField s l v f) (ha : f.acc = .rw) (hc : f.cls = .boundary)
    (hr : s.running l f.lsb = true) : State.putField s l v t f = t.addShadow l.off f.mask v := by
  simp [State.putField, storesField_not_skipped h, ha, hc, hr]

theorem putField_w1c (h : Claims.storesField s l v f) (ha : f.acc = .w1c) : State.putField s l v t f =
    t.setFld l.off f.lsb f.width
      (Nat.land (t.fld l.off f.lsb f.width) (2 ^ f.width - 1 - bitsOf v f.lsb f.width)) := by
  simp [State.putField, storesField_not_skipped h, ha]

theorem putField_ignored (h : Claims.storesField s l v f) (ha : f.acc = .ro ∨ f.acc = .wo ∨ f.acc = .rc) :
    State.putField s l v t f = t := by
  rcases ha with ha | ha | ha <;> simp [State.putField, storesField_not_skipped h, ha]

/-- All that a field's part of a write does to the registers: nothing, or a new value of the field. -/
theorem putField_reg (s t : State) (l : Loc) (v : Nat) (f : Field) :
    (∀ r, (State.putField s l v t f).reg r = t.reg r) ∨
    ∃ x, ∀ r, (State.putField s l v t f).reg r = (t.setFld l.off f.lsb f.width x).reg r := by
  unfold State.putField
  split
  · exact .inl fun _ => rfl
  · split
    · split
      · exact .inl fun _ => reg_addShadow ..
      · exact .inr ⟨_, fun _ => reg_dropShadow ..⟩
    · exact .inr ⟨_, fun _ => rfl⟩
    · exact .inr ⟨_, fun _ => rfl⟩
    · exact .inl fun _ => rfl

/-- The other registers stay. -/
theorem reg_putField_other {r : Nat} (h : r ≠ l.off) : (State.putField s l v t f).reg r = t.reg r := by
  rcases putField_reg s t l v f with hk | ⟨x, hk⟩
  · exact hk r
  · rw [hk]; exact reg_setReg_other _ _ _ h

/-- The bits of the register outside the field stay. -/
theorem bitOf_putField_outside {i : Nat} (hw : f.lsb + f.width ≤ 32) (h : i < f.lsb ∨ f.lsb + f.width ≤ i) :
    bitOf ((State.putField s l v t f).reg l.off) i = bitOf (t.reg l.off) i := by
  rcases putField_reg s t l v f with hk | ⟨x, hk⟩
  · rw [hk]
  · rw [hk, reg_setFld _ _ _ _ _ hw]; exact testBit_setField _ _ _ _ _ h

end

/-- Settles O23: by the field's access code and class. -/
theorem fieldWrites : Obligations.FieldWrites := by
  intro s t o v l f hl
  refine ⟨fun h => ?_, putField_skipped, fun r => reg_putField_other,
    fun hf i => bitOf_putField_outside (field_masks hl hf).2.2⟩
  obtain ⟨-, -, hw⟩ := field_masks hl h.1
  refine ⟨fun ha hc => ?_, fun ha hc hr => ?_, fun ha hc hr => ?_, fun ha => ?_, putField_ignored h⟩
  · rw [putField_rw h ha hc, fld_setFld_of_lt _ _ hw (bitsOf_lt ..)]
  · rw [putField_boundary_idle h ha hc hr]
    refine ⟨?_, fun x => mask_of_dropShadow⟩
    rw [fld_congr (reg_dropShadow ..), fld_setFld_of_lt _ _ hw (bitsOf_lt ..)]
  · rw [putField_boundary_running h ha hc hr]
    exact ⟨reg_addShadow .., tfind_addShadow ..⟩
  · rw [putField_w1c h ha, fld_setFld_of_lt _ _ hw]
    exact Nat.lt_of_le_of_lt Nat.and_le_left (bitsOf_lt ..)

end Sys2Proof.Machine
end

section
/-! A host access of BAR0 (R7-R12, R448-R452): a full write judges and stores the value as it stands, and each outcome of a
write and of a read has its equation. -/

namespace Sys2Proof.Machine

/-! ### A write of all bits -/

theorem land_all_bits {v : Nat} (h : v < 4294967296) : Nat.land v 0xFFFFFFFF = v := by
  show v &&& (2 ^ 32 - 1) = v
  rw [Nat.and_two_pow_sub_one_eq_mod, Nat.mod_eq_of_lt h]

theorem regVal_lt (s : State) (view : Nat) (l : Loc) : s.regVal view l < 4294967296 := Nat.mod_lt _ (by decide)

theorem merged_lt (s : State) (l : Loc) : s.merged l < 4294967296 := by
  unfold State.merged
  split
  · exact BitVec.isLt _
  · exact regVal_lt ..

/-- Nothing of the old value is left under a full mask. -/
theorem written_all_bits (s : State) (l : Loc) {v : Nat} (h : v < 4294967296) :
    Nat.lor (Nat.land v 0xFFFFFFFF) (s.merged l - Nat.land (s.merged l) 0xFFFFFFFF) = v := by
  rw [land_all_bits h, land_all_bits (merged_lt s l), Nat.sub_self]
  exact Nat.or_zero v

/-- A full mask reaches every field of a located register. -/
theorem fields_all_bits {o : Nat} {l : Loc} (h : locate o = some l) :
    l.row.fields.filter (fun f => Nat.land 0xFFFFFFFF f.mask != 0) = l.row.fields := by
  rw [List.filter_eq_self]
  intro f hf
  obtain ⟨hne, hlt, -⟩ := field_masks h hf
  have hm : Nat.land 0xFFFFFFFF f.mask = f.mask := (Nat.and_comm ..).trans (land_all_bits hlt)
  rw [hm]
  exact bne_iff_ne.mpr hne

section

variable {s : State} {fn off v : Nat} {l : Loc}

theorem writeReg_refused (hv : v < 4294967296) (h : Claims.refuses s l v) :
    s.writeReg fn l v 0xFFFFFFFF = (s, .refused) := by
  unfold State.writeReg
  simp only [written_all_bits s l hv]
  rw [land_all_bits hv, if_pos]
  rw [Bool.or_eq_true, Bool.or_eq_true, bne_iff_ne, or_assoc]
  exact h

/-- The mask of the Locked fields of a write that are discarded. -/
def lockedMask (s : State) (l : Loc) (v : Nat) : Nat := (Claims.discards s l v).foldl (fun a f => a + f.mask) 0

theorem lockedMask_of_none (h : Claims.discards s l v = []) : lockedMask s l v = 0 := by rw [lockedMask, h]; rfl

/-- A write that is not refused stores field by field, then does what the register's write does (R12). -/
theorem writeReg_stored (hl : ∃ o, locate o = some l) (hv : v < 4294967296) (h : ¬ Claims.refuses s l v) :
    s.writeReg fn l v 0xFFFFFFFF =
      (if lockedMask s l v = 0 then ((Claims.stored s l v).act s l v 0xFFFFFFFF (lockedMask s l v) fn, .done)
       else ((((Claims.stored s l v).act s l v 0xFFFFFFFF (lockedMask s l v) fn).rejectBit fn l.row.code).refuseWrite fn
          l.off, .locked)) := by
  obtain ⟨o, ho⟩ := hl
  unfold State.writeReg
  simp only [written_all_bits s l hv, fields_all_bits ho]
  rw [land_all_bits hv, if_neg]
  · rfl
  · rw [Bool.or_eq_true, Bool.or_eq_true, bne_iff_ne, or_assoc]
    exact h

/-! ### Writes of BAR0 -/

theorem busWrite_unanswered {be : Nat} (h : s.answers (busTarget fn off) = false) : s.busWrite fn off v be = s := by
  simp [State.busWrite, h]

theorem busWrite_unassigned {be : Nat} (ht : busTarget fn off = .none) (h : s.answers .none = true) :
    s.busWrite fn off v be = s.refuseWrite fn (off / 4 * 4) := by
  simp [State.busWrite, ht, h]

theorem busWrite_partial {be : Nat} (ht : busTarget fn off = .reg l) (h : s.answers (.reg l) = true) (hb : be ≠ 15) :
    s.busWrite fn off v be = s.err 0 2 (if l.row.code = 4 then l.inst else 6) l.off 0 0 fn 0 0 := by
  simp [State.busWrite, ht, h, hb]

theorem busWrite_closed (ht : busTarget fn off = .reg l) (h : s.answers (.reg l) = true) (hc : s.closed fn l = true) :
    s.busWrite fn off v 15 = s.refuseWrite fn l.off := by
  simp [State.busWrite, ht, h, hc]

theorem busWrite_refused (hr : Claims.reaches s fn off l) (hv : v < 4294967296) (h : Claims.refuses s l v) :
    s.busWrite fn off v 15 = s.refuseWrite fn l.off := by
  obtain ⟨ht, ha, hc⟩ := hr
  simp [State.busWrite, ht, ha, hc, writeReg_refused hv h]

/-- A write that reaches its register and is refused by nothing, with no Locked field discarded. -/
theorem busWrite_accepted (h : Claims.accepts s fn off v l) (hv : v < 4294967296) :
    s.busWrite fn off v 15 = (Claims.stored s l v).act s l v 0xFFFFFFFF 0 fn := by
  obtain ⟨⟨ht, ha, hc⟩, hn, hd⟩ := h
  simp [State.busWrite, ht, ha, hc, writeReg_stored (busTarget_reg ht) hv hn, lockedMask_of_none hd]

theorem busWrite_locked (hr : Claims.reaches s fn off l) (hv : v < 4294967296) (hn : ¬ Claims.refuses s l v)
    (hm : lockedMask s l v ≠ 0) : s.busWrite fn off v 15 =
      (((Claims.stored s l v).act s l v 0xFFFFFFFF (lockedMask s l v) fn).rejectBit fn l.row.code).refuseWrite fn l.off := by
  obtain ⟨ht, ha, hc⟩ := hr
  simp [State.busWrite, ht, ha, hc, writeReg_stored (busTarget_reg ht) hv hn, hm]

/-! ### Reads of BAR0 -/

theorem busRead_zero (h : busTarget fn off = .none ∨ s.answers (busTarget fn off) = false) : s.busRead fn off = (s, 0) := by
  unfold State.busRead
  rcases h with h | h <;> simp [h]

theorem busRead_reg (ht : busTarget fn off = .reg l) (ha : s.answers (.reg l) = true) :
    s.busRead fn off = s.readReg fn l 0xFFFFFFFF := by
  simp [State.busRead, ht, ha]

theorem pcieUp_of_answers {t : Target} (h : s.answers t = true) : s.pcieUp = true := by
  unfold State.answers at h
  exact (Bool.and_eq_true_iff.mp h).1

theorem readReg_downed {mask : Nat} (hc : l.row.code = 4) (hd : (s.die l.inst).up = false) :
    s.readReg fn l mask = (s, 0) := by
  simp [State.readReg, hc, hd]

/-- The test of `readReg` for a downed die's register fails. -/
theorem not_downed (h : l.row.code ≠ 4 ∨ (s.die l.inst).up = true) :
    (decide (l.row.code = 4) && !(s.die l.inst).up) = false := by
  rcases h with h | h <;> simp [h]

theorem readReg_hwm {mask : Nat} (hu : (s.die l.inst).up = true) (hid : l.row.id = .lmMsOccHwm) :
    s.readReg fn l mask = (s.updDie l.inst (fun d => { d with hwm := d.occ }), s.regVal fn l) := by
  simp [State.readReg, not_downed (.inr hu), hid]

section

/-! A read of a register whose read has no effect of its own (R7, R9): h1 and h2 leave the last case of `readReg`. -/

variable {mask : Nat} (hup : l.row.code ≠ 4 ∨ (s.die l.inst).up = true) (h1 : l.row.id ≠ .lmMsOccHwm)
  (h2 : l.row.id ≠ .sqDbgPopLo)

include hup h1 h2

theorem readReg_clears (hn : s.captured l = none) : s.readReg fn l mask = (s.clearRc l mask, s.regVal fn l) := by
  simp [State.readReg, not_downed hup, hn]

theorem readReg_captures {o hi : Nat} (hs : s.captured l = some (o, hi)) :
    s.readReg fn l mask = (s.setReg o hi, s.regVal fn l) := by
  simp [State.readReg, not_downed hup, hs]

end

/-! ### The commands -/

theorem exec_registerWrite_plain (s : State) (fn : Fin 17) (off : BitVec 26) (v : BitVec 32) (be : BitVec 4) :
    exec (.registerWrite fn off v (Claims.plainWr be)) s = .next (s.busWrite fn.val off.toNat v.toNat be.toNat).finish := rfl

theorem exec_registerWrite_full (s : State) (fn : Fin 17) (off : BitVec 26) (v : BitVec 32) :
    exec (.registerWrite fn off v (Claims.plainWr 15)) s = .next (s.busWrite fn.val off.toNat v.toNat 15).finish := rfl

theorem exec_registerRead_unlinked (fn : Fin 17) (o : BitVec 26) (be : BitVec 4) (h : s.pcieUp = false) :
    exec (.registerRead fn o (Claims.plainRd be)) s = .next s.finish := by
  show Host.Outcome.next (s.hostRead .bar0 fn.val o.toNat be.toNat).finish = _
  simp [State.hostRead, h]

theorem exec_registerRead_plain {fn : Fin 17} {o : BitVec 26} {t : State} {d : Nat} (be : BitVec 4) (h : s.pcieUp = true)
    (hr : s.busRead fn.val o.toNat = (t, d)) : exec (.registerRead fn o (Claims.plainRd be)) s =
      .next (t.emit (.regData (BitVec.ofNat 32 (enabled be.toNat d)))).finish := by
  show Host.Outcome.next (s.hostRead .bar0 fn.val o.toNat be.toNat).finish = _
  simp [State.hostRead, h, State.spaceRead, hr]

end

/-- Settles O21: writes by what the offset holds and how the value is judged, reads by the register's read effect. -/
theorem registerAccess : Obligations.RegisterAccess := by
  intro s fn off l
  refine ⟨fun v be => ?_, fun be => ⟨exec_registerRead_unlinked fn off be, fun hp hz => ?_, fun ht ha => ?_⟩⟩
  · have hv : v.toNat < 4294967296 := v.isLt
    refine ⟨fun h => ?_, fun ht h => ?_, fun ht h hb => ?_, fun ht h hc => ?_, fun hr => ⟨fun h => ?_, fun hn => ⟨fun hd => ?_, ?_⟩⟩⟩
    · rw [exec_registerWrite_plain, busWrite_unanswered h]
    · rw [exec_registerWrite_plain, busWrite_unassigned ht h]
    · rw [exec_registerWrite_plain, busWrite_partial ht h (fun hc => hb (BitVec.eq_of_toNat_eq hc))]
    · rw [exec_registerWrite_full, busWrite_closed ht h hc]
    · rw [exec_registerWrite_full, busWrite_refused hr hv h]
    · rw [exec_registerWrite_full, busWrite_accepted ⟨hr, hn, hd⟩ hv]
    · rintro rej rfl hm
      rw [exec_registerWrite_full, busWrite_locked hr hv hn hm, lockedMask]
  · exact exec_registerRead_plain be hp (busRead_zero hz)
  · have hp := pcieUp_of_answers ha
    have hread := busRead_reg ht ha
    refine ⟨fun hc hd => ?_, fun hup h1 h2 => ⟨fun hn => ?_, fun o hi hs => ?_⟩, fun hu hid => ?_⟩
    · exact exec_registerRead_plain be hp (hread.trans (readReg_downed hc hd))
    · exact exec_registerRead_plain be hp (hread.trans (readReg_clears hup h1 h2 hn))
    · exact exec_registerRead_plain be hp (hread.trans (readReg_captures hup h1 h2 hs))
    · exact exec_registerRead_plain be hp (hread.trans (readReg_hwm hu hid))

end Sys2Proof.Machine
end

section
/-! The other forms of a host access (R7, R8, R338-R341, R449, R451): several doublewords, poisoned writes, and what a
doubleword of each space does. -/

namespace Sys2Proof.Machine

/-! ### Several doublewords -/

/-- The doublewords of a write, from the `k`-th of an access at `off`. -/
theorem hostWriteAll_eq_foldl (sp : HostSpace) (fn off : Nat) (xs : List (BitVec 32 × BitVec 4)) (k : Nat) (s : State) :
    State.hostWriteAll xs sp fn (off + 4 * k) s =
      (xs.zipIdx k).foldl (fun t p => t.spaceWrite sp fn (off + 4 * p.2) p.1.1.toNat p.1.2.toNat) s := by
  induction xs generalizing k s with
  | nil => rfl
  | cons x xs ih =>
    rw [List.zipIdx_cons, List.foldl_cons, ← ih (k + 1)]
    rfl

/-- The doublewords of a read, from the `k`-th of an access at `off`. -/
theorem hostReadAll_eq_foldl (sp : HostSpace) (fn off : Nat) (xs : List (BitVec 4)) (k : Nat) (s : State) :
    State.hostReadAll xs sp fn (off + 4 * k) s =
      (xs.zipIdx k).foldl (fun t p => t.hostRead sp fn (off + 4 * p.2) p.1.toNat) s := by
  induction xs generalizing k s with
  | nil => rfl
  | cons x xs ih =>
    rw [List.zipIdx_cons, List.foldl_cons, ← ih (k + 1)]
    rfl

theorem exec_registerWrite_clean (s : State) (fn : Fin 17) (off : BitVec 26) (v : BitVec 32) (be : BitVec 4) (sp : HostSpace)
    (more : List (BitVec 32 × BitVec 4)) : exec (.registerWrite fn off v ⟨be, sp, more, false⟩) s =
      .next (((v, be) :: more).zipIdx.foldl
        (fun t p => t.spaceWrite sp fn.val (off.toNat + 4 * p.2) p.1.1.toNat p.1.2.toNat) s).finish := by
  rw [← hostWriteAll_eq_foldl sp fn.val off.toNat _ 0]
  rfl

theorem exec_registerWrite_poisoned (s : State) (fn : Fin 17) (off : BitVec 26) (v : BitVec 32) (be : BitVec 4)
    (sp : HostSpace) (more : List (BitVec 32 × BitVec 4)) : exec (.registerWrite fn off v ⟨be, sp, more, true⟩) s =
      .next (if s.pcieUp then s.aer aerPoison else s).finish := rfl

theorem exec_registerRead_all (s : State) (fn : Fin 17) (off : BitVec 26) (be : BitVec 4) (sp : HostSpace)
    (more : List (BitVec 4)) : exec (.registerRead fn off ⟨be, sp, more⟩) s =
      .next ((be :: more).zipIdx.foldl (fun t p => t.hostRead sp fn.val (off.toNat + 4 * p.2) p.1.toNat) s).finish := by
  rw [← hostReadAll_eq_foldl sp fn.val off.toNat _ 0]
  rfl

section

variable {s : State} {fn off v be : Nat}

theorem hostRead_unlinked {sp : HostSpace} (h : s.pcieUp = false) : s.hostRead sp fn off be = s := by
  simp [State.hostRead, h]

theorem hostRead_linked {sp : HostSpace} {t : State} {d : Nat} (h : s.pcieUp = true) (hr : s.spaceRead sp fn off = (t, d)) :
    s.hostRead sp fn off be = t.emit (.regData (BitVec.ofNat 32 (enabled be d))) := by
  simp [State.hostRead, h, hr]

/-! ### Doublewords of BAR0 that are no registers -/

/-- A write of a doubleword of an MSI-X table: doubleword 3 masks, unmasks and sends, or unmasks (R340). -/
theorem vectorWr_eq (s : State) (fn vec dw v be : Nat) :
    s.vectorWr fn vec dw v be = Claims.vecSet s fn vec dw (Claims.overlaid be (s.vectorRd fn vec dw) v) := by
  show s.writeVector fn vec dw (Claims.overlaid be (s.vectorRd fn vec dw) v) = _
  generalize Claims.overlaid be (s.vectorRd fn vec dw) v = w
  unfold State.writeVector Claims.vecSet
  by_cases hd : dw = 3
  · by_cases hm : bitOf w 0 = true
    · simp [hd, hm]
    · by_cases hp : tget false s.msix.pba (fn * 2048 + vec) = true <;> simp [State.unmask, hd, hm, hp]
  · simp [hd]

theorem busWrite_vector {vec dw : Nat} (ht : busTarget fn off = .vector vec dw) (ha : s.answers (.vector vec dw) = true) :
    s.busWrite fn off v be = Claims.vecSet s fn vec dw (Claims.overlaid be (s.vectorRd fn vec dw) v) := by
  simp [State.busWrite, ht, ha, vectorWr_eq]

theorem busWrite_pba {w : Nat} (ht : busTarget fn off = .pba w) : s.busWrite fn off v be = s := by
  simp [State.busWrite, ht]

theorem busWrite_latch {k : Nat} (ht : busTarget fn off = .latch k) (ha : s.answers (.latch k) = true) :
    s.busWrite fn off v 15 = (s.latchRelease k fn).1 := by
  simp [State.busWrite, ht, ha]

theorem busWrite_latch_partial {k : Nat} (ht : busTarget fn off = .latch k) (ha : s.answers (.latch k) = true)
    (hb : be ≠ 15) : s.busWrite fn off v be = s.err 0 2 6 (0x240000 + 4 * k) 0 0 fn 0 0 := by
  simp [State.busWrite, ht, ha, hb]

theorem busRead_vector {vec dw : Nat} (ht : busTarget fn off = .vector vec dw) (ha : s.answers (.vector vec dw) = true) :
    s.busRead fn off = (s, s.vectorRd fn vec dw) := by
  simp [State.busRead, ht, ha]

theorem busRead_pba {w : Nat} (ht : busTarget fn off = .pba w) (ha : s.answers (.pba w) = true) :
    s.busRead fn off = (s, s.pbaRd fn w) := by
  simp [State.busRead, ht, ha]

theorem busRead_latch {k : Nat} (ht : busTarget fn off = .latch k) (ha : s.answers (.latch k) = true) :
    s.busRead fn off = ((s.latchAcquire k fn 0 0 0).1, (s.latchAcquire k fn 0 0 0).2.toNat) := by
  simp [State.busRead, ht, ha]

/-! ### BAR4 -/

theorem spaceWrite_bar4_table (hp : s.pcieUp = true) (hr : s.ready = true) (ho : off < 0x8000) :
    s.spaceWrite .bar4 0 off v be =
      Claims.vecSet s 0 (off / 16) (off / 4 % 4) (Claims.overlaid be (s.vectorRd 0 (off / 16) (off / 4 % 4)) v) := by
  simp [State.spaceWrite, State.bar4Write, hp, hr, ho, vectorWr_eq]

theorem spaceWrite_bar4_ignored (h : s.pcieUp = false ∨ fn ≠ 0 ∨ s.ready = false ∨ 0x8000 ≤ off) :
    s.spaceWrite .bar4 fn off v be = s := by
  rcases h with h | h | h | h
  · simp [State.spaceWrite, h]
  · simp [State.spaceWrite, State.bar4Write, h]
  · simp [State.spaceWrite, State.bar4Write, h]
  · simp [State.spaceWrite, State.bar4Write, Nat.not_lt.mpr h]

theorem spaceRead_bar4 (h : s.ready = true) : s.spaceRead .bar4 0 off =
    (s, if off < 0x8000 then s.vectorRd 0 (off / 16) (off / 4 % 4)
      else if off < 0x8100 then s.pbaRd 0 ((off - 0x8000) / 4) else 0) := by
  simp [State.spaceRead, State.bar4Read, h]

theorem spaceRead_bar4_zero (h : fn ≠ 0 ∨ s.ready = false) : s.spaceRead .bar4 fn off = (s, 0) := by
  rcases h with h | h <;> simp [State.spaceRead, State.bar4Read, h]

/-! ### Configuration space -/

theorem spaceWrite_cfg_ignored (h : s.pcieUp = false ∨ fn ≠ 0) : s.spaceWrite .cfg fn off v be = s := by
  rcases h with h | h <;> simp [State.spaceWrite, State.cfgWrite, h]

/-- The PCI Express capability lies after the header, so none of its registers is a base address register. -/
theorem pcieCap_ge : 0x40 ≤ Config.pcieCap := Nat.le_add_right _ _

/-- A write of Device Control sets the payload and read request sizes (R339). -/
theorem spaceWrite_deviceControl (hp : s.pcieUp = true) (ho : off / 4 * 4 = Config.pcieCap + 8) {w : Nat}
    (hw : w = Claims.overlaid be (s.cfgVal 0 (off / 4 * 4)).toNat v) : s.spaceWrite .cfg 0 off v be =
      { s with cfg := { s.cfg with mps := BitVec.ofNat 3 (w / 2 ^ 5), mrrs := BitVec.ofNat 3 (w / 2 ^ 12) } } := by
  have hc := pcieCap_ge
  have hs : s.spaceWrite .cfg 0 off v be = s.cfgWrite 0 off v be := by simp [State.spaceWrite, hp]
  subst hw
  rw [hs, State.cfgWrite, if_neg (by decide), if_neg (by omega), if_neg (by omega), if_pos ho]
  rfl

theorem cfgVal_identity (ho : off / 4 * 4 = 0) : s.cfgVal 0 off = 0x88101F3C := by
  simp [State.cfgVal, ho]

theorem cfgVal_class (ho : off / 4 * 4 = 8) : s.cfgVal fn off = 0x12000001 := by
  simp [State.cfgVal, ho]

/-- The Link Status register: speed and width of the trained link. -/
theorem cfgVal_linkStatus (ho : off / 4 * 4 = Config.pcieCap + 0x10) :
    s.cfgVal 0 off = BitVec.ofNat 32 (s.cfg.gen * 2 ^ 16 + s.cfg.width * 2 ^ 20) := by
  have hc := pcieCap_ge
  simp only [State.cfgVal, ho]
  rw [if_neg (by omega), if_neg (by omega), if_neg (by omega), if_neg (by omega), if_neg (by omega), if_pos (by simp)]

end

/-- Settles O22: each form by what its doublewords reach. -/
theorem hostForms : Obligations.HostForms := by
  rintro s fn off a rfl
  refine ⟨fun v be sp more => ⟨fun h => ?_, fun h => ?_, exec_registerWrite_clean ..⟩, fun v be => ⟨?_, ?_, ?_, ?_, ?_, ?_, ?_⟩,
    fun be sp more => ⟨exec_registerRead_all .., hostRead_unlinked, fun hp t d => hostRead_linked hp⟩,
    fun vec dw => busRead_vector, fun w => busRead_pba, fun k => busRead_latch, fun h0 hr => ?_, spaceRead_bar4_zero,
    fun ho h0 => ?_, fun ho => ?_, fun ho h0 hg hw => ?_⟩
  · rw [exec_registerWrite_poisoned, if_pos h]; rfl
  · rw [exec_registerWrite_poisoned, if_neg (by simp [h])]
  · exact fun vec dw => busWrite_vector
  · exact fun w => busWrite_pba
  · exact fun k ht ha => ⟨fun hb => by rw [hb]; exact busWrite_latch ht ha, busWrite_latch_partial ht ha⟩
  · intro hp h0 hr ho
    have h1 : off.toNat / 4 * 4 / 16 = off.toNat / 16 := by omega
    have h2 : off.toNat / 4 * 4 / 4 = off.toNat / 4 := by omega
    rw [h0, spaceWrite_bar4_table hp hr (by omega), h1, h2]
  · exact fun h => spaceWrite_bar4_ignored (h.imp_right (Or.imp_right (Or.imp_right (by omega))))
  · intro w hp h0 ho hw
    rw [h0]; exact spaceWrite_deviceControl hp ho hw
  · exact spaceWrite_cfg_ignored
  · rw [h0, spaceRead_bar4 hr]
    refine ⟨fun h => ?_, fun h h' => ?_, fun h => ?_⟩
    · rw [if_pos h]
    · rw [if_neg (by omega), if_pos h']
    · rw [if_neg (by omega), if_neg (by omega)]
  · rw [h0]; exact congrArg (fun x : BitVec 32 => (s, x.toNat)) (cfgVal_identity ho)
  · exact congrArg (fun x : BitVec 32 => (s, x.toNat)) (cfgVal_class ho)
  · rw [h0]
    refine (congrArg (fun x : BitVec 32 => (s, x.toNat)) (cfgVal_linkStatus ho)).trans ?_
    rw [BitVec.toNat_ofNat, Nat.mod_eq_of_lt (by omega)]

end Sys2Proof.Machine
end

section
/-! What a D2D link direction does with the flit at the front of its wire (R18-R24): one equation per case of `d2dTake`, of
`flitIn` and of `ctrlIn`. -/

namespace Sys2Proof.Machine

/-- Two writes of one direction: the later stands. -/
theorem setDir_setDir (s : State) (d : Nat) (x y : LinkDir) : (s.setDir d x).setDir d y = s.setDir d y := by
  simp [State.setDir, lset]

/-- The test that `d2dTake` makes of a receiver. -/
theorem listens_iff {s : State} {d : Nat} :
    (!(s.dir d).discarding || (s.dir d).skip == some 0) = true ↔ Claims.listens s d := by
  simp [Claims.listens]

theorem not_listens_iff {s : State} {d : Nat} :
    (!(s.dir d).discarding || (s.dir d).skip == some 0) = false ↔ ¬ Claims.listens s d := by
  rw [← listens_iff, Bool.not_eq_true]

theorem freePool_eq (s : State) (d pool : Nat) : s.freePool d pool = Claims.creditBack s d pool := rfl

/-! ### The flit at the front -/

section

variable {s : State} {d : Nat} {num : Option (BitVec 9)} {f err : BitVec 128} {rest : List (Option (BitVec 9) × BitVec 128)}

/-- A row that names the subtype of the flit at the front takes it as one that names its type alone. -/
theorem d2dTake_sub {k : Nat} (hf : Claims.atFront s d num f rest) (hk : fieldOf f 16 4 = k) :
    s.d2dTake d ftCtrl (some k) err = s.d2dTake d ftCtrl none err := by
  simp [State.d2dTake, hf.1, hk]

section

variable (hf : Claims.atFront s d num f rest)
include hf

theorem d2dTake_badCrc (hc : flitOk (f ^^^ err) = false) (hl : Claims.listens s d) :
    s.d2dTake d (flitType f) none err = Claims.nakked s d { s.dir d with wire := rest, skip := none } := by
  have hv := listens_iff.mpr hl
  simp [State.d2dTake, hf.1, hf.2, hc, LinkDir.live, hv, setDir_setDir, Claims.nakked]

theorem d2dTake_badCrc_discarding (hc : flitOk (f ^^^ err) = false) (hl : ¬ Claims.listens s d) :
    s.d2dTake d (flitType f) none err = Claims.nakked s d (Claims.skipped s d rest) := by
  have hv := not_listens_iff.mpr hl
  simp [State.d2dTake, hf.1, hf.2, hc, LinkDir.live, hv, setDir_setDir, Claims.nakked, Claims.skipped]

theorem d2dTake_discarded (hc : flitOk f = true) (hl : ¬ Claims.listens s d) :
    s.d2dTake d (flitType f) none 0 = s.setDir d (Claims.skipped s d rest) := by
  have hv := not_listens_iff.mpr hl
  simp [State.d2dTake, hf.1, hf.2, hc, LinkDir.live, hv, Claims.skipped]

end

theorem d2dTake_outOfSequence {k : BitVec 9} (hf : Claims.front s d (some k) f rest) (hc : flitOk f = true)
    (hk : k ≠ (s.dir d).expect) : s.d2dTake d (flitType f) none 0 = Claims.unwired s d rest := by
  obtain ⟨⟨hw, hu⟩, hl⟩ := hf
  have hv := listens_iff.mpr hl
  simp [State.d2dTake, hw, hu, hc, LinkDir.live, hv, hk, Claims.unwired]

theorem d2dTake_expected (hf : Claims.front s d (some (s.dir d).expect) f rest) (hc : flitOk f = true)
    (hb : flitBad f = false) : s.d2dTake d (flitType f) none 0 = (Claims.expected s d rest).flitIn d f := by
  obtain ⟨⟨hw, hu⟩, hl⟩ := hf
  have hv := listens_iff.mpr hl
  simp [State.d2dTake, hw, hu, hc, LinkDir.live, hv, hb, setDir_setDir, Claims.expected]

theorem d2dTake_unnumbered (hf : Claims.front s d none f rest) (hc : flitOk f = true) (hb : flitBad f = false) :
    s.d2dTake d (flitType f) none 0 =
      if flitType f = ftCtrl then (Claims.unwired s d rest).ctrlIn d f else (Claims.unwired s d rest).flitIn d f := by
  obtain ⟨⟨hw, hu⟩, hl⟩ := hf
  have hv := listens_iff.mpr hl
  simp [State.d2dTake, hw, hu, hc, LinkDir.live, hv, hb, Claims.unwired]

end

/-! ### The rows -/

theorem twkFlow_of_nothingWaits {s : State} (h : s.anyWait = false) : s.twkFlow = s := by simp [State.twkFlow, h]

/-- The five rows of numbered flits take the flit; a token's row tries the waiting tokens again (R29). -/
theorem flitRow_eq {ty : Nat} {s : State} (d : Fin 24) (err : BitVec 128) (ht : Claims.numberedType ty)
    (hn : Claims.nothingWaits ty s) :
    Claims.flitRow ty d err s = .next (Claims.flowed ty (s.d2dTake d.val ty none err)).finish := by
  rcases ht with rfl | rfl | rfl | rfl | rfl
  · show Host.Outcome.next (s.twkFlow.d2dTake d.val ftToken none err).twkFlow.finish = _
    rw [twkFlow_of_nothingWaits (hn rfl)]
    rfl
  all_goals rfl

theorem flitRow_other {ty : Nat} {s : State} (d : Fin 24) (err : BitVec 128) (ht : Claims.numberedType ty)
    (hne : ty ≠ ftToken) : Claims.flitRow ty d err s = .next (s.d2dTake d.val ty none err).finish := by
  rw [flitRow_eq d err ht (fun h => absurd h hne), Claims.flowed, if_neg hne]

/-! ### Memory accesses of a link -/

section

variable {s : State} {a x n off : Nat} {w : PWord}

theorem bankWr_served {b : Nat} (hb : s.bankState b = 0) : s.bankWr b a w = s.wr a w := by
  simp [State.bankWr, accessNow_served hb]

theorem bankRd_served {b : Nat} {value : State → PWord} (hb : s.bankState b = 0) : s.bankRd b value = (s, value s) := by
  simp [State.bankRd, accessNow_served hb]

theorem idleRd_ddr {req : Nat} (hk : s.kindOf a = .ddr x) : s.idleRd req a = (s, s.rd a) := by simp [State.idleRd, hk]

/-- A bank that holds no writes settles as it is (R233). -/
theorem settleBank_of_none (h : (s.die n).held.all (fun h => frameBank n h.addr != n * 256 + off / 131072) = true) :
    s.settleBank n off = s := by
  have hm : (s.die n).held.filter (fun h => frameBank n h.addr == n * 256 + off / 131072) = [] := by
    rw [List.filter_eq_nil_iff]
    intro y hy
    simpa using List.all_eq_true.mp h y hy
  simp [State.settleBank, hm]

theorem idleRd_frame {req : Nat} (hk : s.kindOf a = .frame n off) (hb : s.bankState (n * 256 + off / 131072) = 0)
    (hh : (s.die n).held.all (fun h => frameBank n h.addr != n * 256 + off / 131072) = true) :
    s.idleRd req a = (s, s.frameRd n off) := by
  simp [State.idleRd, hk, settleBank_of_none hh, bankRd_served hb]

end

/-! ### A flit at its end -/

section

variable {s t : State} {d : Nat} {f : BitVec 128}

/-- A token whose class does not wait moves on (R29). -/
theorem flitIn_token (hty : flitType f = ftToken) (h : Claims.tokenArrives s d f t) :
    s.flitIn d f = Claims.creditBack t d (flitToken f).cls.toNat := by
  obtain ⟨hstuck, h⟩ := h
  have key : (s.dir d).waits (flitToken f).cls = false := hstuck
  rw [← freePool_eq]
  rcases h with ⟨hd, he, rfl⟩ | ⟨hd, he, hu, rfl⟩ | ⟨hd, he, hw, hb⟩ | ⟨hd, he, hne, hu, rfl⟩
  · have h6 : dirTo d ≠ 6 := by omega
    simp [State.flitIn, State.tokenIn, hty, key, he, h6]
  · have h6 : flitDest f ≠ 6 := by omega
    simp [State.flitIn, State.tokenIn, hty, key, hd, hu, h6]
  · simp [State.flitIn, State.tokenIn, hty, key, hd, he, hw, hb]
  · have h6 : dirTo d ≠ 6 := by omega
    simp [State.flitIn, State.tokenIn, hty, key, hne, hu, h6]

/-- At the end of its direction a flit of each type acts when its DEST is this end, and passes on otherwise; then its
buffer is given back (R21, R22). -/
theorem flitIn_wr (h : flitType f = ftWr) : s.flitIn d f =
    Claims.creditBack (if flitDest f = dirTo d then s.serveWrite (flitAddr f) (flitData f) else s.passOn d f) d
      (flitPool f) := by
  rw [← freePool_eq]
  simp [State.flitIn, flitPool, h, ftToken, ftPour, ftRdReq, ftWr, ftRdRsp]

theorem flitIn_rdReq (h : flitType f = ftRdReq) : s.flitIn d f =
    Claims.creditBack (if flitDest f = dirTo d then
        (s.serveRead (flitSrc f) (flitAddr f)).1.sendFlit (dirTo d) (memFlit ftRdRsp (flitSrc f) (dirTo d) (flitAddr f)
          (flitTxn f).toNat (s.serveRead (flitSrc f) (flitAddr f)).2 false)
      else s.passOn d f) d (flitPool f) := by
  rw [← freePool_eq]
  simp [State.flitIn, flitPool, h, ftToken, ftPour, ftRdReq, ftRdRsp]

theorem flitIn_rdRsp (h : flitType f = ftRdRsp) : s.flitIn d f =
    Claims.creditBack (if flitDest f = dirTo d then
        s.wake (dirTo d) (fun w => w == .mem (flitTxn f)) (some (if flitErr f then .err else .word (flitData f)))
      else s.passOn d f) d (flitPool f) := by
  rw [← freePool_eq]
  simp [State.flitIn, flitPool, h, ftToken, ftPour, ftRdReq, ftWr, ftRdRsp]

theorem flitIn_pour (h : flitType f = ftPour) : s.flitIn d f =
    Claims.creditBack (if flitDest f = dirTo d then s.pourIn f else s.passOn d f) d (flitPool f) := by
  rw [← freePool_eq]
  simp [State.flitIn, flitPool, h, ftToken, ftPour, ftRdRsp]

theorem flitIn_arrives (hd : flitDest f = dirTo d) (h : Claims.arrives s d f t) :
    s.flitIn d f = Claims.creditBack t d (flitPool f) := by
  rcases h with ⟨hty, x, hk, rfl⟩ | ⟨hty, n, off, hk, hb, rfl⟩ | ⟨hty, off, hk, hb, rfl⟩ | ⟨hty, x, hk, rfl⟩ |
    ⟨hty, n, off, hk, hb, hh, rfl⟩ | ⟨hty, rfl⟩ | ⟨hty, rfl⟩
  · rw [flitIn_wr hty, if_pos hd]; simp only [State.serveWrite, hk]
  · rw [flitIn_wr hty, if_pos hd]; simp only [State.serveWrite, hk, bankWr_served hb]
  · rw [flitIn_wr hty, if_pos hd]; simp only [State.serveWrite, hk, bankWr_served hb]
  · rw [flitIn_rdReq hty, if_pos hd]; simp only [State.serveRead, hk, idleRd_ddr hk]
  · rw [flitIn_rdReq hty, if_pos hd]; simp only [State.serveRead, hk, idleRd_frame hk hb hh]
  · rw [flitIn_rdRsp hty, if_pos hd]
  · rw [flitIn_pour hty, if_pos hd]

/-- A numbered flit other than a token that only passes (R22). -/
theorem flitIn_passes (hty : Claims.numberedType (flitType f)) (hne : flitType f ≠ ftToken) (hd : flitDest f ≠ dirTo d)
    (hu : flitDest f < 6 → (s.die (flitDest f)).up = true) :
    s.flitIn d f = Claims.creditBack (s.queueFlit (s.nextHop (dirTo d) (flitDest f)) f) d (flitPool f) := by
  have hp : s.passOn d f = s.queueFlit (s.nextHop (dirTo d) (flitDest f)) f :=
    if_neg (by simpa using fun h6 => hu h6)
  rcases hty with h | h | h | h | h
  · exact absurd h hne
  · rw [flitIn_rdReq h, if_neg hd, hp]
  · rw [flitIn_wr h, if_neg hd, hp]
  · rw [flitIn_rdRsp h, if_neg hd, hp]
  · rw [flitIn_pour h, if_neg hd, hp]

theorem flitIn_credit (hty : flitType f = ftCredit) (hp : fieldOf f 16 4 < 11) :
    s.flitIn d f = (s.setDir (Claims.reverse d) { s.dir (Claims.reverse d) with
      seen := lset (s.dir (Claims.reverse d)).seen (fieldOf f 16 4) (BitVec.ofNat 16 (fieldOf f 20 16)) }).pumpDir
        (Claims.reverse d) := by
  simp [State.flitIn, hty, hp, ftToken, ftPour, ftRdReq, ftWr, ftRdRsp, ftCredit]
  rfl

theorem ctrlIn_ack (hs : fieldOf f 16 4 = 0)
    (hr : (s.dir (Claims.reverse d)).replay.any (fun p => p.1 == BitVec.ofNat 9 (fieldOf f 20 9)) = true) :
    s.ctrlIn d f = (s.setDir (Claims.reverse d) { s.dir (Claims.reverse d) with
      replay := ((s.dir (Claims.reverse d)).replay.dropWhile (fun p => p.1 != BitVec.ofNat 9 (fieldOf f 20 9))).drop 1,
      replays := 0 }).pumpDir (Claims.reverse d) := by
  simp only [State.ctrlIn, hs, if_true]
  exact if_pos hr

/-- A NAK below the sixteenth replay in a row (R20, R24). -/
theorem ctrlIn_nak (hs : fieldOf f 16 4 = 1) (hn : (s.dir (Claims.reverse d)).replays + 1 < 16) :
    s.ctrlIn d f = s.setDir (Claims.reverse d)
      ((s.dir (Claims.reverse d)).replayFrom (BitVec.ofNat 9 (fieldOf f 20 9))) := by
  simp only [State.ctrlIn, hs, if_true]
  rw [if_neg (by decide)]
  exact if_neg (Nat.not_le.mpr hn)

theorem ctrlIn_trainDone (hs : fieldOf f 16 4 = 2) :
    s.ctrlIn d f = s.setDir d { s.dir d with training := false } := by
  simp [State.ctrlIn, hs]

end

/-- Settles O13: by the CRC, the receiver, the sequence number, and what the flit carries. -/
theorem d2dFlits : Obligations.D2dFlits := by
  intro d s f err rest
  refine ⟨?_, ?_, ?_, ?_, ?_, ?_, ?_, ?_⟩
  · rintro _ num hty hn rfl hf hc
    rw [flitRow_eq d err hty hn]
    exact ⟨fun hl => by rw [d2dTake_badCrc hf hc hl], fun hl => by rw [d2dTake_badCrc_discarding hf hc hl]⟩
  · refine fun num hf hc hl => ⟨?_, fun hty => ?_⟩
    · rintro _ hty hn rfl
      rw [flitRow_eq d 0 hty hn, d2dTake_discarded hf hc hl]
    · rw [← d2dTake_discarded hf hc hl, hty]
      rfl
  · rintro _ k hty hn rfl hf hc hk
    rw [flitRow_eq d 0 hty hn, d2dTake_outOfSequence hf hc hk]
  · intro t hty hn hf hc hb ha
    show Host.Outcome.next (s.twkFlow.d2dTake d.val ftToken none 0).twkFlow.finish = _
    rw [twkFlow_of_nothingWaits hn, ← hty, d2dTake_expected hf hc hb, flitIn_token hty ha]
  · rintro _ t hty hne rfl hf hc hb hd ha
    rw [flitRow_other d 0 hty hne, d2dTake_expected hf hc hb, flitIn_arrives hd ha]
  · rintro _ hty hne rfl hf hc hb hd hu
    rw [flitRow_other d 0 hty hne, d2dTake_expected hf hc hb, flitIn_passes (s := Claims.expected s d.val rest) hty hne hd hu]
  · intro hf hc hb
    have hctrl : flitType f = ftCtrl → s.d2dTake d.val ftCtrl none 0 = (Claims.unwired s d.val rest).ctrlIn d.val f :=
      fun h => by rw [← h, d2dTake_unnumbered hf hc hb, if_pos h]
    refine ⟨?_, ?_, ?_, fun hty hs => ?_⟩
    · rintro x e hty hp rfl rfl
      show Host.Outcome.next (s.d2dTake d.val ftCredit none 0).finish = _
      rw [← hty, d2dTake_unnumbered hf hc hb, if_neg (by rw [hty]; decide), flitIn_credit hty hp]
    · rintro x e q hty hs rfl rfl rfl hr
      show Host.Outcome.next (s.d2dTake d.val ftCtrl (some 0) 0).finish = _
      rw [d2dTake_sub hf.1 hs, hctrl hty, ctrlIn_ack hs hr]
    · rintro x e q hty hs rfl rfl rfl hn
      show Host.Outcome.next (s.d2dTake d.val ftCtrl (some 1) 0).finish = _
      rw [d2dTake_sub hf.1 hs, hctrl hty, ctrlIn_nak hs hn]
      simp [LinkDir.replayFrom]
    · show Host.Outcome.next (s.d2dTake d.val ftCtrl (some 2) 0).finish = _
      rw [d2dTake_sub hf.1 hs, hctrl hty, ctrlIn_trainDone hs]
  · intro hu hs
    show Host.Outcome.next (s.d2dAck d.val).finish = _
    rw [State.d2dAck, if_neg (by simp [hu, hs])]

end Sys2Proof.Machine
end

section
/-! The links of Twikel (R25-R33): training blocks, acknowledgements, credits and the epoch check. -/

namespace Sys2Proof.Machine

/-- A frame offered to a link that has just been written: one write of the link with both. -/
theorem twkQueue_setTwk (s : State) (n : Nat) (x : Twk) (rank ready body : Nat) :
    (s.setTwk n x).twkQueue n rank ready body = s.setTwk n { x with fl := Claims.offered x.fl rank ready body } := by
  unfold State.twkQueue
  by_cases h : n < s.tws.length
  · rw [twk_setTwk s n x h]
    simp [State.setTwk, lset, FrameLink.offer, Claims.offered]
  · simp [State.setTwk, lset, List.set_eq_of_length_le (Nat.le_of_not_lt h)]

theorem syncOk_iff {sync : BitVec 2} : syncOk sync = true ↔ Claims.validSync sync := by
  simp [syncOk, Claims.validSync]

theorem twkTsZero_iff {blk : Nat} {ts2 : Bool} : twkTsZero blk ts2 = true ↔ Claims.twkZero blk ts2 := by
  simp [twkTsZero, Claims.twkZero, and_assoc]

/-! ### Training blocks -/

section

variable {s : State} {n lane skew blk : Nat} {sync : BitVec 2} {ts2 : Bool} {fl : FrameLink}

/-- A lane that trains sends its training blocks from now on. -/
theorem twkSendTrain_powered (h : s.twkPowered n = true) : s.twkSendTrain n ts2 = s.emit (Claims.twkOut s n ts2) := if_pos h

/-- A link that takes training blocks counts a lane's sync headers, or reads the block (R26, R278). -/
theorem twkBlock_trains (ht : Claims.twkTrains s n) (hl : lane < 8) : s.twkBlock n lane sync skew blk ts2 =
    if ((s.twk n).fl.header 8 lane sync skew).2 = true then s.twkRead n lane (sync == 1) blk ts2
    else if ((s.twk n).fl.locked lane && !ts2) = true then Claims.twkLink s n ((s.twk n).fl.badTs1 8 lane)
    else Claims.twkLink s n ((s.twk n).fl.header 8 lane sync skew).1 := by
  obtain ⟨h1, h2, h3, h4⟩ := ht
  simp [State.twkBlock, h1, h2, h3, h4, Nat.not_le.mpr hl, Claims.twkLink]

/-- A lane without block lock counts a valid header, and begins again after another one (R278 item 1). -/
theorem twkBlock_unlocked (ht : Claims.twkTrains s n) (hl : lane < 8) (hs : lget 0 (s.twk n).fl.sync lane < 64) :
    s.twkBlock n lane sync skew blk ts2 = Claims.twkLink s n { (s.twk n).fl with
      sync := if syncOk sync = true then bumpAt (s.twk n).fl.sync 8 lane
        else lset (bumpAt (s.twk n).fl.sync 8 lane) lane 0 } := by
  have hk : (s.twk n).fl.locked lane = false := by simpa [FrameLink.locked] using hs
  rw [twkBlock_trains ht hl]
  by_cases hv : syncOk sync = true <;> simp [FrameLink.header, hk, hv]

theorem twkBlock_reads (ht : Claims.twkTrains s n) (hl : lane < 8) (hr : Claims.readsBlock (s.twk n).fl lane sync skew) :
    s.twkBlock n lane sync skew blk ts2 = s.twkRead n lane (sync == 1) blk ts2 := by
  obtain ⟨hlock, hsync, hskew⟩ := hr
  have hk : (s.twk n).fl.locked lane = true := decide_eq_true hlock
  rw [twkBlock_trains ht hl, if_pos]
  simp [FrameLink.header, hk, syncOk_iff.mpr hsync, hskew]

/-- The block that a lane reads is a training block of the type named, with good check byte and zero fields (R26). -/
def goodBlock (blk : Nat) (ts2 : Bool) : Prop :=
  blkOk blk = true ∧ bitsOf blk 0 8 = (if ts2 then 0xC6 else 0xC5) ∧ Claims.twkZero blk ts2

theorem twkRead_badTs1 {inv : Bool} (h : ¬ goodBlock blk false) :
    s.twkRead n lane inv blk false = Claims.twkLink s n ((s.twk n).fl.badTs1 8 lane) := by
  unfold State.twkRead
  rw [if_pos]
  · rfl
  · simpa [goodBlock, ← twkTsZero_iff, imp_iff_not_or, or_assoc] using h

/-- A good training block on a lane in an accepted order. -/
theorem twkRead_good (hg : goodBlock blk ts2) (ho : laneOrderOk (Claims.twkPlaced s n lane blk sync).lanes 8 = true) :
    s.twkRead n lane (sync == 1) blk ts2 =
      if ts2 = false then s.twkTs1 n lane (Claims.twkPlaced s n lane blk sync)
      else if bitsOf blk 24 8 ≠ 1 ∨ bitsOf blk 16 8 ≠ 8 then s.twkFail n
      else s.twkTs2 n lane (Claims.twkPlaced s n lane blk sync) blk := by
  obtain ⟨hb, ht, hz⟩ := hg
  have hz' := twkTsZero_iff.mpr hz
  unfold Claims.twkPlaced at ho ⊢
  cases ts2 with
  | false => simp only [State.twkRead, hb, ht, hz', ho]; rfl
  | true => simp only [State.twkRead, hb, ht, hz', ho]; simp

theorem twkTs1_counts (h : allAtLeast (bumpAt fl.ts1 8 lane) 8 16 = false ∨ fl.ts2Start ≠ none) :
    s.twkTs1 n lane fl = Claims.twkLink s n { fl with ts1 := bumpAt fl.ts1 8 lane } := by
  unfold State.twkTs1
  rw [if_neg]
  · rfl
  · rcases h with h | h <;> simp [h]

theorem twkTs1_complete (h : allAtLeast (bumpAt fl.ts1 8 lane) 8 16 = true)
    (h2 : fl.ts2Start = none) :
    s.twkTs1 n lane fl =
      (Claims.twkLink s n { fl with ts1 := bumpAt fl.ts1 8 lane, ts2Start := some s.clk.edges }).twkSendTrain n true := by
  unfold State.twkTs1
  rw [if_pos (by simp [h, h2])]
  rfl

theorem passEdges_past {e : Nat} (h : e ≤ s.clk.edges) : s.passEdges e = s := if_neg (Nat.not_lt.mpr h)

theorem twkTs2_counts {t : Nat} (h2 : fl.ts2Start = some t) (h : allAtLeast (bumpAt fl.ts2 8 lane) 8 8 = false) :
    s.twkTs2 n lane fl blk = Claims.twkLink s n { fl with ts2 := bumpAt fl.ts2 8 lane } := by
  simp [State.twkTs2, h2, h, Claims.twkLink]

theorem twkTs2_complete {t : Nat} (h2 : fl.ts2Start = some t) (h : allAtLeast (bumpAt fl.ts2 8 lane) 8 8 = true)
    (he : t + 33 ≤ s.clk.edges) : s.twkTs2 n lane fl blk =
      (Claims.twkLink s n { fl with ts2 := bumpAt fl.ts2 8 lane }).twkLinkUp n (bitsOf blk 32 16)
        { fl with ts2 := bumpAt fl.ts2 8 lane } := by
  have hpass : (Claims.twkLink s n { fl with ts2 := bumpAt fl.ts2 8 lane }).passTs2 t = _ := passEdges_past he
  rw [← hpass]
  simp [State.twkTs2, h2, h, Claims.twkLink]

end

/-! ### Timers and the going down -/

section

variable {s : State} {n : Nat}

theorem twkTrain_eq (s : State) (n : Nat) : s.twkTrain n = Claims.twkBegun s n := rfl

theorem twkLate_trains (ht : Claims.twkTrains s n) :
    s.twkLate n = (s.passEdges ((s.twk n).fl.trainStart + 10000000)).twkFail n := by
  obtain ⟨h1, h2, h3, h4⟩ := ht
  simp [State.twkLate, h1, h2, h3, h4]

theorem twkRestart_failed {e : Nat} (ht : (s.twk n).training = true) (hu : s.twkUse n = true)
    (hf : (s.twk n).fl.failedAt = some e) : s.twkRestart n = Claims.twkBegun (s.passEdges (e + 1000000)) n := by
  simp [State.twkRestart, ht, hu, hf, twkTrain_eq]

theorem twkAckRow_owed (hu : (s.twk n).up = true) (hd : (s.twk n).fl.discarding = false)
    (ho : (s.twk n).fl.owesAck = true) : s.twkAckRow n = (s.twkIdleOut n).twkFlow := by
  simp [State.twkAckRow, hu, hd, ho]

/-- The pending credits of the present time leave in one CREDIT frame (R29). -/
theorem twkCreditRow_due {d : Nat} (h : s.twkCreditAt n = some d) :
    s.twkCreditRow n = (((s.passUntil (d / 64)).setTwk n { (s.passUntil (d / 64)).twk n with
      owed := List.replicate 8 0,
      fl := Claims.offered ((s.passUntil (d / 64)).twk n).fl rankCredit (max d (s.passUntil (d / 64)).now64)
        (Claims.creditPayload ((s.passUntil (d / 64)).twk n)) }).twkFlow) := by
  unfold State.twkCreditRow
  rw [h]
  exact congrArg State.twkFlow (twkQueue_setTwk ..)

/-- The check of an EPOCH frame: an own boundary within 1 µs of the same epoch, or skew (R32). -/
theorem twkCheck_due {due : Nat} {i : BitVec 64} {e : BitVec 48} {rest : List (Nat × BitVec 64 × BitVec 48)} {u : State}
    (hc : (s.twk n).checks = (due, i, e) :: rest)
    (hu : u = (s.passEdges due).setTwk n { (s.passEdges due).twk n with checks := rest }) :
    s.twkCheck n = if u.clk.recent.any (fun p => Claims.within1us p.1 i && p.2 == e) = true then u
      else (u.setFld (twkOff n 4) 11 1 1).event 0 6 (twkOff n 4) 11 n 0 := by
  subst hu
  unfold State.twkCheck
  rw [hc]
  rfl

theorem twkDown_up {t u : State} (hup : (s.twk n).up = true)
    (ht : t = (s.bump (hostOff 0x80) 0 32 ((s.twk n).txBuf.foldl (fun k l => k + l.length) 0)).setFld (twkOff n 4) 10 1 1)
    (hu : u = t.setTwk n (Claims.twkDropped (s.twk n))) :
    s.twkDown n = (if s.twkUse n = true then Claims.twkBegun u n else u).event 1 6 (twkOff n 4) 10 n 0 := by
  subst ht hu
  unfold State.twkDown
  rw [if_neg (by simp [hup])]
  rfl

end

/-- Settles O16: by the row, and for the training rows by the lane's lock and the block. -/
theorem twikelLinks : Obligations.TwikelLinks := by
  intro n s
  refine ⟨?_, ?_, ?_, ?_, ?_, ?_, ?_, ?_, ?_⟩
  · rintro lane sync skew blk _ ht rfl hs
    have hrow : exec (.twikelTs1 n lane ⟨sync, skew⟩ blk) s =
      .next (s.twkBlock n.val lane.val sync skew blk.toNat false).finish := rfl
    rw [hrow, twkBlock_unlocked ht lane.isLt hs]
    exact ⟨fun hv => by rw [if_pos (syncOk_iff.mpr hv)], fun hv => by rw [if_neg (mt syncOk_iff.mp hv)]⟩
  · rintro lane sync skew blk _ ht hr rfl hok ho
    have hrow1 : exec (.twikelTs1 n lane ⟨sync, skew⟩ blk) s =
      .next (s.twkBlock n.val lane.val sync skew blk.toNat false).finish := rfl
    have hrow2 : exec (.twikelTs2 n lane ⟨sync, skew⟩ blk) s =
      .next (s.twkBlock n.val lane.val sync skew blk.toNat true).finish := rfl
    obtain ⟨-, -, hpow, -⟩ := id ht
    rw [hrow1, hrow2, twkBlock_reads ht lane.isLt hr, twkBlock_reads ht lane.isLt hr]
    refine ⟨fun hty hz => ?_, fun hty hz hver hwid t h2 => ?_, fun hty hz hbad => ?_⟩
    · rw [twkRead_good (ts2 := false) ⟨hok, hty, hz⟩ ho, if_pos rfl]
      refine ⟨fun h => by rw [twkTs1_counts h], ?_⟩
      rintro _ h h2 rfl
      rw [twkTs1_complete h h2]
      exact congrArg (fun u : State => Host.Outcome.next u.finish) (twkSendTrain_powered hpow)
    · rw [twkRead_good (ts2 := true) ⟨hok, hty, hz⟩ ho, if_neg (by decide), if_neg (by simp [hver, hwid])]
      exact ⟨fun h => by rw [twkTs2_counts h2 h], fun h he => by rw [twkTs2_complete h2 h he]⟩
    · rw [twkRead_good (ts2 := true) ⟨hok, hty, hz⟩ ho, if_neg (by decide), if_pos hbad]
  · intro lane sync skew blk ht hr hbad
    show Host.Outcome.next (s.twkBlock n.val lane.val sync skew blk.toNat false).finish = _
    rw [twkBlock_reads ht lane.isLt hr, twkRead_badTs1]
    · rfl
    · rintro ⟨hok, hty, hz⟩
      rcases hbad with h | h | h
      · rw [hok] at h; cases h
      · exact h hty
      · exact h hz
  · rintro _ ht rfl
    show Host.Outcome.next (s.twkLate n.val).finish = _
    rw [twkLate_trains ht]
    rfl
  · intro e ht hu hf
    show Host.Outcome.next (s.twkRestart n.val).finish = _
    rw [twkRestart_failed ht hu hf]
  · rintro due i e rest _ u hc rfl hu
    have hrow : exec (.epochCheck n) s = .next (s.twkCheck n.val).finish := rfl
    rw [hrow, twkCheck_due hc hu]
    exact ⟨fun h => by rw [if_pos h], fun h => by rw [if_neg (by simp [h])]⟩
  · rintro hu hd ho _ rfl
    show Host.Outcome.next (s.twkAckRow n.val).finish = _
    rw [twkAckRow_owed hu hd ho]
    rfl
  · rintro d _ hc rfl
    show Host.Outcome.next (s.twkCreditRow n.val).finish = _
    rw [twkCreditRow_due hc]
  · intro hup t u ht hu
    have hrow : exec (.twikelLinkDown n) s = .next (s.twkDown n.val).finish := rfl
    rw [hrow, twkDown_up hup ht hu]
    exact ⟨fun h => by rw [if_pos h], fun h => by rw [if_neg (by simp [h])]⟩

end Sys2Proof.Machine
end

section
/-! What a frame received on a Twikel link does (R27-R30, R32): one equation per verdict and frame type. -/

namespace Sys2Proof.Machine

section

variable {s : State} {n f : Nat}

/-- Nothing is received at a link that is not up. -/
theorem twkReceive_down (h : (s.twk n).up = false) : s.twkReceive n f = s := by simp [State.twkReceive, h]

/-- A frame with a bad CRC counts, and a link that discards does nothing more. -/
theorem twkReceive_badCrc (hu : (s.twk n).up = true) (hc : frameOk 64 f = false) (hd : (s.twk n).fl.discarding = true) :
    s.twkReceive n f = s.bump (twkOff n 8) 0 16 1 := by
  simp only [State.twkReceive, hu, hc]
  exact if_pos hd

/-- A good frame whose ack has been taken: a numbered one goes by its sequence number, RETRY and IDLE by their type. -/
theorem twkReceive_good (h : Claims.twkGood s n f) : s.twkReceive n f =
    if 1 ≤ frameType f ∧ frameType f ≤ 4 then
      if ((Claims.twkAcked s n f).twk n).fl.judge f = .inOrder then (Claims.twkInOrder s n f).twkAct n f
      else if ((Claims.twkAcked s n f).twk n).fl.judge f = .old then Claims.twkAcked s n f
      else (Claims.twkAcked s n f).twkReject n
    else if frameType f = 5 then
      Claims.twkLink (Claims.twkAcked s n f) n (((Claims.twkAcked s n f).twk n).fl.again s.now64 (frameBits f 4 0 8))
    else Claims.twkAcked s n f := by
  obtain ⟨hu, hc, hb⟩ := h
  have hacked : (s.setTwk n { s.twk n with fl := (s.twk n).fl.takeAck f }).twkFlow = Claims.twkAcked s n f := rfl
  unfold State.twkReceive
  dsimp only
  rw [if_neg (by simp [hu]), if_neg (by simp [hc]), hacked, hb]
  cases hj : ((Claims.twkAcked s n f).twk n).fl.judge f <;> simp [hj, Claims.twkLink, Claims.twkInOrder]

/-! ### Numbered frames taken in order -/

theorem twkAct_tokens (h : frameType f = 1) : s.twkAct n f =
    (s.setTwk n { s.twk n with rxBuf := Claims.twkBuffered (s.twk n) f }).twkFlow := by
  simp only [State.twkAct, h]
  rfl

theorem twkAct_credit (h : frameType f = 2) : s.twkAct n f =
    s.setTwk n { s.twk n with credits := Claims.twkCredits (s.twk n) f } := by
  simp only [State.twkAct, h]
  rfl

theorem twkAct_version (h : frameType f = 3) : s.twkAct n f =
    (s.setTwk n (Claims.twkPeer (s.twk n) f)).setCompat n (Claims.twkCompat s (s.twk n) f) := by
  simp only [State.twkAct, h]
  rfl

theorem twkAct_epoch (h : frameType f = 4) : s.twkAct n f =
    s.setTwk n (Claims.twkEpoch (s.twk n) f s.clk.edges) := by
  simp only [State.twkAct, h]
  rfl

end

/-- Settles O17: by the link, the CRC, the sequence verdict and the frame's type. -/
theorem twikelFrames : Obligations.TwikelFrames := by
  intro n s f
  refine ⟨fun hg => ⟨fun hj => ⟨fun ht => ?_, fun ht => ?_, fun ht => ?_, fun ht => ?_⟩, fun hj h1 h4 => ?_, fun ht => ?_,
    fun ht => ?_⟩, fun hu hc hd => ?_, fun hu => ?_⟩
  all_goals show Host.Outcome.next (s.twkReceive n.val f.toNat).finish = _
  · rw [twkReceive_good hg, if_pos (by omega), if_pos hj, twkAct_tokens ht]
  · rw [twkReceive_good hg, if_pos (by omega), if_pos hj, twkAct_credit ht]
  · rw [twkReceive_good hg, if_pos (by omega), if_pos hj, twkAct_version ht]
  · rw [twkReceive_good hg, if_pos (by omega), if_pos hj, twkAct_epoch ht]
  · rw [twkReceive_good hg, if_pos ⟨h1, h4⟩, if_neg (by simp [hj]), if_pos hj]
  · rw [twkReceive_good hg, if_neg (by omega), if_pos ht]
    rfl
  · rw [twkReceive_good hg, if_neg (by omega), if_neg (by omega)]
  · rw [twkReceive_badCrc hu hc hd]
  · rw [twkReceive_down hu]

end Sys2Proof.Machine
end

section
/-! FLUSH and the Drip timer (R200-R202): the write of `diag` that an accepted SQ_CTRL write makes also stops the timer of the
selected word queue (log entry 63), where the row of FLUSH says that `diag` alone changes. -/

namespace Sys2Proof.Machine

open Sys2Proof.Safety

/-- The register that FLUSH writes. -/
def sqCtrlLoc : Loc :=
  { row := ⟨.sqCtrl, 5, 0x8C, 0, 0, 1, [⟨0, 1, .rw, .locked, 0⟩, ⟨1, 1, .wo, .live, 0⟩], 0xFFFFFFFC⟩,
    inst := 0, idx := 0, off := sqOff 0x8C }

/-- No field of SQ_CTRL is stored: the queue that SQ_SEL names holds them. -/
theorem stored_sqCtrl (s : State) (v : Nat) : Claims.stored s sqCtrlLoc v = s := rfl

/-- An accepted FLUSH without bit 1 puts the selected word queue into or out of DIAG mode, its Drip timer included. -/
theorem exec_flush_diag {s : State} {v : BitVec 32} {c : Nat} (h : Claims.accepts s 0 (sqOff 0x8C) v.toNat sqCtrlLoc)
    (hc : siltClass s.sqSel = some c) (hb : bitOf v.toNat 1 = false) :
    exec (.flush v) s = .next (s.queueDiag s.sqSel c (bitOf v.toNat 0)).finish := by
  show Host.Outcome.next (s.busWrite 0 (sqOff 0x8C) v.toNat 15).finish = _
  rw [busWrite_accepted h v.isLt, stored_sqCtrl]
  show Host.Outcome.next (s.sqControl v.toNat true).finish = _
  simp [State.sqControl, hc, hb]

/-- A word queue that enters DIAG mode stops its Drip timer (R201). -/
theorem queueDiag_enters {s : State} {q cls : Nat} (h : (s.queue q).diag = false) :
    s.queueDiag q cls true = s.setQueue q { s.queue q with diag := true, drip := none, dripTaken := false } := by
  simp [State.queueDiag, h]

/-- A ready device in which word queue 0, which SQ_SEL names, holds a word and its Drip timer runs to edge 5. -/
def drippingQueue : State :=
  { State.reset with
    pcieUp := true, start := { Start.reset with state := 1 },
    queues := [(0, { Silt.empty with head := [{ w := PWord.zero, eop := true }], drip := some 5 })] }

theorem drippingQueue_accepts : Claims.accepts drippingQueue 0 (sqOff 0x8C) (1 : BitVec 32).toNat sqCtrlLoc := by
  refine ⟨⟨rfl, rfl, rfl⟩, ?_, rfl⟩
  rintro (h | h | h)
  · exact h rfl
  · cases h
  · cases h

theorem drippingQueue_setQueue_quiet (x : Silt) : Quiet (drippingQueue.setQueue 0 x) = true := rfl

theorem finish_drippingQueue_setQueue (x : Silt) : (drippingQueue.setQueue 0 x).finish = drippingQueue.setQueue 0 x :=
  State.finish_of_quiet (drippingQueue_setQueue_quiet x)

/-- Refutes O24: FLUSH with bit 0 alone stops a running Drip timer of the selected queue, which the row keeps running. -/
theorem not_registerRows : ¬ Obligations.RegisterRows := by
  intro h
  obtain ⟨-, ⟨-, hflush⟩, -⟩ := h drippingQueue 1 sqCtrlLoc
  have hclass : siltClass drippingQueue.sqSel = some 1 := rfl
  have hsel : drippingQueue.sqSel = 0 := rfl
  have hclaim := (hflush 1 drippingQueue_accepts hclass).1 rfl
  rw [exec_flush_diag drippingQueue_accepts hclass rfl, hsel] at hclaim
  have hmodel : drippingQueue.queueDiag 0 1 (bitOf (1 : BitVec 32).toNat 0) = _ := queueDiag_enters rfl
  rw [hmodel, Claims.diagSet, hsel, finish_drippingQueue_setQueue, finish_drippingQueue_setQueue] at hclaim
  have hdrip := congrArg (fun t => (t.queue 0).drip) (Host.Outcome.next.inj hclaim)
  simp only [queue_setQueue] at hdrip
  cases hdrip

end Sys2Proof.Machine
end

section
/-! BAR2 (R40, R341, R344): reads and writes of byte ranges, and of one aligned container. -/

namespace Sys2Proof.Machine

section

variable {s t : State} {off len : Nat} {w : PWord}

/-! ### Containers -/

/-- An aligned range of 8 bytes is one container. -/
theorem containers_aligned (h : off % 8 = 0) : containers off 8 = [0] := by simp [containers, h]

@[simp] theorem leBytes_length (n x : Nat) : (leBytes n x).length = n := by
  induction n generalizing x with
  | zero => rfl
  | succ n ih => simp [leBytes, ih]

theorem leBytes_zero (n : Nat) : leBytes n 0 = List.replicate n 0 := by
  induction n with
  | zero => rfl
  | succ n ih => simp [leBytes, ih, List.replicate_succ]

/-- All bytes of a byte string. -/
theorem slice_all (bs : List Byte) : slice bs 0 bs.length = bs := by simp [slice]

/-- The bytes of one container. -/
theorem slice_container (x : Nat) : slice [leBytes 8 x].flatten 0 8 = leBytes 8 x := by
  simpa using slice_all (leBytes 8 x)

/-! ### Reads -/

theorem bar2Read_outside (h : s.pcieUp = false ∨ bar2Size < off + len) : s.bar2Read off len = s :=
  if_pos (by rcases h with h | h <;> simp [h])

theorem bar2Read_notReady (hp : s.pcieUp = true) (hl : off + len ≤ bar2Size) (hr : s.ready = false) :
    s.bar2Read off len = s.emit (.bar2Data (List.replicate len 0) false) := by
  simp [State.bar2Read, hp, hr, Nat.not_lt.mpr hl]

theorem bar2Read_inBar2 (h : Claims.inBar2 s off len) : s.bar2Read off len =
    ((s.bar2Words off len).1.emit (.bar2Data
      (slice (((s.bar2Words off len).2.map (fun w => leBytes 8 w.v.toNat)).flatten) (off % 8) len)
      ((s.bar2Words off len).2.any (fun w => w.p)))).bmvGoOn := by
  obtain ⟨hp, hr, hl⟩ := h
  simp [State.bar2Read, hp, hr, Nat.not_lt.mpr hl]

/-- An aligned read of one container gives the word that the read of its address gives. -/
theorem bar2Read_aligned (h : Claims.inBar2 s off 8) (h8 : off % 8 = 0) (hw : s.bar2RdWord (s.bar2Word off) = (t, w)) :
    s.bar2Read off 8 = (t.emit (.bar2Data (leBytes 8 w.v.toNat) w.p)).bmvGoOn := by
  have hwords : s.bar2Words off 8 = (t, [w]) := by simp [State.bar2Words, containers_aligned h8, hw]
  rw [bar2Read_inBar2 h, hwords, h8]
  simp only [List.map_cons, List.map_nil, slice_container, List.any_cons, List.any_nil, Bool.or_false]

/-! ### Writes -/

theorem bar2Write_outside {data : List (Option Byte)} {ep : Bool}
    (h : s.pcieUp = false ∨ s.ready = false ∨ bar2Size < off + data.length) : s.bar2Write off data ep = s :=
  if_pos (by rcases h with h | h | h <;> simp [h])

section

variable {data : List (Option Byte)} (hd : data.length = 8)
include hd

/-- Bytes 0-4 of a container. -/
theorem take_five : data.take 5 = (List.range 5).map (lget none data) := by
  refine List.ext_getElem (by simp [hd]) fun i h1 h2 => ?_
  have hi : i < data.length := by simp at h2; omega
  simp [lget, hi]

/-- A test of each of bytes 0-4. -/
theorem take_five_all (p : Option Byte → Bool) : (data.take 5).all p = true ↔ ∀ i < 5, p (lget none data i) = true := by
  rw [take_five hd, List.all_map, List.all_eq_true]
  exact forall_congr' fun i => imp_congr List.mem_range Iff.rfl

theorem laneBytes_aligned (h8 : off % 8 = 0) : laneBytes off data 0 = data.take 5 := by
  rw [take_five hd]
  simp [laneBytes, h8]

theorem bar2Write_aligned {ep : Bool} (h : Claims.inBar2 s off 8) (h8 : off % 8 = 0) : s.bar2Write off data ep =
    (if ep then s.aer aerPoison else s).bar2WrLanes (s.bar2Word off) (data.take 5) ep := by
  obtain ⟨hp, hr, hl⟩ := h
  simp [State.bar2Write, hp, hr, hd, Nat.not_lt.mpr hl, containers_aligned h8, laneBytes_aligned hd h8]

end

/-! One container: every lane, no lane, or some (R344). -/

theorem bar2WrLanes_all {a : Nat} {ls : List (Option Byte)} {ep : Bool} (h : ls.all (fun b => b.isSome) = true) :
    s.bar2WrLanes a ls ep = s.bar2WrWord a (Claims.laneWord ls ep) := if_pos h

theorem bar2WrLanes_none {a : Nat} {ls : List (Option Byte)} {ep : Bool} (hs : ls.all (fun b => b.isSome) ≠ true)
    (hn : ls.all (fun b => b.isNone) = true) : s.bar2WrLanes a ls ep = s := (if_neg hs).trans (if_pos hn)

theorem bar2WrLanes_some {a : Nat} {ls : List (Option Byte)} {ep : Bool} (hs : ls.all (fun b => b.isSome) ≠ true)
    (hn : ls.all (fun b => b.isNone) ≠ true) : s.bar2WrLanes a ls ep = s.unreported 3 1 6 0 0 a :=
  (if_neg hs).trans (if_neg hn)

end

/-- Settles O27: by whether the range reaches the device, and for one container by the word and the enabled bytes. -/
theorem bar2Window : Obligations.Bar2Window := by
  intro s off
  refine ⟨fun len h => ?_, fun len hp hl hr => ?_, ?_, fun t w h h8 hr hw => ?_, fun h h8 hr => ?_, fun data ep h => ?_, ?_⟩
  · exact congrArg (fun u : State => Host.Outcome.next u.finish) (bar2Read_outside h)
  · exact congrArg (fun u : State => Host.Outcome.next u.finish) (bar2Read_notReady hp hl hr)
  · rintro len _ h rfl
    exact congrArg (fun u : State => Host.Outcome.next u.finish) (bar2Read_inBar2 h)
  · refine congrArg (fun u : State => Host.Outcome.next u.finish) (bar2Read_aligned h h8 ?_)
    rw [State.bar2RdWord, if_neg (by simp [hr]), hw]
  · refine (congrArg (fun u : State => Host.Outcome.next u.finish) (bar2Read_aligned h h8 (if_pos hr))).trans ?_
    rw [← leBytes_zero]
    rfl
  · exact congrArg (fun u : State => Host.Outcome.next u.finish) (bar2Write_outside h)
  · rintro data ep t h h8 hd rfl
    have hrow : exec (.bar2Write off data ep) s = .next (s.bar2Write off data ep).finish := rfl
    have hsome := take_five_all hd (fun b => b.isSome)
    have hnone := take_five_all hd (fun b => b.isNone)
    rw [hrow, bar2Write_aligned hd h h8]
    refine ⟨fun hall => ?_, fun ⟨i, hi, hbi⟩ ⟨j, hj, hbj⟩ => ?_, fun hall => ?_⟩
    · rw [bar2WrLanes_all (hsome.mpr hall)]
      exact ⟨fun hr => by rw [State.bar2WrWord, if_neg (by simp [hr])], fun hr => by rw [State.bar2WrWord, if_pos hr]⟩
    · rw [bar2WrLanes_some]
      · exact fun hc => absurd (hsome.mp hc j hj) (by simp [hbj])
      · exact fun hc => absurd (hnone.mp hc i hi) (by simp [Option.isSome_iff_ne_none.mp hbi])
    · rw [bar2WrLanes_none]
      · exact fun hc => absurd (hsome.mp hc 0 (by decide)) (by simp [hall 0 (by decide)])
      · exact hnone.mpr fun i hi => by simp [hall i hi]

end Sys2Proof.Machine
end

section
/-! What the storing rows leave of memory (R34, R106, R234, R235, R344): a row that ends in a quiet state changes no more words
than its own writes do, and no part of a read, of an acknowledgement or of the passing of time writes memory. -/

namespace Sys2Proof.Machine

open Sys2Proof.Safety

/-! ### Silent changes -/

/-- A change that keeps memory and what the end of a command looks at: the records raised, the graphs, the start, the sweep
and the EPOCH_IN instants. -/
structure Silent (s t : State) : Prop where
  mem : t.mem = s.mem
  raised : t.raised = s.raised
  graphs : t.graphs = s.graphs
  start : t.start = s.start
  sweep : t.sweep = s.sweep
  pins : t.clk.pins = s.clk.pins

theorem Silent.refl (s : State) : Silent s s := ⟨rfl, rfl, rfl, rfl, rfl, rfl⟩

theorem Silent.trans {s t u : State} (h : Silent s t) (k : Silent t u) : Silent s u :=
  ⟨k.mem.trans h.mem, k.raised.trans h.raised, k.graphs.trans h.graphs, k.start.trans h.start, k.sweep.trans h.sweep,
    k.pins.trans h.pins⟩

/-- A fold of silent changes is silent. -/
theorem Silent.foldl {α : Type} {f : State → α → State} (hf : ∀ t a, Silent t (f t a)) (l : List α) (s : State) :
    Silent s (l.foldl f s) := by
  induction l generalizing s with
  | nil => exact Silent.refl s
  | cons a l ih => exact (hf s a).trans (ih (f s a))

theorem Silent.quiet {s t : State} (h : Silent s t) (hq : Quiet s = true) : Quiet t = true :=
  (quiet_congr h.raised h.graphs h.start h.sweep h.pins).trans hq

theorem Silent.rd {s t : State} (h : Silent s t) (b : Nat) : t.rd b = s.rd b := by rw [State.rd, h.mem, State.rd]

theorem silent_emit (s : State) (o : Out) : Silent s (s.emit o) := ⟨rfl, rfl, rfl, rfl, rfl, rfl⟩
theorem silent_setReg (s : State) (off v : Nat) : Silent s (s.setReg off v) := ⟨rfl, rfl, rfl, rfl, rfl, rfl⟩
theorem silent_setDir (s : State) (d : Nat) (x : LinkDir) : Silent s (s.setDir d x) := ⟨rfl, rfl, rfl, rfl, rfl, rfl⟩
theorem silent_setPort (s : State) (p : Nat) (x : Port) : Silent s (s.setPort p x) := ⟨rfl, rfl, rfl, rfl, rfl, rfl⟩
theorem silent_setTwk (s : State) (n : Nat) (x : Twk) : Silent s (s.setTwk n x) := ⟨rfl, rfl, rfl, rfl, rfl, rfl⟩
theorem silent_setChan (s : State) (c : Nat) (x : Chan) : Silent s (s.setChan c x) := ⟨rfl, rfl, rfl, rfl, rfl, rfl⟩

theorem silent_updDie (s : State) (n : Nat) (f : Die → Die) : Silent s (s.updDie n f) := ⟨rfl, rfl, rfl, rfl, rfl, rfl⟩

/-- A row that ends in a silent change of a write stores that word alone. -/
theorem writesOnly_of_silent {i : Instr} {s t : State} {a : Nat} {w : PWord} (hq : Quiet s = true)
    (hx : exec i s = .next t.finish) (h : Silent (s.wr a w) t) : Claims.writesOnly i s a w := by
  refine ⟨t, ?_, ?_, fun b hb => ?_, fun hwf => ?_⟩
  · rw [hx, State.finish_of_quiet (h.quiet hq)]
  · rw [h.rd, rd_wr]
  · rw [h.rd, rd_wr_other _ _ hb]
  · rw [h.mem]; exact wf_wr hwf a w

/-- A row that ends in a silent change stores nothing. -/
theorem writesNothing_of_silent {i : Instr} {s t : State} (hq : Quiet s = true) (hx : exec i s = .next t.finish)
    (h : Silent s t) : Claims.writesNothing i s :=
  ⟨t, by rw [hx, State.finish_of_quiet (h.quiet hq)], h.rd⟩

/-! ### Time passes silently -/

theorem silent_edgesPass (s : State) (k : Nat) : Silent s (s.edgesPass k) := ⟨rfl, rfl, rfl, rfl, rfl, rfl⟩

theorem silent_portSend (s : State) (p until_ : Nat) : Silent s (s.portSend p until_) := by
  unfold State.portSend
  dsimp only
  split
  · exact Silent.refl s
  · exact (silent_setPort s p _).trans (Silent.foldl (fun t f => silent_emit t _) _ _)

theorem silent_twkSend (s : State) (n from_ until_ : Nat) : Silent s (s.twkSend n from_ until_) := by
  unfold State.twkSend
  dsimp only
  split
  · exact Silent.refl s
  · exact (silent_setTwk s n _).trans (Silent.foldl (fun t f => silent_emit t _) _ _)

theorem silent_transmit (s : State) (from_ until_ : Nat) : Silent s (s.transmit from_ until_) :=
  (Silent.foldl (fun t p => silent_portSend t p until_) _ s).trans
    (Silent.foldl (fun t n => silent_twkSend t n from_ until_) _ _)

theorem silent_advance (s : State) (k : Nat) : Silent s (s.advance k) := by
  unfold State.advance
  split
  · exact (silent_edgesPass s k).trans (silent_transmit _ _ _)
  · exact Silent.refl s

theorem silent_passUntil (s : State) (t : Nat) : Silent s (s.passUntil t) := by
  unfold State.passUntil
  split
  · exact silent_advance s _
  · exact Silent.refl s

theorem silent_pfpIdleOut (s : State) (p : Nat) : Silent s (s.pfpIdleOut p) :=
  (silent_setPort s p _).trans (silent_passUntil _ _)

/-! ### Links -/

theorem silent_creditBack (s : State) (d pool : Nat) : Silent s (Claims.creditBack s d pool) :=
  (silent_setDir s d _).trans (silent_setDir _ _ _)

theorem silent_d2dAck (s : State) (d : Nat) : Silent s (s.d2dAck d) := by
  unfold State.d2dAck
  dsimp only
  split
  · exact Silent.refl s
  · exact (silent_setDir s d _).trans (silent_setDir _ _ _)

/-! ### Host reads -/

/-- A read of a register other than SQ_DBG_POP_LO (R9, R201). -/
theorem silent_readReg (s : State) (fn : Nat) (l : Loc) (mask : Nat) (h : l.row.id ≠ .sqDbgPopLo) :
    Silent s (s.readReg fn l mask).1 := by
  by_cases hup : l.row.code ≠ 4 ∨ (s.die l.inst).up = true
  · by_cases hid : l.row.id = .lmMsOccHwm
    · have hr : (s.readReg fn l mask).1 = s.updDie l.inst (fun d => { d with hwm := d.occ }) := by
        simp [State.readReg, not_downed hup, hid]
      rw [hr]
      exact silent_updDie s _ _
    · cases hc : s.captured l with
      | none =>
        rw [readReg_clears hup hid h hc]
        exact Silent.foldl (fun t f => silent_setReg t _ _) _ s
      | some p =>
        rw [readReg_captures hup hid h hc]
        exact silent_setReg s _ _
  · rw [not_or, not_not, Bool.not_eq_true] at hup
    rw [readReg_downed hup.1 hup.2]
    exact Silent.refl s

theorem silent_busRead {s : State} {fn off : Nat} {l : Loc} (ht : busTarget fn off = .reg l) (h : l.row.id ≠ .sqDbgPopLo) :
    Silent s (s.busRead fn off).1 := by
  by_cases ha : s.answers (.reg l) = true
  · rw [busRead_reg ht ha]
    exact silent_readReg s fn l _ h
  · rw [busRead_zero (.inr (by rw [ht]; simpa using ha))]
    exact Silent.refl s

/-- A doubleword of a host read whose own read is silent. -/
theorem silent_hostRead {s : State} {sp : HostSpace} {fn off be : Nat} (h : Silent s (s.spaceRead sp fn off).1) :
    Silent s (s.hostRead sp fn off be) := by
  unfold State.hostRead
  split
  · exact h.trans (silent_emit _ _)
  · exact Silent.refl s

/-- Reads of BAR4 and of configuration space have no effect. -/
theorem spaceRead_state {s : State} {sp : HostSpace} {fn off : Nat} (h : sp ≠ .bar0) : (s.spaceRead sp fn off).1 = s := by
  cases sp with
  | bar0 => exact absurd rfl h
  | bar4 => rfl
  | cfg => rfl

/-! ### The Block Mover without bursts -/

theorem chan_bursts {s : State} (h : Claims.noBurst s) (ch : Nat) : (s.chan ch).bursts = [] := by
  unfold State.chan lget
  rw [List.getD_eq_getElem?_getD]
  cases he : s.chans[ch]? with
  | none => rfl
  | some x => exact h x (List.mem_of_getElem? he)

theorem bmvRun_noBurst {s : State} (h : Claims.noBurst s) (k ch : Nat) : State.bmvRun k s ch = s := by
  cases k with
  | zero => rfl
  | succ k => simp [State.bmvRun, State.bmvStep, chan_bursts h]

/-- Nothing goes on where no channel holds a burst. -/
theorem bmvGoOn_noBurst {s : State} (h : Claims.noBurst s) : s.bmvGoOn = s :=
  foldl_eq_self _ _ _ fun ch _ => bmvRun_noBurst h _ ch

theorem noBurst_congr {s t : State} (hc : t.chans = s.chans) (h : Claims.noBurst s) : Claims.noBurst t := by
  rw [Claims.noBurst, hc]
  exact h

theorem noBurst_issued {s : State} (h : Claims.noBurst s) (chan : Option Nat) (w : PWord) :
    Claims.noBurst (s.issued chan w) := by
  cases chan with
  | none => exact h
  | some ch =>
    have hb : (s.chan ch).bursts = [] := chan_bursts h ch
    have hs : ∀ (t : State) (y : Chan), t.chans = s.chans → y.bursts = [] → Claims.noBurst (t.setChan ch y) := by
      intro t y ht hy x hx
      have hx : x ∈ s.chans.set ch y := ht ▸ (show x ∈ t.chans.set ch y from hx)
      rcases List.mem_or_eq_of_mem_set hx with hx | rfl
      · exact h x hx
      · exact hy
    unfold State.issued State.chanWord
    dsimp only
    split
    · exact hs _ _ rfl hb
    · exact hs _ _ rfl hb

theorem silent_issued (s : State) (chan : Option Nat) (w : PWord) : Silent s (s.issued chan w) := by
  cases chan with
  | none => exact Silent.refl s
  | some ch =>
    unfold State.issued State.chanWord
    dsimp only
    split
    · exact (silent_setReg s _ _).trans (silent_setChan _ _ _)
    · exact silent_setChan _ _ _

/-! ### Words written -/

/-- A BAR2 write of a DDR word below the carve-out stores it at once (R36). -/
theorem bar2WrWord_ddr {s : State} {a x : Nat} {w : PWord} (hk : s.kindOf a = .ddr x) (hx : x < s.carve) :
    s.bar2WrWord a w = s.wr a w := by
  have hr : s.bar2WrRefused a = false := by simpa [State.bar2WrRefused, hk] using hx
  simp [State.bar2WrWord, hr, State.idleWr, hk, State.issued]

/-- A BAR2 read of a DDR word has no effect (R36). -/
theorem bar2RdWord_ddr {s : State} {a x : Nat} (hk : s.kindOf a = .ddr x) : s.bar2RdWord a = (s, s.rd a) := by
  simp [State.bar2RdWord, State.bar2RdRefused, hk, idleRd_ddr hk]

/-! ### Buffered and held writes -/

section

variable {s : State} {n k : Nat}

/-- The oldest entry of a PE's write buffer, with no older write to its word, drains to a bank that serves (R235). -/
theorem drainRow_oldest {pre rest : List WBuf} {e : WBuf} (hb : (s.die n).wbuf = pre ++ e :: rest) (he : e.pe = k)
    (hp : pre.all (fun x => x.pe != k) = true) (ha : pre.all (fun x => x.addr != e.addr) = true)
    (hs : s.bankState (frameBank n e.addr) = 0) :
    s.drainRow n k = (s.updDie n (fun d => { d with wbuf := pre ++ rest })).wr e.addr e.w := by
  have hpre : (s.die n).wbuf.takeWhile (fun b => b.pe != k) = pre := by
    rw [hb, List.takeWhile_append_of_pos (List.all_eq_true.mp hp)]
    simp [he]
  have hany : pre.any (fun x => x.addr == e.addr) = false := by simpa using ha
  have hserved : (s.updDie n (fun d => { d with wbuf := pre ++ rest })).bankState (frameBank n e.addr) = 0 := hs
  unfold State.drainRow
  dsimp only
  rw [hpre, hb, List.drop_left]
  simp only [hany, Bool.false_eq_true, if_false, State.drainWr, accessNow_served hserved]

/-- The one held write of a die lands when its bank serves and no PE's write to its word is buffered (R233, R234). -/
theorem landHeld_one {h : HeldWr} (hd : (s.die n).held = [h]) (hb : (s.die n).wbuf.all (fun b => b.addr != h.addr) = true)
    (hs : s.bankState (frameBank n h.addr) = 0) :
    s.landHeld n = ((s.updDie n (fun d => { d with held := [] })).wr h.addr h.w).issued h.chan h.w := by
  have hbuf : (s.die n).wbuf.any (fun b => b.addr == h.addr) = false := by simpa using hb
  have hsplit : heldSplit n (s.die n).wbuf (s.die n).held = ([h], []) := by
    rw [hd]
    simp only [heldSplit, List.foldl_cons, List.foldl_nil, hbuf, List.any_nil, Bool.or_false, Bool.false_eq_true, if_false,
      List.nil_append]
  have hserved : (s.updDie n (fun d => { d with held := [] })).bankState (frameBank n h.addr) = 0 := hs
  simp [State.landHeld, hsplit, State.landOne, accessNow_served hserved]

end

theorem exec_bar2Read (s : State) (off len : Nat) : exec (.bar2Read off len) s = .next (s.bar2Read off len).finish := rfl

/-- Settles O28: each row ends in a silent change, of the state with its word written or of the state itself. -/
theorem memoryFrames : Obligations.MemoryFrames := by
  intro s hq
  refine ⟨?_, ?_, ?_, ?_, ?_, ?_, ?_, ?_, ?_⟩
  · intro off x data h h8 hd hall hk hx
    refine writesOnly_of_silent hq (t := s.bar2Write off data false) rfl ?_
    rw [bar2Write_aligned hd h h8, if_neg Bool.false_ne_true, bar2WrLanes_all ((take_five_all hd _).mpr hall),
      bar2WrWord_ddr hk hx]
    exact Silent.refl _
  · intro d f x rest hty hf hc hb hd hk
    refine writesOnly_of_silent hq (t := s.d2dTake d.val ftWr none 0) rfl ?_
    rw [← hty, d2dTake_expected hf hc hb, flitIn_arrives (s := Claims.expected s d.val rest) hd (.inl ⟨hty, x, hk, rfl⟩)]
    exact (silent_setDir _ d.val _).trans (silent_creditBack _ d.val _)
  · intro n k pre rest e hbuf he hp ha hs
    refine writesOnly_of_silent hq (t := s.drainRow n.val k.val) rfl ?_
    rw [drainRow_oldest hbuf he hp ha hs]
    exact ⟨rfl, rfl, rfl, rfl, rfl, rfl⟩
  · intro n h hd hnb hb hs
    refine writesOnly_of_silent hq (t := (s.landHeld n.val).bmvGoOn) rfl ?_
    rw [landHeld_one hd hb hs, bmvGoOn_noBurst]
    · have hland : Silent (s.wr h.addr h.w) ((s.updDie n.val (fun d => { d with held := [] })).wr h.addr h.w) :=
        ⟨rfl, rfl, rfl, rfl, rfl, rfl⟩
      exact hland.trans (silent_issued _ _ _)
    · refine noBurst_issued (noBurst_congr ?_ hnb) _ _
      rfl
  · intro fn off be l ht hid
    exact writesNothing_of_silent hq (t := s.hostRead .bar0 fn.val off.toNat be.toNat) rfl
      (silent_hostRead (silent_busRead ht hid))
  · intro fn off be sp hi hsp
    refine writesNothing_of_silent hq (exec_registerRead_all s fn off be sp hi) (Silent.foldl (fun t p => ?_) _ s)
    refine silent_hostRead ?_
    rw [spaceRead_state hsp]
    exact Silent.refl t
  · intro off x h h8 hk hnb
    refine writesNothing_of_silent hq (exec_bar2Read s off 8) ?_
    rw [bar2Read_aligned h h8 (bar2RdWord_ddr hk), bmvGoOn_noBurst]
    · exact silent_emit _ _
    · exact noBurst_congr rfl hnb
  · intro d
    exact writesNothing_of_silent hq (t := s.d2dAck d.val) rfl (silent_d2dAck s d.val)
  · intro p hact hdis how
    have hrow : s.pfpAckRow p.val = s.pfpIdleOut p.val := by simp [State.pfpAckRow, hact, hdis, how]
    exact writesNothing_of_silent hq (t := s.pfpAckRow p.val) rfl (hrow ▸ silent_pfpIdleOut s p.val)

end Sys2Proof.Machine
end

section
/-! The step (R347, log entry 4), and the home die of a context (R47). -/

namespace Sys2Proof.Machine

/-! ### The step -/

/-- Two rows that leave the same state end alike. -/
theorem next_finish {t u : State} (h : t = u) :
    (.next t.finish : Host.Outcome State Fault Refusal) = .next u.finish := by rw [h]

theorem step_of_cons {s : State} {c : Instr} {rest : List Instr} (h : s.pending = c :: rest) :
    step s = exec c { s with pending := rest } := by
  unfold step; rw [h]

theorem step_of_nil {s : State} (h : s.pending = []) : step s = .next (s.advance 1).finish := by
  unfold step; rw [h]; rfl

/-- No time passes while CK_TB stands still. -/
theorem advance_stopped {s : State} (h : s.clk.run = false) (k : Nat) : s.advance k = s := by
  unfold State.advance; rw [if_neg (by simp [h])]

/-- Settles O44: by the command at the front of the queue, and by whether CK_TB runs where there is none. -/
theorem stepRuns : Obligations.StepRuns := by
  refine ⟨fun c rest s => step_of_cons rfl, fun s h => step_of_nil h, fun s h hrun => ?_, fun s nbits w => rfl⟩
  rw [step_of_nil h, advance_stopped hrun]

/-! ### The home die -/

/-- The Home Map index is the top byte of the 32-bit product. -/
theorem homeIndex_eq (cid : BitVec 24) :
    homeIndex cid.toNat = ((cid.setWidth 32 * 0x9E3B1F35#32).extractLsb' 24 8).toNat := by
  have h : (cid.setWidth 32 * 0x9E3B1F35#32).toNat = cid.toNat * 0x9E3B1F35 % 2 ^ 32 := by
    rw [BitVec.toNat_mul, BitVec.toNat_setWidth_of_le (by decide)]
    rfl
  rw [BitVec.extractLsb'_toNat, h, Nat.shiftRight_eq_div_pow, homeIndex]
  omega

theorem homeIndex_lt (cid : BitVec 24) : homeIndex cid.toNat < 256 := by
  rw [homeIndex_eq]
  exact BitVec.isLt _

/-- Settles O51: the home die is read from the Home Map at the index of the hash. -/
theorem homeDie : Obligations.HomeDie := by
  refine ⟨?_, fun s t h cid => h _ (homeIndex_lt cid)⟩
  rintro s cid h rfl
  rw [← homeIndex_eq]
  rfl

end Sys2Proof.Machine
end

section
/-! The integer results (R108-R112, R138): what the model computes is what the statements name. -/

namespace Sys2Proof.Machine

theorem fitsSigned_eq (x : Int) : fitsSigned x = decide (-2 ^ 35 ≤ x ∧ x < 2 ^ 35) := by
  simp [fitsSigned]

/-- A sum, difference or product that overflows 36 bits two's complement. -/
theorem not_fitsSigned (x : Int) : (!fitsSigned x) = (decide (2 ^ 35 ≤ x) || decide (x < -2 ^ 35)) := by
  rw [fitsSigned_eq, Bool.eq_iff_iff]
  simp
  omega

theorem foldl_b2n (p : Nat → Bool) (l : List Nat) (n : Nat) : l.foldl (fun n i => n + b2n (p i)) n = n + l.countP p := by
  induction l generalizing n with
  | nil => rfl
  | cons i l ih =>
    rw [List.foldl_cons, ih, List.countP_cons]
    cases p i with
    | false => simp [b2n]
    | true => simp [b2n]; omega

theorem intAdd_false (a b : Word) : intAdd a b false = Claims.intResult .add a b := by
  have ha := a.isLt
  have hb := b.isLt
  simp only [intAdd, Claims.intResult, b2n, ArithRes.mk.injEq, Flags.mk.injEq, BitVec.saddOverflow, not_fitsSigned, boolWord]
  refine ⟨BitVec.eq_of_toNat_eq (by simp), by simp, by simp, by simp⟩

theorem intSub_false (a b : Word) : intSub a b false = Claims.intResult .sub a b := by
  have ha := a.isLt
  have hb := b.isLt
  simp only [intSub, Claims.intResult, b2n, ArithRes.mk.injEq, Flags.mk.injEq, BitVec.ssubOverflow, not_fitsSigned, boolWord]
  refine ⟨BitVec.eq_of_toNat_eq (by simp; omega), by simp, by simp, by simp⟩

theorem intNeg_eq (a b : Word) : intNeg a = Claims.intResult .neg a b := by
  simp only [intNeg, Claims.intResult, ArithRes.mk.injEq, Flags.mk.injEq, true_and, and_true]
  exact ⟨(BitVec.zero_sub a).symm, (beq_eq_decide a _).symm⟩

theorem intMul_eq (a b : Word) : intMul a b = Claims.intResult .mul a b := by
  simp only [intMul, Claims.intResult, BitVec.smulOverflow, not_fitsSigned]

theorem intMulW_eq (a b : Word) : intMulW a b = Claims.intResult .mulw a b := by
  have h : a.signExtend 72 * b.signExtend 72 = BitVec.ofInt 72 (a.toInt * b.toInt) := (BitVec.ofInt_mul ..).symm
  simp only [intMulW, Claims.intResult, h, BitVec.extractLsb', Nat.shiftRight_eq_div_pow, Nat.pow_zero, Nat.div_one]

theorem intMulWU_eq (a b : Word) : intMulWU a b = Claims.intResult .mulwu a b := by
  have h : (a.setWidth 72 * b.setWidth 72).toNat = a.toNat * b.toNat := by
    have hp : a.toNat * b.toNat < 2 ^ 36 * 2 ^ 36 := Nat.mul_lt_mul'' a.isLt b.isLt
    rw [BitVec.toNat_mul, BitVec.toNat_setWidth_of_le (by decide), BitVec.toNat_setWidth_of_le (by decide)]
    exact Nat.mod_eq_of_lt hp
  simp only [intMulWU, Claims.intResult, h, BitVec.extractLsb', Nat.shiftRight_eq_div_pow, Nat.pow_zero, Nat.div_one]

theorem intMin_eq (a b : Word) : intMin a b = Claims.intResult .min a b := by
  simp [intMin, res1, Claims.intResult, BitVec.sle]

theorem intMax_eq (a b : Word) : intMax a b = Claims.intResult .max a b := by
  simp [intMax, res1, Claims.intResult, BitVec.sle]

theorem ceq_eq (a b : Word) : res1 (boolWord (a == b)) = Claims.intResult .ceq a b := by
  simp [res1, boolWord, Claims.intResult]

theorem cne_eq (a b : Word) : res1 (boolWord (a != b)) = Claims.intResult .cne a b := by
  by_cases h : a = b <;> simp [res1, boolWord, Claims.intResult, h]

theorem cltu_eq (a b : Word) : res1 (boolWord (decide (a.toNat < b.toNat))) = Claims.intResult .cltu a b := by
  simp [res1, boolWord, Claims.intResult, BitVec.lt_def]

theorem cleu_eq (a b : Word) : res1 (boolWord (decide (a.toNat ≤ b.toNat))) = Claims.intResult .cleu a b := by
  simp [res1, boolWord, Claims.intResult, BitVec.le_def]

/-- The number of ones counted bit by bit (R111). -/
theorem intPopc_eq (a b : Word) : intPopc a = Claims.intResult .popc a b := by
  simp only [intPopc, foldl_b2n, Nat.zero_add]
  rfl

/-- The bit length is the least power of two above the number. -/
theorem bitLenAux_le {f x : Nat} (h : x < 2 ^ f) (m : Nat) : bitLenAux f x ≤ m ↔ x < 2 ^ m := by
  induction f generalizing x m with
  | zero =>
    obtain rfl : x = 0 := by omega
    simp [bitLenAux]
  | succ f ih =>
    by_cases hx : x = 0
    · simp [bitLenAux, hx]
    · rw [bitLenAux, if_neg hx]
      cases m with
      | zero => simp; omega
      | succ m =>
        have := ih (x := x / 2) (by omega) m
        omega

/-- The zeros above the highest one of a number of bit length `l` below `2 ^ k`. -/
theorem findIdx_testBit {x k l : Nat} (hl : ∀ m, l ≤ m ↔ x < 2 ^ m) (h : x < 2 ^ k) :
    (List.range k).reverse.findIdx (fun i => x.testBit i) = k - l := by
  induction k with
  | zero => simp
  | succ k ih =>
    rw [List.range_succ, List.reverse_append, List.reverse_singleton, List.singleton_append, List.findIdx_cons]
    by_cases hk : x < 2 ^ k
    · have := (hl k).2 hk
      rw [Nat.testBit_lt_two_pow hk, ih hk, cond_false]
      omega
    · have := (hl k).not.2 hk
      have hbit : x.testBit k = true := by
        rw [Nat.testBit_eq_decide_div_mod_eq, decide_eq_true_eq, show x / 2 ^ k = 1 from
          Nat.div_eq_of_lt_le (by omega) (by omega)]
      rw [hbit, cond_true]
      omega

theorem bitLenAux_le_of_le {f k x : Nat} (hk : k ≤ f) (h : x < 2 ^ k) (m : Nat) : bitLenAux f x ≤ m ↔ x < 2 ^ m :=
  bitLenAux_le (Nat.lt_of_lt_of_le h (Nat.pow_le_pow_right Nat.two_pos hk)) m

theorem intClz_eq (a b : Word) : intClz a = Claims.intResult .clz a b := by
  have h := findIdx_testBit (bitLenAux_le_of_le (f := 400) (k := 36) (by decide) a.isLt) a.isLt
  simp only [intClz, res1, bitLen, ← h]
  rfl

/-! ### The bodies -/

theorem aluBody_congr {f g : Word → Word → Word → Word → ArithRes} (h : ∀ a b d w, f a b d w = g a b d w) :
    aluBody f = aluBody g := by
  rw [show f = g from funext fun a => funext fun b => funext fun d => funext fun w => h a b d w]

/-- The body of an integer opcode computes the statement's results (R108-R112, R138). -/
theorem bodyOf_integer {c : Instr} {n : Fin 6} {k : Fin 64} {op : FOp} (h : Claims.integer c = some (n, k, op)) (x : Bool) :
    bodyOf x op = aluBody (fun a b _ _ => Claims.intResult op a b) := by
  cases c <;> cases h
  case add => exact aluBody_congr fun a b _ _ => intAdd_false a b
  case sub => exact aluBody_congr fun a b _ _ => intSub_false a b
  case neg => exact aluBody_congr fun a b _ _ => intNeg_eq a b
  case mul => exact aluBody_congr fun a b _ _ => intMul_eq a b
  case mulw => exact aluBody_congr fun a b _ _ => intMulW_eq a b
  case mulwu => exact aluBody_congr fun a b _ _ => intMulWU_eq a b
  case div => exact aluBody_congr fun a b _ _ => intDiv_eq a b
  case divu => exact aluBody_congr fun a b _ _ => intDivU_eq a b
  case min => exact aluBody_congr fun a b _ _ => intMin_eq a b
  case max => exact aluBody_congr fun a b _ _ => intMax_eq a b
  case popc => exact aluBody_congr fun a b _ _ => intPopc_eq a b
  case clz => exact aluBody_congr fun a b _ _ => intClz_eq a b
  case ceq => exact aluBody_congr fun a b _ _ => ceq_eq a b
  case cne => exact aluBody_congr fun a b _ _ => cne_eq a b
  case cltu => exact aluBody_congr fun a b _ _ => cltu_eq a b
  case cleu => exact aluBody_congr fun a b _ _ => cleu_eq a b
  all_goals rfl

end Sys2Proof.Machine
end

section
/-! How a firing without an exception ends (R58): the row of its opcode, then steps 2 to 5. -/

namespace Sys2Proof.Machine

open Sys2Proof.Safety

/-! ### Rows -/

/-- The rows of the four families fire the opcode that the statements name, and none of them is FALLOC. -/
theorem exec_firing {c : Instr} {n : Fin 6} {k : Fin 64} {op : FOp}
    (h : Claims.integer c = some (n, k, op) ∨ Claims.routing c = some (n, k, op) ∨ Claims.floating c = some (n, k, op) ∨
      Claims.context c = some (n, k, op)) (s : State) :
    exec c s = .next (s.fireOp n.val k.val op).finish ∧ op ≠ .falloc := by
  rcases h with h | h | h | h <;> cases c <;> cases h <;> exact ⟨rfl, nofun⟩

/-! ### Steps 2 to 5 of a firing that raises no exception -/

theorem orG13_eq_raised (t : State) (f : Fire) (fl : Flags) : t.orG13 f fl = Claims.raised t f fl := rfl

theorem step3_eq (s : State) (f : Fire) (v : Vals) (o : FOut) (place : Option Place) :
    ((s.divide f v).writeOwn f o).writePlace f o place = Claims.step3 s f v o place := rfl

/-- A firing with an outcome, no trap and its D words written ends with its write-backs, flags and tokens (R58); the active
count and the counter of refused reservations belong to FALLOC and FFREE. -/
theorem finishFire_ended {s t : State} {f : Fire} {b : Body} {r : Rs} {v : Vals} {place : Option Place} {x : List PWord}
    {o : FOut} (ho : b.out (s.divide f v) f v x = .ok o) (ht : trapCause v.g13 (fireFlags f v o.fl) = none)
    (h3 : Claims.step3 s f v o place = .ok t) (hfr : o.freed = false) (hop : f.i.op ≠ .falloc) :
    s.finishFire f b r v place x = Claims.ended t f v o r.pins := by
  rw [← step3_eq] at h3
  unfold State.finishFire
  simp only [ho, ht, h3, hfr, hop, decide_false, Bool.false_and, Bool.false_eq_true, if_false, orG13_eq_raised]
  rfl

section

variable {s s1 : State} {n k lane : Nat} {it : Item} {op : FOp} {r : OpRow} {i : Insn} {v : Vals} {place : Option Place}
  {x : List PWord} {rs : Rs}

theorem begins_op (hb : Begins s s1 n k lane it op r i) : i.op = op := by
  obtain ⟨-, -, -, -, hop⟩ := hb
  exact hop

theorem begins_lane (hb : Begins s s1 n k lane it op r i) : lane < 8 := by
  obtain ⟨⟨hs, -⟩, -⟩ := hb
  exact select_lane hs

/-- The row of a single instruction whose step 1 ends runs steps 2 to 5 (R58). -/
theorem fireOp_finishFire (hb : Begins s s1 n k lane it op r i) (h1 : StepOne s1 (firing s1 n k lane it r i) v place x rs) :
    s.fireOp n k op = rs.s.finishFire (firing s1 n k lane it r i) (bodyOf i.x op) rs v place x := by
  have hop := begins_op hb
  rw [fireOp_attempt (begins_lane hb) hb, attempt_of_stepOne rfl rfl h1, ← hop]
  rfl

/-- The row of an opcode other than FALLOC completes with the outcome of its body. -/
theorem fireOp_ended {o : FOut} {t : State} (hb : Begins s s1 n k lane it op r i)
    (h1 : StepOne s1 (firing s1 n k lane it r i) v place x rs)
    (ho : (bodyOf i.x op).out (rs.s.divide (firing s1 n k lane it r i) v) (firing s1 n k lane it r i) v x = .ok o)
    (ht : trapCause v.g13 (fireFlags (firing s1 n k lane it r i) v o.fl) = none)
    (h3 : Claims.step3 rs.s (firing s1 n k lane it r i) v o place = .ok t) (hfr : o.freed = false) (hop : op ≠ .falloc) :
    s.fireOp n k op = Claims.ended t (firing s1 n k lane it r i) v o rs.pins := by
  rw [fireOp_finishFire hb h1]
  exact finishFire_ended ho ht h3 hfr (fun hc => hop ((begins_op hb).symm.trans hc))

end

/-- Settles O1: the body of each opcode computes the result of the statement, and a firing with an outcome ends. -/
theorem integerFirings : Obligations.IntegerFirings := by
  intro c n k op hc s s1 lane it r i v place x rs t hb h1 ht h3
  obtain ⟨hrow, hne⟩ := exec_firing (.inl hc) s
  rw [hrow]
  refine next_finish (fireOp_ended hb h1 ?_ ht h3 rfl hne)
  rw [bodyOf_integer hc]
  rfl

end Sys2Proof.Machine
end

section
/-! The floating-point and the carry and routing firings (R109, R112-R116, R136). -/

namespace Sys2Proof.Machine

open Sys2Proof.Safety

/-! ### Floating point -/

theorem bodyOf_floating {c : Instr} {n : Fin 6} {k : Fin 64} {op : FOp} (h : Claims.floating c = some (n, k, op)) (x : Bool) :
    bodyOf x op = aluBody (Claims.floatResult op x) := by
  cases c <;> cases h <;> rfl

/-- Settles O3: the body of each opcode is the operation of its format, in the rounding mode of G13. -/
theorem floatFirings : Obligations.FloatFirings := by
  intro c n k op hc s s1 lane it r i v place x rs o t hb h1 ho ht h3
  subst ho
  obtain ⟨hrow, hne⟩ := exec_firing (.inr (.inr (.inl hc))) s
  rw [hrow]
  refine next_finish (fireOp_ended hb h1 ?_ ht h3 rfl hne)
  rw [bodyOf_floating hc]
  rfl

/-! ### Carry and routing -/

/-- An addition with a carry-in (R109). -/
theorem intAdd_eq (a b : Word) (c : Bool) : intAdd a b c =
    { w0 := a + b + BitVec.ofNat 36 (b2n c), w1 := if 2 ^ 36 ≤ a.toNat + b.toNat + b2n c then 1 else 0,
      fl := { v := !decide (-2 ^ 35 ≤ a.toInt + b.toInt + (b2n c : Nat) ∧ a.toInt + b.toInt + (b2n c : Nat) < 2 ^ 35),
              c := decide (2 ^ 36 ≤ a.toNat + b.toNat + b2n c) } } := by
  simp only [intAdd, fitsSigned_eq, boolWord, decide_eq_true_eq, ge_iff_le, BitVec.ofNat_add, BitVec.ofNat_toNat,
    BitVec.setWidth_eq]

/-- A subtraction with a borrow-in (R109). -/
theorem intSub_eq (a b : Word) (c : Bool) : intSub a b c =
    { w0 := a - b - BitVec.ofNat 36 (b2n c), w1 := if a.toNat < b.toNat + b2n c then 1 else 0,
      fl := { v := !decide (-2 ^ 35 ≤ a.toInt - b.toInt - (b2n c : Nat) ∧ a.toInt - b.toInt - (b2n c : Nat) < 2 ^ 35),
              c := decide (a.toNat < b.toNat + b2n c) } } := by
  have hw : BitVec.ofNat 36 (a.toNat + 2 ^ 37 - b.toNat - b2n c) = a - b - BitVec.ofNat 36 (b2n c) := by
    have ha := a.isLt
    have hb := b.isLt
    apply BitVec.eq_of_toNat_eq
    cases c <;> simp [b2n, BitVec.toNat_sub] <;> omega
  simp only [intSub, fitsSigned_eq, boolWord, decide_eq_true_eq, gt_iff_lt, hw]

theorem carryIn_eq (d : Word) : b2n (bitOf d.toNat 0) = if d.getLsbD 0 then 1 else 0 := rfl

/-- ADC and SBC with a carry-in that is poisoned, 0 or 1 (R109, R136). -/
theorem out_carryBody {v : Vals} (h : (v.d.p || decide (v.d.v.toNat ≤ 1)) = true) (g : Word → Word → Bool → ArithRes)
    (s : State) (f : Fire) (y : List PWord) : (carryBody g).out s f v y =
      .ok (Claims.poisonedBy (v.a.p || v.b.p || v.d.p) (g v.a.v v.b.v (bitOf v.d.v.toNat 0))) := by
  have hd : (!v.d.p && decide (1 < v.d.v.toNat)) = false := by
    rw [Bool.or_eq_true, decide_eq_true_eq] at h
    rcases h with h | h
    · rw [h]; rfl
    · rw [decide_eq_false (by omega), Bool.and_false]
  simp only [carryBody, hd]
  rfl

/-- The outcome of a carry or routing opcode's body is the one that the statement names. -/
theorem out_routing {op : FOp} {v : Vals} {o : FOut} (h : Claims.routeOut op v.a v.b v.d = some o)
    (x : Bool) (s : State) (f : Fire) (y : List PWord) : (bodyOf x op).out s f v y = .ok o ∧ o.freed = false := by
  unfold Claims.routeOut at h
  dsimp only at h
  split at h
  case h_1 =>
    simp only [Option.ite_none_right_eq_some, Option.some.injEq] at h
    obtain ⟨hd, rfl⟩ := h
    rw [show bodyOf x .adc = carryBody intAdd from rfl, out_carryBody (by simpa using hd), intAdd_eq, carryIn_eq]
    exact ⟨rfl, rfl⟩
  case h_2 =>
    simp only [Option.ite_none_right_eq_some, Option.some.injEq] at h
    obtain ⟨hd, rfl⟩ := h
    rw [show bodyOf x .sbc = carryBody intSub from rfl, out_carryBody (by simpa using hd), intSub_eq, carryIn_eq]
    exact ⟨rfl, rfl⟩
  case h_3 =>
    simp only [Option.ite_none_right_eq_some, Option.some.injEq] at h
    obtain ⟨hb, rfl⟩ := h
    exact ⟨if_neg (Nat.not_lt.2 hb), rfl⟩
  case h_4 =>
    rw [show (bodyOf x .select).out s f v y = if v.d.p then .ok (FOut.words { v.b with p := true } PWord.zero)
      else if 1 < v.d.v.toNat then .error (6, 6) else .ok (FOut.words (if v.d.v = 1 then v.a else v.b) PWord.zero) from rfl]
    split at h
    case isTrue hp =>
      cases h
      exact ⟨if_pos hp, rfl⟩
    case isFalse hp =>
      rw [if_neg hp]
      split at h
      case isTrue h1 =>
        cases h
        exact ⟨by simp [h1], rfl⟩
      case isFalse h1 =>
        simp only [Option.ite_none_right_eq_some, Option.some.injEq] at h
        obtain ⟨h0, rfl⟩ := h
        exact ⟨by simp [h0], rfl⟩
  case h_5 =>
    cases h
    exact ⟨rfl, rfl⟩
  case h_6 => cases h

/-- Settles O2: the body of each opcode has the outcome of the statement. -/
theorem routeFirings : Obligations.RouteFirings := by
  intro c n k op hc s s1 lane it r i v place x rs o t hb h1 ho ht h3
  obtain ⟨hout, hfr⟩ := out_routing ho i.x (rs.s.divide (firing s1 n k lane it r i) v) (firing s1 n k lane it r i) x
  obtain ⟨hrow, hne⟩ := exec_firing (.inr (.inl hc)) s
  rw [hrow, fireOp_ended hb h1 hout ht h3 hfr hne]

end Sys2Proof.Machine
end

section
/-! The context, call, EMIT and BRK firings (R118-R121, R124, R130). -/

namespace Sys2Proof.Machine

open Sys2Proof.Safety

/-- The outcome of a context opcode's body is the one that the statement names. -/
theorem out_context {op : FOp} {s : State} {f : Fire} {v : Vals} {y : List PWord} {o : FOut}
    (h : Claims.contextOut op s f v y = some o) (x : Bool) : (bodyOf x op).out s f v y = .ok o ∧ o.freed = false := by
  unfold Claims.contextOut at h
  dsimp only at h
  split at h
  case h_1 =>
    cases h
    exact ⟨rfl, rfl⟩
  case h_2 =>
    simp only [Option.ite_none_right_eq_some, Option.some.injEq] at h
    obtain ⟨⟨h7, hc⟩, rfl⟩ := h
    exact ⟨if_neg (by simp; omega), rfl⟩
  case h_3 =>
    simp only [Option.ite_none_right_eq_some, Option.some.injEq] at h
    obtain ⟨⟨hp, hz⟩, rfl⟩ := h
    exact ⟨if_neg (by simp [hp, hz]), rfl⟩
  case h_4 =>
    obtain ⟨l, hl, rfl⟩ := Option.map_eq_some_iff.1 h
    refine ⟨?_, rfl⟩
    simp only [bodyOf, bodyRet, hl]
  case h_5 =>
    split at h
    case h_1 => cases h
    case h_2 e args he =>
      simp only [Option.ite_none_left_eq_some, Option.some.injEq, not_or] at h
      obtain ⟨⟨hc, hcdt⟩, rfl⟩ := h
      refine ⟨?_, rfl⟩
      have h14 : s.cdt (fieldOf v.a.v 0 24) + 14 < 8388608 := by omega
      have h15 : s.cdt (fieldOf v.a.v 0 24) + 15 < 8388608 := by omega
      simp only [bodyOf, bodyCall, he, if_neg hc, if_pos h14, if_pos h15, callLink]
      rfl
  case h_6 =>
    cases h
    exact ⟨rfl, rfl⟩
  case h_7 =>
    simp only [Option.ite_none_left_eq_some, Option.some.injEq] at h
    obtain ⟨hf, rfl⟩ := h
    exact ⟨if_neg hf, rfl⟩
  case h_8 => cases h

/-- A context opcode leaves the divider as it is. -/
theorem divide_context {c : Instr} {n : Fin 6} {k : Fin 64} (s : State) (f : Fire) (v : Vals)
    (h : Claims.context c = some (n, k, f.i.op)) : s.divide f v = s := by
  generalize hop : f.i.op = op at h
  cases c <;> cases h <;> simp only [State.divide, hop]

/-- Settles O4: the body of each opcode has the outcome of the statement. -/
theorem contextFirings : Obligations.ContextFirings := by
  intro c n k op hc s s1 lane it r i v place x rs o t hb h1 ho ht h3
  obtain ⟨hout, hfr⟩ := out_context ho i.x
  have hop := begins_op hb
  have hd := divide_context rs.s (firing s1 n k lane it r i) v (hop ▸ hc)
  obtain ⟨hrow, hne⟩ := exec_firing (.inr (.inr (.inr hc))) s
  rw [hrow, fireOp_ended hb h1 (hd.symm ▸ hout) ht h3 hfr hne]

end Sys2Proof.Machine
end

section
/-! The first request of a firing of a unit (R104, R122, R123, R125): where step 1 stops. -/

namespace Sys2Proof.Machine

open Sys2Proof.Safety

/-! ### The request of a unit and of the free list -/

/-- A unit is asked once: the request stands, and the firing waits for its answer. -/
theorem go_rdUnit {mk : Nat → UnitReq} {r : Rs} (h : r.old = []) :
    Rd.go (rdUnit mk) r = (.error (.wait (.unit r.s.nextUnit)),
      { r with s := { r.s with units := r.s.units ++ [mk r.s.nextUnit], nextUnit := r.s.nextUnit + 1 } }) := by
  unfold rdUnit
  rw [Rd.go_bind_ok (Rd.go_replay_nil h)]
  rfl

/-- The latch request, last of step 1 (R125). -/
theorem go_latchExtra {mk : Nat → Nat → Nat → BitVec 24 → BitVec 8 → BitVec 3 → UnitReq} {f : Fire} {v : Vals} {r : Rs}
    (h : r.old = []) (ha : v.a.v.toNat < 4096) :
    Rd.go (latchExtra mk f v) r = (.error (.wait (.unit r.s.nextUnit)), { r with s := { r.s with
      units := r.s.units ++ [mk f.n r.s.nextUnit v.a.v.toNat f.it.cid f.it.graph
        (BitVec.ofNat 3 (r.s.currentClass f.n f.cid))], nextUnit := r.s.nextUnit + 1 } }) := by
  unfold latchExtra
  rw [if_neg (Nat.not_le.2 ha), Rd.go_bind_ok (Rd.go_state r), Rd.go_bind_error (go_rdUnit h)]

theorem kindOf_scratchWord (s : State) {off : Nat} (h : off < 0x400000) : s.kindOf (scratchWord off) = .scratch off := by
  unfold State.kindOf packageKind scratchWord
  rw [if_neg (by omega), if_neg (by omega), if_pos (by omega)]
  rw [show 0x810000000 + off - 2 ^ 35 - 0x10000000 = off by omega]

theorem go_checkAddr_ok {f : Fire} {a : Nat} {write : Bool} {r : Rs} (h : r.s.addrFault a write = none) :
    Rd.go (checkAddr f a write) r = (.ok (), r) := by
  unfold checkAddr
  rw [Rd.go_bind_ok (Rd.go_state r), h]
  rfl

/-- A read by Bedrock (R36): the request leaves, and the firing waits for its answer. -/
theorem go_rdRemote_bedrock {n a : Nat} {r : Rs} (h : r.old = []) :
    Rd.go (rdRemote n 6 a) r = (.error (.wait (.mem (r.s.die n).freeTxn)),
      { r with s := r.s.sendFlit n (memFlit ftRdReq 6 n a (r.s.die n).freeTxn.toNat PWord.zero false) }) := by
  unfold rdRemote
  rw [Rd.go_bind_ok (Rd.go_replay_nil h)]
  rfl

/-- A word of Global Scratch is read by Bedrock. -/
theorem go_rdWord_scratch {f : Fire} {off : Nat} {r : Rs} (h : r.old = []) (ho : off < 0x400000) :
    Rd.go (rdWord f (scratchWord off)) r = (.error (.wait (.mem (r.s.die f.n).freeTxn)),
      { r with s := r.s.sendFlit f.n (memFlit ftRdReq 6 f.n (scratchWord off) (r.s.die f.n).freeTxn.toNat PWord.zero false) }) := by
  have hk := kindOf_scratchWord r.s ho
  have hf : r.s.addrFault (scratchWord off) false = none := by simp [State.addrFault, hk]
  unfold rdWord
  rw [Rd.go_bind_ok (go_checkAddr_ok hf), Rd.go_bind_ok (Rd.go_state r), hk]
  exact go_rdRemote_bedrock h

theorem freelist_lt (s : State) (n : Nat) : s.freelist n < 0x400000 := bitsOf_lt ..

/-- Word 0 of the free list is asked of Bedrock (R122, R123). -/
theorem go_rdListWord_zero {f : Fire} {r : Rs} (h : r.old = []) :
    Rd.go (rdListWord f 0) r = (.error (.wait (.mem (r.s.die f.n).freeTxn)), { r with s := Claims.listRequest r.s f.n }) := by
  unfold rdListWord
  rw [Rd.go_bind_ok (Rd.go_state r), Nat.add_zero, Rd.go_bind_error (go_rdWord_scratch h (freelist_lt ..))]
  rfl

/-! ### Step 1 stops at the request -/

/-- An attempt whose step 1 waits joins the firings that wait. -/
theorem attempt_of_wait {s1 : State} {g : Firing} {f : Fire} {w : Wait} {rs : Rs} (hg : g.got = []) (hi : g.item = f.it)
    (h : Rd.go (stepOne f (bodyOf f.i.x f.i.op)) (Rs.start s1 [] (tokenVals f.it)) = (.error (.wait w), rs)) :
    s1.attempt g f = rs.s.hold f.n { g with got := rs.got, wait := w } := by
  unfold Rd.go at h
  simp only [State.attempt, hg, hi, h]

section

variable {s s1 : State} {n k lane : Nat} {it : Item} {op : FOp} {r : OpRow} {i : Insn} {a b : PWord}

/-- The row of an opcode whose further reads stop at a request: the firing waits, with the G13 that it has read. -/
theorem fireOp_waiting {w : Wait} {t : State} (hb : Begins s s1 n k lane it op r i) (hg : G13Ready s1 (firing s1 n k lane it r i))
    (hd : DirectOperands s1 (firing s1 n k lane it r i) a b) (ha : a.p = false) (hbp : b.p = false)
    (hx : ∀ (v : Vals) (q : Rs), v.a = a → q.old = [] → q.s = s1 →
      Rd.go ((bodyOf i.x op).extra (firing s1 n k lane it r i) v) q = (.error (.wait w), { q with s := t })) :
    s.fireOp n k op = Claims.waiting t s1 n k lane it (firing s1 n k lane it r i) w := by
  have hop := begins_op hb
  obtain ⟨vals, h1⟩ := go_stepOne_direct (b := bodyOf i.x op) (vals := tokenVals it) hg hd ha hbp
  rw [hx _ _ rfl rfl rfl] at h1
  subst hop
  rw [fireOp_attempt (begins_lane hb) hb, attempt_of_wait rfl rfl h1]
  rfl

end

/-- Settles O5: the further reads of each of the four opcodes begin with a request. -/
theorem requestFirings : Obligations.RequestFirings := by
  intro n k s s1 lane it op r i a b hb hg hd ha hbp
  refine ⟨?_, ?_, ?_, ?_⟩
  · rintro rfl hlt
    refine next_finish (fireOp_waiting (op := .ltbAcq) hb hg hd ha hbp fun v q hv ho hq => ?_)
    subst hv hq
    exact go_latchExtra (mk := fun n id l c g k => .acquire n id l c g k) ho hlt
  · rintro rfl hlt
    refine next_finish (fireOp_waiting (op := .ltbRel) hb hg hd ha hbp fun v q hv ho hq => ?_)
    subst hv hq
    exact go_latchExtra (mk := fun n id l _ _ _ => .release n id l) ho hlt
  · rintro rfl
    refine next_finish (fireOp_waiting (op := .falloc) hb hg hd ha hbp fun v q hv ho hq => ?_)
    subst hq
    exact Rd.go_bind_error (go_rdListWord_zero ho)
  · rintro rfl
    refine next_finish (fireOp_waiting (op := .ffree) hb hg hd ha hbp fun v q hv ho hq => ?_)
    subst hq
    exact Rd.go_bind_error (go_rdListWord_zero ho)

end Sys2Proof.Machine
end

section
/-! Exceptions that end a firing before step 1 (R57, R65-R67, R107), and discarded items (R218). -/

namespace Sys2Proof.Machine

open Sys2Proof.Safety

/-! ### The exception of a firing -/

/-- The tokens of an exception keep the context, the colour and the lane of the firing (R65). -/
theorem mkToken_exc (u : State) (it : Item) (lane ip port : Nat) (w : PWord) :
    u.mkToken it.cid.toNat ip it.colour.toNat port lane w = Claims.excToken u.ownPkg lane it (ip, port, w) := by
  simp only [State.mkToken, Claims.excToken, BitVec.ofNat_toNat, BitVec.setWidth_eq]

/-- An exception in the colour of its item (R65-R67). -/
theorem excepted_raiseExc (s : State) (n lane : Nat) (it : Item) (ip opcode cls cause : Nat) (a b d : PWord) :
    Claims.excepted s n lane it ip opcode cls cause a b d
      (s.raiseExc n it lane ip opcode it.colour.toNat [a, b, d] cls cause) := by
  have hcond : ((Claims.handler s it = 0 || Claims.handler s it == 0xFFFFF || ip == Claims.handler s it ||
      ip == Claims.handler s it + 1) = true) ↔ Claims.noHandler s it ip := by
    simp [Claims.noHandler, or_assoc]
  refine ⟨fun h => if_pos (hcond.2 h), fun h => ?_⟩
  refine (if_neg fun hc => h (hcond.1 hc)).trans ?_
  simp only [mkToken_exc]
  rfl

/-! ### The rows -/

section

variable {s : State} {n k lane : Nat} {it : Item}

/-- A selected item that satisfies a row's test leaves its lane, and its firing begins (R185, R187). -/
theorem fireWhen_picks {want : State → Item → Bool} (go : State → Nat → Item → State) (hp : Picks s n k lane it)
    (hw : want s it = true) :
    s.fireWhen n k want go = go (((s.popHead n k lane).noteBad n k lane it).beginOn n k it) lane it := by
  obtain ⟨hs, hb, hd⟩ := hp
  unfold State.fireWhen
  simp only [hs, hb, hd, hw, Bool.false_eq_true, if_false, Bool.not_false, Bool.and_self, if_true]

theorem readSlot_undefined {x : Slot} (hp : x.parityOk = true) (ho : opRowOf (bitsOf x.bits 63 9) = none) :
    readSlot x = .bad 1 := by
  simp only [readSlot, hp, ho, Bool.not_true, Bool.false_eq_true, if_false]

/-- The decode of an undefined opcode: cause 1, or 0 where an entry of its list reads with bad parity (R96, R107). -/
theorem decodeOne_undefined (hp : (s.slot n it.ip.toNat).parityOk = true) (ho : opRowOf (s.opAt n it.ip.toNat) = none) :
    s.decodeOne n it = .fault (if s.rawListBad n (s.graph it.graph.toNat) it.ip.toNat then 0 else 1) it.ip.toNat := by
  simp only [State.decodeOne, readSlot_undefined hp ho]

/-- A single instruction that its decode refuses raises the exception of class 0 with its token operands (R96). -/
theorem beginSingle_fault {cause ip : Nat}
    (h : (begun s n k lane it).decodeOne n it = .fault cause ip) :
    State.beginSingle n k (((s.popHead n k lane).noteBad n k lane it).beginOn n k it) lane it =
      (begun s n k lane it).raiseExc n it lane ip ((begun s n k lane it).opAt n ip) it.colour.toNat (tokenVals it) 0 cause := by
  unfold begun at h ⊢
  unfold State.beginSingle
  simp only [h]

/-- An item of a graph that discards its items leaves its lane and is counted (R218). -/
theorem fireDiscard_selected (hs : s.select n k = some (lane, it)) (hb : it.broken = false) (hd : s.discards it = true) :
    s.fireDiscard n k = ((s.popHead n k lane).noteBad n k lane it).bump (tmpOff 0x30) 0 32 1 := by
  simp only [State.fireDiscard, hs, hb, hd, Bool.false_eq_true, if_false, if_true]

end

/-- Settles O7: both rows raise the exception of the item in the state in which its firing begins. -/
theorem exceptions : Obligations.Exceptions := by
  intro n k s lane it
  refine ⟨fun s1 hp hkind h1 => ?_, fun s1 hp hkind h1 ho ho1 hpar => ?_, fun hs hb hd => ?_⟩
  · refine ⟨_, next_finish (fireWhen_picks _ hp (by rw [hkind]; rfl)), ?_⟩
    subst h1
    exact excepted_raiseExc ..
  · subst h1
    rw [Option.isNone_iff_eq_none] at ho ho1
    refine ⟨_, next_finish ((fireWhen_picks _ hp (by rw [hkind, ho]; rfl)).trans
      (beginSingle_fault (decodeOne_undefined hpar ho1))), ?_⟩
    exact excepted_raiseExc ..
  · exact next_finish (fireDiscard_selected hs hb hd)

end Sys2Proof.Machine
end

section
/-! An arrival at a set without a chain (R164-R166, R171, R174): what the slice does once it has looked the instruction up, and
the outcome in each case of the table. -/

namespace Sys2Proof.Machine

/-! ### Entries -/

/-- The parity of an entry is over its other parts. -/
theorem parity_setPar (e : MsEntry) (p : BitVec 5) : ({ e with par := p } : MsEntry).parity = e.parity := by
  cases e
  simp only [MsEntry.parity]

theorem sealed_setPar (e : MsEntry) (p : BitVec 5) : ({ e with par := p } : MsEntry).sealed = e.sealed := by
  simp only [MsEntry.sealed, parity_setPar]

theorem sealed_sealed (e : MsEntry) : e.sealed.sealed = e.sealed := sealed_setPar e e.parity

theorem sealed_plainEntry (t : Token) : (plainEntry t).sealed = plainEntry t := sealed_sealed _

theorem sealed_firstFold (t : Token) (sp : Spec) (count : Nat) : (firstFold t sp count).sealed = firstFold t sp count :=
  sealed_sealed _

theorem sealed_fold (e : MsEntry) (x : PWord) : (e.fold x).sealed = e.fold x := sealed_sealed _

theorem putEnt_inSet {x : Ent} (h : x.inSet = true) (s : State) (n set : Nat) (e : MsEntry) :
    s.putEnt n set x e = s.putWay n set x.idx e.sealed := by
  unfold State.putEnt; rw [if_pos h]

theorem dropEnt_inSet {x : Ent} (h : x.inSet = true) (s : State) (n set : Nat) :
    s.dropEnt n set x = s.putWay n set x.idx MsEntry.empty := by
  unfold State.dropEnt; rw [if_pos h]

/-- An insert takes the lowest free way (R166). -/
theorem insert_of_free {s : State} {n set i : Nat} (h : (s.mset n set).ways.findIdx? (fun w => !w.valid) = some i) (e : MsEntry) :
    s.insert n set e = some (s.putWay n set i e.sealed) := by
  unfold State.insert; simp only [h]

/-! ### The slice before it decides -/

section

variable {s s1 : State} {n : Nat} {t : Token} {v : View}

/-- The slice sees the instruction as the statement says. -/
theorem sliceLook_of_looked {ip : Nat} (hb : s.bankState (isBank n ip) = 0) (h : Claims.looked s n ip s1 v) :
    s.sliceLook n ip = (s1, v) := by
  unfold State.sliceLook
  rcases h with ⟨hf, rfl⟩ | ⟨hf, rfl, rfl⟩
  · have hsome : (tfind (s1.die n).dcache (ip % 4096)).filter (fun p => p.1 == ip) = some (ip, v) := by simp [hf]
    simp only [hsome]
  · have hnone : (tfind (s.die n).dcache (ip % 4096)).filter (fun p => p.1 == ip) = none := by
      cases hp : tfind (s.die n).dcache (ip % 4096) with
      | none => rfl
      | some p => simp [hf p hp]
    simp only [hnone, accessNow_served hb]

/-- Looking the instruction up leaves every part of the state but the dies. -/
theorem looked_keeps {α : Type} (part : State → α) (hpart : ∀ (u : State) (f : Die → Die), part (u.updDie n f) = part u) {ip : Nat}
    (h : Claims.looked s n ip s1 v) : part s1 = part s := by
  rcases h with ⟨-, rfl⟩ | ⟨-, -, rfl⟩
  · rfl
  · split
    · rfl
    · exact hpart _ _

theorem looked_setOf {ip : Nat} (h : Claims.looked s n ip s1 v) : s1.setOf n t = s.setOf n t :=
  looked_keeps (fun u => u.setOf n t) (fun _ _ => rfl) h

theorem looked_mset {ip set : Nat} (h : Claims.looked s n ip s1 v) : s1.mset n set = s.mset n set :=
  looked_keeps (fun u => u.mset n set) (fun _ _ => rfl) h

/-- An arrival at a set that is ready: the outcome over the entries of the set's ways, in a walk slot where it inserts into a
full set (R164, R174). -/
theorem matchToken_ready (hr : Claims.sliceReady s n t) (hl : Claims.looked s n t.ip.toNat s1 v) :
    s.matchToken n t none =
      if ((outcome v t (Claims.partners s1 n t)).isInsert && (s1.mset n (s1.setOf n t)).ways.all (fun w => w.valid)) = true then
        (s1.die n).freeSlot.map (fun k => s1.updDie n (fun d => { d with walks := d.walks ++
          [{ slot := k, set := s1.setOf n t, tok := t, acc := none, held := false }] }))
      else s1.applyOutcome n (s1.setOf n t) t (Claims.partners s1 n t) (outcome v t (Claims.partners s1 n t)) := by
  obtain ⟨-, -, hms, his, hclean, hovf⟩ := hr
  have hset : setIndex (s.seed n) t.cid.toNat t.ip.toNat t.colour.toNat = s1.setOf n t := (looked_setOf hl).symm
  rw [← looked_setOf hl] at hms hclean hovf
  rw [← looked_mset hl] at hovf
  have htag : ∀ w ∈ (s1.mset n (s1.setOf n t)).ways, w.valid = true → w.badCid = false ∧ w.badTag = false := by
    rw [looked_mset hl]
    intro w hw hv
    obtain ⟨hcid, htag, -⟩ := hclean w hw hv
    exact ⟨hcid, htag⟩
  have hval : ∀ w ∈ (s1.mset n (s1.setOf n t)).ways, w.valid = true → w.badVal = false := by
    rw [looked_mset hl]
    intro w hw hv
    obtain ⟨-, -, hval⟩ := hclean w hw hv
    exact hval
  unfold State.matchToken
  simp only [hset, accessNow_served hms, sliceLook_of_looked his hl,
    scrubSet_clean htag, scrubVals_clean hval, decideOp, State.takesWalk, hovf, Bool.false_eq_true, if_false]
  rfl

end

/-! ### The row -/

section

variable {n : Fin 6} {s s0 s1 : State} {t : Token} {rest : List Token} {v : View}
  (ha : (s.die n.val).arr = t :: rest) (h0 : s0 = Claims.tokenTaken s n.val rest) (hr : Claims.sliceReady s0 n.val t)

include ha h0 hr

/-- The row of a token at the front whose set no operation holds. -/
theorem localRow_of_matchToken {E : State} (h : s0.matchToken n.val t none = some E) : Claims.localRow n s E := by
  obtain ⟨hw, hq, -⟩ := hr
  have hfree : ((s0.die n.val).walks.any (fun w => w.set == s0.setOf n.val t) ||
      (s0.die n.val).waitq.any (fun u => s0.setOf n.val u == s0.setOf n.val t)) = false := by
    rw [Bool.or_eq_false_iff, List.any_eq_false, List.any_eq_false]
    simp only [List.all_eq_true, bne_iff_ne] at hw hq
    exact ⟨fun w hm => by simpa using hw w hm, fun u hm => by simpa using hq u hm⟩
  have hrow : s.localToken n.val = E := by
    unfold State.localToken
    rw [ha]
    show (Claims.tokenTaken s n.val rest).arrive n.val t = E
    rw [← h0]
    unfold State.arrive
    simp only [hfree, Bool.false_eq_true, if_false, h, Option.getD_some]
  show Host.Outcome.next (s.localToken n.val).finish = _
  rw [hrow]

variable (hl : Claims.looked s0 n.val t.ip.toNat s1 v)

include hl

/-- The outcome over the set alone takes effect. -/
theorem localRow_of_outcome {E : State} {o : Outcome} (ho : outcome v t (Claims.partners s1 n.val t) = o)
    (hf : o.isInsert = false ∨ (s1.mset n.val (s1.setOf n.val t)).ways.all (fun w => w.valid) = false)
    (hE : s1.applyOutcome n.val (s1.setOf n.val t) t (Claims.partners s1 n.val t) o = some E) : Claims.localRow n s E := by
  refine localRow_of_matchToken ha h0 hr ?_
  rw [matchToken_ready hr hl, ho, if_neg ?_, hE]
  rcases hf with hf | hf <;> simp [hf]

/-- An insert at a set with a free way fills it (R166). -/
theorem localRow_of_insert {e : MsEntry} {i : Nat}
    (ho : outcome v t (Claims.partners s1 n.val t) = .insert e)
    (hi : (s1.mset n.val (s1.setOf n.val t)).ways.findIdx? (fun w => !w.valid) = some i) :
    Claims.localRow n s (s1.putWay n.val (s1.setOf n.val t) i e.sealed) := by
  refine localRow_of_outcome ha h0 hr hl ho (.inr ?_) (insert_of_free hi e)
  rw [Bool.eq_false_iff]
  intro hall
  rw [List.findIdx?_eq_none_iff.2 fun w hw => by rw [List.all_eq_true.1 hall w hw]; rfl] at hi
  cases hi

/-- An insert at a full set without a chain takes a free walk slot (R174). -/
theorem localRow_of_full {e : MsEntry} {k : Nat}
    (ho : outcome v t (Claims.partners s1 n.val t) = .insert e)
    (hw : (s1.mset n.val (s1.setOf n.val t)).ways.all (fun w => w.valid) = true) (hk : (s1.die n.val).freeSlot = some k) :
    Claims.localRow n s (s1.updDie n.val (fun d => { d with walks := d.walks ++
      [{ slot := k, set := s1.setOf n.val t, tok := t, acc := none, held := false }] })) := by
  refine localRow_of_matchToken ha h0 hr ?_
  rw [matchToken_ready hr hl, ho, if_pos (by rw [hw]; rfl), hk]
  rfl

end

/-! ### The outcomes (R164) -/

section

variable {v : View} {t : Token} {es : List Ent}

/-- No TOKA port is the token's. -/
theorem notToka_iff : v.toka.all (fun q => q.1 != t.port.toNat) = true ↔ v.toka.any (fun q => q.1 == t.port.toNat) = false := by
  cases v.toka <;> simp

theorem outcome_once (h : v.now = true ∨ (t.port.toNat ∉ v.need ∧ v.toka.all (fun q => q.1 != t.port.toNat) = true)) :
    outcome v t es = .once := by
  unfold outcome
  refine if_pos ?_
  rcases h with h | ⟨h, hk⟩
  · simp [h]
  · simp [h, notToka_iff.1 hk]

/-- The port waits already (R57). -/
theorem outcome_dup {x : Ent} (hn : v.now = false) (hp : t.port.toNat ∈ v.need)
    (hk : v.toka.all (fun q => q.1 != t.port.toNat) = true)
    (hx : (es.filter (fun x => !x.e.acc)).find? (fun x => x.e.port == t.port.toNat) = some x) :
    outcome v t es = .dup x.e.val := by
  have hc : v.need.contains t.port.toNat = true := List.contains_iff_mem.2 hp
  simp only [outcome, hn, hc, notToka_iff.1 hk, hx, Bool.not_true, Bool.not_false, Bool.false_and, Bool.or_self,
    Bool.false_eq_true, if_false, if_true]

/-- Every needed port has its value, and the instruction accumulates nothing. -/
theorem outcome_enable (hn : v.now = false) (hp : t.port.toNat ∈ v.need) (hk : v.toka = none)
    (hacc : es.any (fun x => x.e.acc) = false)
    (hx : (es.filter (fun x => !x.e.acc)).find? (fun x => x.e.port == t.port.toNat) = none)
    (hall : ∀ q ∈ v.need, q = t.port.toNat ∨ (es.filter (fun x => !x.e.acc)).any (fun x => x.e.port == q) = true) :
    outcome v t es = enableOut v t t.val es false := by
  have hc : v.need.contains t.port.toNat = true := List.contains_iff_mem.2 hp
  have hfind : es.find? (fun x => x.e.acc) = none := by
    rw [List.find?_eq_none]
    rw [List.any_eq_false] at hacc
    exact hacc
  have hpres : v.need.all (fun q => (es.filter (fun x => !x.e.acc)).any (fun x => x.e.port == q) ||
      q == t.port.toNat) = true := by
    rw [List.all_eq_true]
    intro q hq
    rcases hall q hq with rfl | h
    · simp
    · rw [h, Bool.true_or]
  simp only [outcome, hn, hc, hk, hx, hfind, Option.any_none, hpres, Option.isNone_none, Bool.not_true, Bool.not_false,
    Bool.and_true, Bool.or_self, Bool.false_eq_true, if_false, if_true, Bool.true_or, Bool.and_self]

/-- Another needed port has no value. -/
theorem outcome_insert {q : Nat} (hn : v.now = false) (hp : t.port.toNat ∈ v.need)
    (hk : v.toka.all (fun q => q.1 != t.port.toNat) = true)
    (hx : (es.filter (fun x => !x.e.acc)).find? (fun x => x.e.port == t.port.toNat) = none)
    (hq : q ∈ v.need) (hne : q ≠ t.port.toNat)
    (hmiss : (es.filter (fun x => !x.e.acc)).any (fun x => x.e.port == q) = false) :
    outcome v t es = .insert (plainEntry t) := by
  have hc : v.need.contains t.port.toNat = true := List.contains_iff_mem.2 hp
  have hpres : v.need.all (fun q => (es.filter (fun x => !x.e.acc)).any (fun x => x.e.port == q) ||
      q == t.port.toNat) = false := by
    rw [List.all_eq_false]
    exact ⟨q, hq, by rw [hmiss, beq_eq_false_iff_ne.2 hne]; decide⟩
  simp only [outcome, hn, hc, notToka_iff.1 hk, hx, hpres, Bool.not_true, Bool.not_false,
    Bool.and_true, Bool.false_and, Bool.or_self, Bool.false_eq_true, if_false, if_true]

/-- A first arrival at a TOKA port whose count goes on (R171). -/
theorem outcome_first {sp : Spec} {count : Nat} (hn : v.now = false) (hk : v.toka = some (t.port.toNat, sp, count))
    (hx : es.find? (fun x => x.e.acc) = none) (hr : (firstFold t sp count).rem ≠ 0) :
    outcome v t es = .insert (firstFold t sp count) := by
  have hr' : ((firstFold t sp count).rem == 0) = false := beq_eq_false_iff_ne.2 hr
  simp only [outcome, hn, hk, hx, hr', Option.any_some, beq_self_eq_true, Bool.not_true, Bool.and_false, Bool.or_self,
    Bool.false_eq_true, if_false]

/-- A later arrival at a TOKA port whose count goes on (R171). -/
theorem outcome_fold {sp : Spec} {count : Nat} {x : Ent} (hn : v.now = false) (hk : v.toka = some (t.port.toNat, sp, count))
    (hx : es.find? (fun x => x.e.acc) = some x) (hr : (x.e.fold t.val).rem ≠ 0) :
    outcome v t es = .update x (x.e.fold t.val) := by
  have hr' : ((x.e.fold t.val).rem == 0) = false := beq_eq_false_iff_ne.2 hr
  simp only [outcome, hn, hk, hx, hr', Option.any_some, beq_self_eq_true, Bool.not_true, Bool.and_false, Bool.or_self,
    Bool.false_eq_true, if_false]

end

/-- The entries that an enabled item takes up leave their ways. -/
theorem foldl_dropEnt (s u : State) (n : Nat) (t : Token) (set : Nat) :
    (Claims.partners s n t).foldl (fun u x => u.dropEnt n set x) u =
      (Claims.partners s n t).foldl (fun u x => u.putWay n set x.idx MsEntry.empty) u :=
  List.foldl_ext _ _ _ fun u _ hx => dropEnt_inSet (mem_entsOf hx).1 u n set

/-- Settles O9: by the outcome in each case of the table, taken by the set alone. -/
theorem tokensMeet : Obligations.TokensMeet := by
  intro n s s0 s1 t rest v ha h0 hr hl
  refine ⟨fun h => ?_, fun hn hp hk => ⟨fun x hx => ?_, fun hx => ⟨fun htk hacc hall => ?_, fun q i hq hne hm hi => ?_,
    fun q k hq hne hm hw hfree => ?_⟩⟩, fun hn sp count hk => ⟨fun hx hrem i hi => ?_, fun x hx hrem => ?_⟩⟩
  · exact localRow_of_outcome ha h0 hr hl (outcome_once h) (.inl rfl) rfl
  · exact localRow_of_outcome ha h0 hr hl (outcome_dup hn hp hk hx) (.inl rfl) rfl
  · refine localRow_of_outcome ha h0 hr hl (outcome_enable hn hp htk hacc hx hall) (.inl rfl) ?_
    rw [← foldl_dropEnt]
    have hmask : maskOf 3 (fun p => v.need.contains p || v.toka.any (fun q => q.1 == p)) =
        maskOf 3 (fun p => v.need.contains p) := by simp [htk]
    simp only [enableOut, hmask]
    rfl
  · exact sealed_plainEntry t ▸ localRow_of_insert ha h0 hr hl (outcome_insert hn hp hk hx hq hne hm) hi
  · exact localRow_of_full ha h0 hr hl (outcome_insert hn hp hk hx hq hne hm) hw hfree
  · exact sealed_firstFold t sp count ▸ localRow_of_insert ha h0 hr hl (outcome_first hn hk hx hrem) hi
  · refine localRow_of_outcome ha h0 hr hl (outcome_fold hn hk hx hrem) (.inl rfl) ?_
    have hin := (mem_entsOf (List.mem_of_find?_eq_some hx)).1
    show some (s1.putEnt n.val _ x _) = _
    rw [putEnt_inSet hin, sealed_fold]

end Sys2Proof.Machine
end

section
/-! The commands on graphs (R69, R70, R177-R179, R219-R221, R360-R363): each in the state in which it is next. -/

namespace Sys2Proof.Machine

/-! ### The turn of a command -/

/-- A command that is next takes effect (R366). -/
theorem withCmd_turn {s t : State} {op : Nat} {c : Cmd} (h : Claims.turn s op c t) (f : State → Cmd → State) :
    s.withCmd op f = f t c := by
  obtain ⟨hr, rest, ht, hm, rfl⟩ := h
  simp only [State.withCmd, hr, ht, hm, Bool.not_true, Bool.false_eq_true, if_false]

theorem row_of_turn {s t u : State} {op : Nat} {c : Cmd} {f : State → Cmd → State} {i : Instr} (ht : Claims.turn s op c t)
    (hi : exec i s = .next (s.withCmd op f).finish) (h : f t c = u) : exec i s = .next u.finish := by
  rw [hi, withCmd_turn ht, h]

/-! ### Host reads -/

/-- The requests of a host read only join what leaves the device. -/
theorem hostReads_outbox (k : Nat) (s : State) (a len : Nat) (ns : Bool) (fn : Nat) :
    ∃ o, State.hostReads k s a len ns fn = { s with outbox := o } := by
  induction k generalizing s a len with
  | zero => exact ⟨s.outbox, rfl⟩
  | succ k ih =>
    unfold State.hostReads
    split
    · exact ⟨s.outbox, rfl⟩
    · obtain ⟨o, ho⟩ := ih (s.emit (.hostRead a _ ns fn)) _ _
      exact ⟨o, ho⟩

theorem readHost_upDies (s : State) (a len : Nat) (ns : Bool) (fn : Nat) : (s.readHost a len ns fn).upDies = s.upDies := by
  obtain ⟨o, ho⟩ := hostReads_outbox (len / 64 + 2) s a len ns fn
  unfold State.readHost
  rw [ho]
  rfl

theorem dataBad_clean {d : HostData} (h : Claims.clean d) : dataBad d = false := by
  obtain ⟨he, hp⟩ := h
  simp [dataBad, he, hp]

/-- A read that came back whole and clean shows no error. -/
theorem readSource_clean {d : HostData} (h : Claims.clean d) (s : State) (c : Cmd) (addr len : Nat) :
    s.readSource c addr len false d = Claims.fetched s c addr len := by
  obtain ⟨he, hp⟩ := h
  simp [State.readSource, State.noteRead, State.noteData, he, hp, Claims.fetched]

/-! ### GRAPH_LOAD -/

section

variable {d : HostData} {c : Cmd} {t0 t : State}

theorem graphLoad_refused {r w : Nat} (hd : Claims.clean d) (ht : t = Claims.fetched t0 c (c.par 0 64) (c.par 64 32))
    (h : t.imageRefused (Claims.image d c) = some (r, w)) : State.graphLoad false d t0 c = t.reply c 0x12 r w 0 := by
  subst ht
  unfold Claims.image at h
  simp only [State.graphLoad, readSource_clean hd, dataBad_clean hd, h, Bool.false_eq_true, if_false]

theorem graphLoad_building (hd : Claims.clean d) (ht : t = Claims.fetched t0 c (c.par 0 64) (c.par 64 32))
    (h : t.imageRefused (Claims.image d c) = none) (hb : t.building = true) :
    State.graphLoad false d t0 c = t.reply c 0x30 0 0 0 := by
  subst ht
  unfold Claims.image at h
  simp only [State.graphLoad, readSource_clean hd, dataBad_clean hd, h, hb, Bool.false_eq_true, if_false, if_true]

theorem graphLoad_loads {base g : Nat} (hd : Claims.clean d) (ht : t = Claims.fetched t0 c (c.par 0 64) (c.par 64 32))
    (h : t.imageRefused (Claims.image d c) = none) (hb : t.building = false)
    (hbase : t.freeBase (imgSlots (Claims.image d c)) = some base) (hg : t.freeHandle = some g) :
    State.graphLoad false d t0 c =
      ((Claims.imaged (Claims.fetched t c (c.par 0 64) (c.par 64 32)) (Claims.image d c) base g).setGraph g
        (Claims.loaded (Claims.image d c) base c.fn)).reply c 0 g base 0 := by
  subst ht
  unfold Claims.image at h hbase
  simp only [State.graphLoad, readSource_clean hd, dataBad_clean hd, h, hb, hbase, hg, Bool.false_eq_true, if_false,
    Claims.imaged, Claims.image]
  rw [show (Claims.fetched (Claims.fetched t0 c (c.par 0 64) (c.par 64 32)) c (c.par 0 64) (c.par 64 32)).upDies =
    (Claims.fetched t0 c (c.par 0 64) (c.par 64 32)).upDies from readHost_upDies ..]
  rfl

end

/-! ### GRAPH_START -/

section

variable {c : Cmd} {t : State}

theorem graphStart_refused {st r : Nat} (h : t.startRefused c = some (st, r)) : t.graphStart c =
    (if st = 0x12 ∧ r = 4 then (t.readHdr (c.par 32 24)).1 else t).reply c st r 0 0 := by
  simp only [State.graphStart, h]

theorem graphStart_starts {u : State} (h : t.startRefused c = none) (hu : u = (t.readHdr (c.par 32 24)).1) :
    t.graphStart c = (((Claims.started u c).injectCharge (c.par 8 8)).setRes c.id
      [Claims.startIp (u.graph c.graph) (c.par 64 12), ((Claims.started u c).graph c.graph).active]).injectTokens c.qp
        (startTokens c (Claims.startIp (u.graph c.graph) (c.par 64 12)) u.ownPkg) := by
  subst hu
  simp only [State.graphStart, h]
  rfl

end

/-! ### GRAPH_ABORT, GRAPH_PARK, GRAPH_RESUME -/

section

variable {c : Cmd} {t : State} {e : Nat}

theorem graphAbort_refused (h : t.graphRefused c.graph [.loaded, .running, .parked, .frozen] = some e) :
    t.graphAbort c = t.reply c e 0 0 0 := by
  simp only [State.graphAbort, h]

theorem graphAbort_begins (h : t.graphRefused c.graph [.loaded, .running, .parked, .frozen] = none) : t.graphAbort c =
    (t.updGraph c.graph (fun x => { x with state := .aborting, proc := .abort (bitOf (c.par 8 1) 0) [], moved := none })).stopPairs
      c.graph false := by
  simp only [State.graphAbort, h]
  rfl

theorem graphPark_refused (h : t.graphRefused c.graph [.running] = some e) : t.graphPark c = t.reply c e 0 0 0 := by
  simp only [State.graphPark, h]

theorem graphPark_begins {u : State} {bs : List Byte} (h : t.graphRefused c.graph [.running] = none)
    (hd : t.declare 3 c.graph 1 0 0xFF 0 = (u, bs)) : t.graphPark c = u.beginPark c.graph bs := by
  simp only [State.graphPark, h, hd]

theorem graphResume_refused (h : t.graphRefused c.graph [.parked] = some e) : t.graphResume c = t.reply c e 0 0 0 := by
  simp only [State.graphResume, h]

theorem graphResume_ends {u : State} {k : List Nat} (h : t.graphRefused c.graph [.parked] = none)
    (hr : t.resumeGraph c.graph = (u, k)) :
    t.graphResume c = u.reply c 0 (lget 0 k 0) (lget 0 k 1) (lget 0 k 2) := by
  simp only [State.graphResume, h, hr]

end

/-! ### ORPHAN_SWEEP -/

section

variable {c : Cmd} {t : State}

theorem orphanSweep_refused {e : Nat}
    (h : t.graphRefused c.graph (if c.par 8 8 = 3 then [.frozen] else [.running, .frozen]) = some e) :
    t.orphanSweep c = t.reply c e 0 0 0 := by
  simp only [State.orphanSweep, h]

theorem orphanSweep_busy (h : t.graphRefused c.graph (if c.par 8 8 = 3 then [.frozen] else [.running, .frozen]) = none)
    (hs : t.sweep ≠ none) : t.orphanSweep c = t.reply c 0x30 0 0 0 := by
  simp only [State.orphanSweep, h, Option.isSome_iff_ne_none.2 hs, if_true]

theorem orphanSweep_begins (h : t.graphRefused c.graph (if c.par 8 8 = 3 then [.frozen] else [.running, .frozen]) = none)
    (hs : t.sweep = none) : t.orphanSweep c = (Claims.sweeping t c).runSweep := by
  simp only [State.orphanSweep, h, hs, Option.isSome_none, Bool.false_eq_true, if_false]
  rfl

end

section

variable {s u : State} {w : Sweep}

theorem runSweep_blocked (hw : s.sweep = some w) (h : s.sweepOn w = (u, false)) : s.runSweep = u := by
  simp only [State.runSweep, hw, h]

/-- A sweep that comes to its end writes its list and replies (R178). -/
theorem runSweep_ended {v : Sweep} (hw : s.sweep = some w) (h : s.sweepOn w = (u, true)) (hv : u.sweep = some v) :
    s.runSweep = ({ u with sweep := none }.toHost w.cmd (w.cmd.par 64 64) v.listed).reply w.cmd 0 v.found
      (v.listed.length / 16) 0 := by
  simp only [State.runSweep, hw, h, hv]
  rfl

variable {n set : Nat} {x : Ent} {h : Hdr}

/-- An entry whose context is in use by the sweep's graph stays, but in mode 3 (R177). -/
theorem sweepEnt_keeps (hh : s.readHdr x.e.cid.toNat = (u, h)) (hm : w.cmd.par 8 8 ≠ 3) (hst : h.st ≠ 0)
    (hg : h.graph = w.cmd.graph) : s.sweepEnt w n set x = u := by
  have hmode : fieldOf w.cmd.pkt 136 8 = w.cmd.par 8 8 := rfl
  have hgraph : fieldOf w.cmd.pkt 128 8 = w.cmd.graph := rfl
  have hc : (decide (w.cmd.par 8 8 = 3) || decide (h.st = 0) || decide (h.graph ≠ w.cmd.graph)) = false := by
    simp [hm, hst, hg]
  simp only [State.sweepEnt, hh, hmode, hgraph, hc, Bool.false_eq_true, if_false]

/-- An entry that qualifies is counted (R177): listed in modes 0 and 2 while the capacity lasts, and kept in mode 0 only. -/
theorem sweepEnt_takes (hh : s.readHdr x.e.cid.toNat = (u, h))
    (hq : w.cmd.par 8 8 = 3 ∨ h.st = 0 ∨ h.graph ≠ w.cmd.graph) : s.sweepEnt w n set x =
      { (if w.cmd.par 8 8 = 0 then u else u.dropEnt n set x) with sweep := some (Claims.swept w n x
        ((w.cmd.par 8 8 == 0 || w.cmd.par 8 8 == 2) && decide (w.listed.length < 16 * w.cmd.par 128 32))) } := by
  have hmode : fieldOf w.cmd.pkt 136 8 = w.cmd.par 8 8 := rfl
  have hgraph : fieldOf w.cmd.pkt 128 8 = w.cmd.graph := rfl
  have hc : (decide (w.cmd.par 8 8 = 3) || decide (h.st = 0) || decide (h.graph ≠ w.cmd.graph)) = true := by
    simpa [or_assoc] using hq
  simp only [State.sweepEnt, hh, hmode, hgraph, hc, if_true]
  split <;> rfl

end

/-! ### INJECT_TOKENS -/

section

variable {d : HostData} {c : Cmd} {t u : State} {xs : List Nat}

theorem injectCmd_inline (h : c.par 0 8 = 0) :
    State.injectCmd false d t c = (t.setRes c.id [c.par 16 16, 0]).injectTokens c.qp c.inline := by
  simp only [State.injectCmd, h, if_true]

/-- From a buffer: every token is checked before any is pushed (R363). -/
theorem injectCmd_buffer (h : c.par 0 8 ≠ 0) (hd : Claims.clean d) (hu : u = Claims.fetched t c (c.par 64 64) (16 * c.par 16 16))
    (hx : xs = (List.range (c.par 16 16)).map (fun k => leAt d.bytes (16 * k) 16)) : State.injectCmd false d t c =
      if xs.any (fun x => bitsOf x 61 3 != 0 || bitsOf x 104 23 != 0) = true then u.reply c 0x13 0 0 0
      else if (xs.map tokenOf).any tokenBad = true then u.reply c 0x12 0 0 0
      else (u.setRes c.id [c.par 16 16, 0]).injectTokens c.qp (xs.map tokenOf) := by
  subst hu hx
  simp only [State.injectCmd, h, if_false, readSource_clean hd, dataBad_clean hd, Bool.false_eq_true]

end

/-- Settles O31: command by command, each in the state in which it is next. -/
theorem graphCommands : Obligations.GraphCommands := by
  intro s t c
  refine ⟨fun d t0 ht hd hf => ?load, fun u ht hu => ?start, fun ht => ?abort, fun ht => ?park, fun ht => ?resume,
    fun ht => ?sweep, fun w hw => ?sweepOn, fun w n set x u h hh => ?entry, fun d ht => ?inject⟩
  case load =>
    exact ⟨fun r w h => row_of_turn ht rfl (graphLoad_refused hd hf h),
      fun h hb => row_of_turn ht rfl (graphLoad_building hd hf h hb),
      fun base g h hb hbase hg => row_of_turn ht rfl (graphLoad_loads hd hf h hb hbase hg)⟩
  case start =>
    refine ⟨fun st r h hne => row_of_turn ht rfl ?_, fun h => row_of_turn ht rfl ?_, fun ip h hip => row_of_turn ht rfl ?_⟩
    · rw [graphStart_refused h, if_neg (by omega)]
    · rw [graphStart_refused h, if_pos ⟨rfl, rfl⟩, hu]
    · rw [hip, graphStart_starts h hu]
  case abort =>
    exact ⟨fun e h => row_of_turn ht rfl (graphAbort_refused h), fun h => row_of_turn ht rfl (graphAbort_begins h)⟩
  case park =>
    exact ⟨fun e h => row_of_turn ht rfl (graphPark_refused h), fun u bs h hd => row_of_turn ht rfl (graphPark_begins h hd)⟩
  case resume =>
    exact ⟨fun e h => row_of_turn ht rfl (graphResume_refused h), fun u k h hr => row_of_turn ht rfl (graphResume_ends h hr)⟩
  case sweep =>
    exact ⟨fun e h => row_of_turn ht rfl (orphanSweep_refused h),
      fun h => ⟨fun hs => row_of_turn ht rfl (orphanSweep_busy h hs), fun hs => row_of_turn ht rfl (orphanSweep_begins h hs)⟩⟩
  case sweepOn => exact ⟨fun u h => runSweep_blocked hw h, fun u v h hv => runSweep_ended hw h hv⟩
  case entry =>
    refine ⟨sweepEnt_keeps hh, fun hq => ⟨fun hm => ?_, fun hm => ?_, fun hm => ?_⟩⟩
    · rw [sweepEnt_takes hh hq, if_pos hm, hm]
      rfl
    · rw [sweepEnt_takes hh hq, if_neg (by omega), hm]
      rfl
    · rw [sweepEnt_takes hh hq, if_neg (by omega)]
      rcases hm with hm | hm <;> rw [hm] <;> rfl
  case inject =>
    refine ⟨fun h => row_of_turn ht rfl (injectCmd_inline h), fun u xs h hd hu hx =>
      ⟨fun hb => row_of_turn ht rfl ?_, fun hb hk => row_of_turn ht rfl ?_, fun hb hk => row_of_turn ht rfl ?_⟩⟩
    · rw [injectCmd_buffer h hd hu hx, if_pos hb]
    · rw [injectCmd_buffer h hd hu hx, if_neg (by rw [hb]; decide), if_pos hk]
    · rw [injectCmd_buffer h hd hu hx, if_neg (by rw [hb]; decide), if_neg (by rw [hk]; decide)]

end Sys2Proof.Machine
end

section
/-! The instruction slot (R76-R79, R107): the opcode map, specifiers and slots as numbers, and an instruction in its slot. -/

namespace Sys2Proof.Machine

/-! ### The opcode map -/

theorem opRows_nodup_code : (opRows.map (fun r => r.code)).Nodup := by decide

theorem opRows_nodup_op : (opRows.map (fun r => (r.op, r.x))).Nodup := by decide

theorem opRows_code_lt : ∀ r ∈ opRows, r.code < 2 ^ 9 := by decide

/-- The rows stand in the map once each, by opcode value and by operation and form (R107). -/
theorem opRows_injective {r q : OpRow} (hr : r ∈ opRows) (hq : q ∈ opRows)
    (h : r.code = q.code ∨ (r.op = q.op ∧ r.x = q.x)) : r = q := by
  rcases h with h | ⟨hop, hx⟩
  · exact List.inj_on_of_nodup_map opRows_nodup_code hr hq h
  · exact List.inj_on_of_nodup_map opRows_nodup_op hr hq (Prod.ext hop hx)

/-- A search of the map finds the only row that satisfies its test. -/
theorem opRows_find {p : OpRow → Bool} {r : OpRow} (hr : r ∈ opRows) (hp : p r = true) (h : ∀ q ∈ opRows, p q = true → q = r) :
    opRows.find? p = some r := by
  obtain ⟨q, hq⟩ := Option.isSome_iff_exists.1 (List.find?_isSome.2 ⟨r, hr, hp⟩)
  rw [hq, h q (List.mem_of_find?_eq_some hq) (List.find?_some hq)]

theorem opRowOf_eq_some {c : Nat} {r : OpRow} : opRowOf c = some r ↔ r ∈ opRows ∧ r.code = c := by
  refine ⟨fun h => ⟨List.mem_of_find?_eq_some h, by simpa using List.find?_some h⟩, ?_⟩
  rintro ⟨hr, rfl⟩
  exact opRows_find hr (beq_self_eq_true _) fun q hq h => opRows_injective hq hr (.inl (by simpa using h))

theorem opRowFor_eq_some {op : FOp} {x : Bool} {r : OpRow} :
    opRowFor op x = some r ↔ r ∈ opRows ∧ r.op = op ∧ r.x = x := by
  refine ⟨fun h => ⟨List.mem_of_find?_eq_some h, by simpa using List.find?_some h⟩, ?_⟩
  rintro ⟨hr, rfl, rfl⟩
  exact opRows_find hr (by simp) fun q hq h => opRows_injective hq hr (.inr (by simpa using h))

/-! ### Formats and specifiers -/

theorem bitsOf_eq (x lo w : Nat) : bitsOf x lo w = x / 2 ^ lo % 2 ^ w := by rw [bitsOf, Nat.shiftRight_eq_div_pow]

theorem fmtOf_eq_some {n : Nat} {f : Fmt} : fmtOf n = some f ↔ n = f.code := by
  constructor
  · intro h
    unfold fmtOf at h
    split at h <;> cases h <;> rfl
  · rintro rfl
    cases f <;> rfl

theorem Fmt.code_lt (f : Fmt) : f.code < 4 := by cases f <;> decide

theorem modeOf_code (n : Nat) : (modeOf n).code = n := by
  unfold modeOf
  split <;> rfl

theorem Spec.wf_iff {sp : Spec} : sp.wf = true ↔ sp.f < 4096 ∧ sp.m.code < 16 ∧ modeOf sp.m.code = sp.m := by
  obtain ⟨m, f⟩ := sp
  cases m with
  | res n =>
    have h : modeOf n = .res n ↔ 12 ≤ n := by
      refine ⟨fun h => ?_, fun h => ?_⟩
      · by_contra hn
        interval_cases n <;> cases h
      · obtain ⟨k, rfl⟩ := Nat.exists_eq_add_of_le' h
        rfl
    simp [Spec.wf, OMode.code, h]
    omega
  | _ => simp [Spec.wf, OMode.code, modeOf]

theorem Spec.code_lt {sp : Spec} (h : sp.wf = true) : sp.code < 2 ^ 16 := by
  obtain ⟨hf, hm, -⟩ := Spec.wf_iff.1 h
  unfold Spec.code
  omega

/-- A specifier reads back from its 16 bits (R78). -/
theorem specOf_code {sp : Spec} (h : sp.wf = true) : specOf sp.code = sp := by
  obtain ⟨hf, hm, hmode⟩ := Spec.wf_iff.1 h
  have h1 : bitsOf sp.code 12 4 = sp.m.code := by
    rw [bitsOf_eq, Spec.code]
    omega
  have h2 : bitsOf sp.code 0 12 = sp.f := by
    rw [bitsOf_eq, Spec.code]
    omega
  rw [specOf, h1, h2, hmode]

theorem code_specOf {x : Nat} (h : x < 2 ^ 16) : (specOf x).code = x := by
  simp only [specOf, Spec.code, modeOf_code, bitsOf_eq]
  omega

theorem wf_specOf (x : Nat) : (specOf x).wf = true :=
  Spec.wf_iff.2 ⟨bitsOf_lt x 0 12, (modeOf_code _).trans_lt (bitsOf_lt x 12 4), by rw [specOf, modeOf_code]⟩

/-! ### The slot -/

theorem parityOk_mkSlot (w0 w1 : Word) : (mkSlot w0 w1).parityOk = true := beq_self_eq_true _

/-- The slot of 72 bits (R76, R77). -/
def slotOfBits (x : Nat) : Slot := mkSlot (BitVec.ofNat 36 (x / 2 ^ 36)) (BitVec.ofNat 36 x)

theorem bits_slotOfBits {x : Nat} (h : x < 2 ^ 72) : (slotOfBits x).bits = x := by
  simp only [slotOfBits, mkSlot, Slot.bits, BitVec.toNat_ofNat]
  omega

theorem Slot.bits_lt (sl : Slot) : sl.bits < 2 ^ 72 := by
  have h0 := sl.w0.isLt
  have h1 := sl.w1.isLt
  unfold Slot.bits
  omega

/-- A slot of good parity is the slot of its bits (R77). -/
theorem slotOfBits_bits {sl : Slot} (h : sl.parityOk = true) : slotOfBits sl.bits = sl := by
  obtain ⟨w0, w1, par⟩ := sl
  have hp : par = slotParity w0 w1 := by simpa [Slot.parityOk] using h
  have h0 : BitVec.ofNat 36 ((w0.toNat * 2 ^ 36 + w1.toNat) / 2 ^ 36) = w0 := by
    apply BitVec.eq_of_toNat_eq
    have := w0.isLt
    have := w1.isLt
    rw [BitVec.toNat_ofNat]
    omega
  have h1 : BitVec.ofNat 36 (w0.toNat * 2 ^ 36 + w1.toNat) = w1 := by
    apply BitVec.eq_of_toNat_eq
    have := w1.isLt
    rw [BitVec.toNat_ofNat]
    omega
  simp only [slotOfBits, Slot.bits, mkSlot, h0, h1, hp]

/-! ### An instruction in its slot -/

/-- Bits [43:0] of an instruction, by its format (R78). -/
def Insn.low (i : Insn) : Nat :=
  match i.fmt with
  | .t3 => i.b.code * 2 ^ 28 + i.d.code * 2 ^ 12 + i.ptr
  | .tl => i.b.code * 2 ^ 28 + i.lit * 2 ^ 12 + i.ptr
  | .tw => i.lit * 2 ^ 12 + i.ptr
  | .px => i.lit

/-- What the format asks of the fields in bits [43:0]: the literal fits, and what the format lacks stands at its fixed value. -/
def Insn.lowOk (i : Insn) : Prop :=
  match i.fmt with
  | .t3 => i.lit = 0
  | .tl => i.lit < 2 ^ 16 ∧ i.d = Spec.unused
  | .tw => i.lit < 2 ^ 32 ∧ i.b = Spec.unused ∧ i.d = Spec.unused
  | .px => i.lit < 2 ^ 44 ∧ i.b = Spec.unused ∧ i.d = Spec.unused ∧ i.ptr = 0

theorem Insn.bits_eq (i : Insn) (code : Nat) :
    i.bits code = code * 2 ^ 63 + i.fmt.code * 2 ^ 60 + i.a.code * 2 ^ 44 + i.low := by
  unfold Insn.bits Insn.low
  cases i.fmt <;> simp only [Nat.add_assoc]

theorem Insn.wf_iff {i : Insn} : i.wf = true ↔ ∃ r, opRowFor i.op i.x = some r ∧ r.fmts.contains i.fmt = true ∧
    i.a.wf = true ∧ i.b.wf = true ∧ i.d.wf = true ∧ i.ptr < 4096 ∧ i.lowOk := by
  unfold Insn.wf Insn.lowOk
  cases opRowFor i.op i.x with
  | none => simp
  | some r => cases i.fmt <;> simp [and_assoc]

theorem insnOf_fmt (r : OpRow) (f : Fmt) (x : Nat) : (insnOf r f x).fmt = f := by cases f <;> rfl

theorem insnOf_op (r : OpRow) (f : Fmt) (x : Nat) : (insnOf r f x).op = r.op ∧ (insnOf r f x).x = r.x := by
  cases f <;> exact ⟨rfl, rfl⟩

/-- A slot reads as an instruction when its parity, its opcode and its format pass (R95, R96). -/
theorem readSlot_eq_ok {sl : Slot} {r : OpRow} {i : Insn} : readSlot sl = .ok r i ↔ sl.parityOk = true ∧
    opRowOf (bitsOf sl.bits 63 9) = some r ∧
    ∃ f, fmtOf (bitsOf sl.bits 60 3) = some f ∧ r.fmts.contains f = true ∧ insnOf r f sl.bits = i := by
  unfold readSlot
  cases sl.parityOk with
  | false => simp
  | true =>
    cases opRowOf (bitsOf sl.bits 63 9) with
    | none => simp
    | some q =>
      cases fmtOf (bitsOf sl.bits 60 3) with
      | none => simp
      | some f =>
        by_cases hf : q.fmts.contains f = true
        · simp only [Bool.not_true, Bool.false_eq_true, if_false, hf, if_true, SlotRead.ok.injEq, Option.some.injEq,
            exists_eq_left', true_and]
          exact ⟨fun ⟨hq, hi⟩ => ⟨hq, hq ▸ hf, hq ▸ hi⟩, fun ⟨hq, _, hi⟩ => ⟨hq, hq ▸ hi⟩⟩
        · simp only [Bool.not_true, Bool.false_eq_true, if_false, hf, Option.some.injEq, exists_eq_left', true_and,
            reduceCtorEq, false_iff]
          exact fun ⟨hq, h, _⟩ => hf (hq ▸ h)

theorem encodeInsn_eq {i : Insn} {r : OpRow} (h : opRowFor i.op i.x = some r) : encodeInsn i = slotOfBits (i.bits r.code) := by
  simp only [encodeInsn, h, slotOfBits]

/-- The bits of the slot's fields in any format, from instruction bit 44 up (R76). -/
theorem bitsOf_head {c f a y : Nat} (hc : c < 2 ^ 9) (hf : f < 2 ^ 3) (ha : a < 2 ^ 16) (hy : y < 2 ^ 44) :
    bitsOf (c * 2 ^ 63 + f * 2 ^ 60 + a * 2 ^ 44 + y) 63 9 = c ∧ bitsOf (c * 2 ^ 63 + f * 2 ^ 60 + a * 2 ^ 44 + y) 60 3 = f ∧
    bitsOf (c * 2 ^ 63 + f * 2 ^ 60 + a * 2 ^ 44 + y) 44 16 = a := by
  simp only [bitsOf_eq]
  omega

section

variable {i : Insn} {r : OpRow}

theorem Insn.low_lt (hb : i.b.wf = true) (hd : i.d.wf = true) (hp : i.ptr < 4096) (hl : i.lowOk) : i.low < 2 ^ 44 := by
  have hb' := Spec.code_lt hb
  have hd' := Spec.code_lt hd
  unfold Insn.lowOk at hl
  unfold Insn.low
  cases hf : i.fmt <;> simp only [hf] at hl ⊢ <;> omega

/-- The fields read from the bits of an instruction are the instruction (R76, R78). -/
theorem insnOf_of_low {x : Nat} (hop : r.op = i.op) (hx : r.x = i.x) (hb : i.b.wf = true) (hd : i.d.wf = true)
    (hp : i.ptr < 4096) (hl : i.lowOk) (ha : specOf (bitsOf x 44 16) = i.a) (hlow : x % 2 ^ 44 = i.low) :
    insnOf r i.fmt x = i := by
  have hb' := Spec.code_lt hb
  have hd' := Spec.code_lt hd
  obtain ⟨op, y, f, a, b, d, lit, ptr⟩ := i
  simp only [Insn.low, Insn.lowOk] at *
  cases f <;> simp only [insnOf, hop, hx, ha, Insn.mk.injEq, true_and] at hl hlow ⊢
  case t3 =>
    have h28 : bitsOf x 28 16 = b.code := by rw [bitsOf_eq]; omega
    have h12 : bitsOf x 12 16 = d.code := by rw [bitsOf_eq]; omega
    have h0 : bitsOf x 0 12 = ptr := by rw [bitsOf_eq]; omega
    exact ⟨by rw [h28, specOf_code hb], by rw [h12, specOf_code hd], hl.symm, h0⟩
  case tl =>
    obtain ⟨hlit, hdu⟩ := hl
    have h28 : bitsOf x 28 16 = b.code := by rw [bitsOf_eq]; omega
    have h12 : bitsOf x 12 16 = lit := by rw [bitsOf_eq]; omega
    have h0 : bitsOf x 0 12 = ptr := by rw [bitsOf_eq]; omega
    exact ⟨by rw [h28, specOf_code hb], hdu.symm, h12, h0⟩
  case tw =>
    obtain ⟨hlit, hbu, hdu⟩ := hl
    have h12 : bitsOf x 12 32 = lit := by rw [bitsOf_eq]; omega
    have h0 : bitsOf x 0 12 = ptr := by rw [bitsOf_eq]; omega
    exact ⟨hbu.symm, hdu.symm, h12, h0⟩
  case px =>
    obtain ⟨hlit, hbu, hdu, hp0⟩ := hl
    have h0 : bitsOf x 0 44 = lit := by rw [bitsOf_eq]; omega
    exact ⟨hbu.symm, hdu.symm, h0, hp0.symm⟩

end

/-- The bits of the fields of a slot are the slot's bits (R76, R78). -/
theorem bits_insnOf {r : OpRow} {f : Fmt} {x : Nat} (h : x < 2 ^ 72) (hc : bitsOf x 63 9 = r.code)
    (hf : bitsOf x 60 3 = f.code) : (insnOf r f x).bits r.code = x := by
  have hs : ∀ lo, (specOf (bitsOf x lo 16)).code = bitsOf x lo 16 := fun lo => code_specOf (bitsOf_lt x lo 16)
  cases f <;>
    simp only [insnOf, Insn.bits, hs, ← hc, ← hf] <;> simp only [bitsOf_eq] <;> omega

theorem lowOk_insnOf (r : OpRow) (f : Fmt) (x : Nat) : (insnOf r f x).lowOk := by
  cases f
  case t3 => exact rfl
  case tl => exact ⟨bitsOf_lt x 12 16, rfl⟩
  case tw => exact ⟨bitsOf_lt x 12 32, rfl, rfl⟩
  case px => exact ⟨bitsOf_lt x 0 44, rfl, rfl, rfl⟩

theorem wf_insnOf {r : OpRow} {f : Fmt} (hr : r ∈ opRows) (hf : r.fmts.contains f = true) (x : Nat) :
    (insnOf r f x).wf = true := by
  have hfields : (insnOf r f x).a.wf = true ∧ (insnOf r f x).b.wf = true ∧ (insnOf r f x).d.wf = true ∧
      (insnOf r f x).ptr < 4096 := by
    cases f
    case t3 => exact ⟨wf_specOf _, wf_specOf _, wf_specOf _, bitsOf_lt x 0 12⟩
    case tl => exact ⟨wf_specOf _, wf_specOf _, rfl, bitsOf_lt x 0 12⟩
    case tw => exact ⟨wf_specOf _, rfl, rfl, bitsOf_lt x 0 12⟩
    case px => exact ⟨wf_specOf _, rfl, rfl, Nat.zero_lt_succ _⟩
  obtain ⟨ha, hb, hd, hp⟩ := hfields
  obtain ⟨hop, hx⟩ := insnOf_op r f x
  exact Insn.wf_iff.2 ⟨r, opRowFor_eq_some.2 ⟨hr, hop.symm, hx.symm⟩, by rwa [insnOf_fmt], ha, hb, hd, hp, lowOk_insnOf r f x⟩

/-- A well-formed instruction reads back from its slot. -/
theorem readSlot_encodeInsn {i : Insn} (h : i.wf = true) :
    ∃ r, readSlot (encodeInsn i) = .ok r i ∧ opRowFor i.op i.x = some r := by
  obtain ⟨r, hr, hfmt, ha, hb, hd, hp, hl⟩ := Insn.wf_iff.1 h
  obtain ⟨hmem, hop, hx⟩ := opRowFor_eq_some.1 hr
  have hlow := Insn.low_lt hb hd hp hl
  have hcode := opRows_code_lt r hmem
  have hf := i.fmt.code_lt
  have haLt := Spec.code_lt ha
  obtain ⟨h63, h60, h44⟩ := bitsOf_head hcode (f := i.fmt.code) (by omega) haLt hlow
  rw [← Insn.bits_eq] at h63 h60 h44
  have hlt : i.bits r.code < 2 ^ 72 := by rw [Insn.bits_eq]; omega
  refine ⟨r, ?_, hr⟩
  rw [encodeInsn_eq hr, readSlot_eq_ok, bits_slotOfBits hlt, h63, h60]
  exact ⟨parityOk_mkSlot _ _, opRowOf_eq_some.2 ⟨hmem, rfl⟩, i.fmt, fmtOf_eq_some.2 rfl, hfmt,
    insnOf_of_low hop hx hb hd hp hl (by rw [h44, specOf_code ha]) (by rw [Insn.bits_eq]; omega)⟩

/-- A slot that reads as an instruction is the slot of that instruction. -/
theorem encodeInsn_of_readSlot {sl : Slot} {r : OpRow} {i : Insn} (h : readSlot sl = .ok r i) :
    i.wf = true ∧ encodeInsn i = sl := by
  obtain ⟨hpar, hrow, f, hfmt, hall, rfl⟩ := readSlot_eq_ok.1 h
  obtain ⟨hmem, hcode⟩ := opRowOf_eq_some.1 hrow
  obtain ⟨hop, hx⟩ := insnOf_op r f sl.bits
  refine ⟨wf_insnOf hmem hall _, ?_⟩
  rw [encodeInsn_eq (opRowFor_eq_some.2 ⟨hmem, hop.symm, hx.symm⟩),
    bits_insnOf sl.bits_lt hcode.symm (fmtOf_eq_some.1 hfmt), slotOfBits_bits hpar]

/-- Settles O48: a slot and its instruction determine each other, and the opcode map has each row once. -/
theorem slotEncoding : Obligations.SlotEncoding := by
  refine ⟨fun i hi => ?_, fun sl r i h => encodeInsn_of_readSlot h, fun r hr q hq h => opRows_injective hr hq h, opRows_code_lt⟩
  obtain ⟨r, hread, hr⟩ := readSlot_encodeInsn hi
  obtain ⟨-, hop, hx⟩ := opRowFor_eq_some.1 hr
  obtain ⟨q, hq, hfmt, -⟩ := Insn.wf_iff.1 hi
  cases hr.symm.trans hq
  exact ⟨r, hread, hop, hx, hfmt⟩

end Sys2Proof.Machine
end

section
/-! Repeated pairs (R91-R94, R127-R129): how a pair is taken up, how one repetition completes, and a resume item. -/

namespace Sys2Proof.Machine

open Sys2Proof.Safety

/-! ### The rows -/

theorem repRow_eq (u : Bool) (n : Fin 6) (k : Fin 64) (reps : Nat) (s : State) :
    Claims.repRow u n k reps s = .next (s.fireRep n.val k.val u reps).finish := by
  cases u <;> rfl

section

variable {s : State} {n k : Nat} {u : Bool}

/-- The row of a PE on which a pair runs lets that pair go on (R127, R128). -/
theorem fireRep_running {p : RepRun} {rest : List RepRun} (hr : (s.pe (peKey n k)).runs = p :: rest) (hu : p.unbroken = u)
    (hs : (s.die n).stopped = false) (reps : Nat) : s.fireRep n k u reps = State.repeatRun n k reps s := by
  simp only [State.fireRep, hr, hu, hs, decide_true, Bool.not_false, Bool.and_self, if_true]

/-- One repetition of a pair that nothing stops: its firing runs in the state that the charge and the affinity leave, and the
pair leaves after its last one (R128). -/
theorem repeatRun_one {p : RepRun} {rest : List RepRun} (hr : (s.pe (peKey n k)).runs = p :: rest) (hg : s.repGate n k p = .go) :
    State.repeatRun n k 1 s = Claims.lastLeaves ((Claims.repeating s n k p).runFiring n
      { pe := k, item := p.item, got := [], wait := .bank 0, lane := p.lane, seq := ((Claims.repeating s n k p).die n).began,
        phase := .repetition p.unbroken { i := p.next, n := p.n, pins := p.pins } }) n k p := by
  simp only [State.repeatRun, hr, hg]
  rfl

/-- The firing of a repetition is an attempt at the slot after the prefix, under colour c + i (R91, R94). -/
theorem runFiring_repetition {s1 : State} {p : RepRun} {r : OpRow} {i : Insn}
    (hread : readSlot (s1.slot n (p.item.ip.toNat + 1)) = .ok r i) (g : Firing) (hpe : g.pe = k) (hi : g.item = p.item)
    (hl : g.lane = p.lane) (hseq : g.seq = (s1.die n).began)
    (hph : g.phase = .repetition u { i := p.next, n := p.n, pins := p.pins }) :
    s1.runFiring n g = s1.attempt g (Claims.repetition s1 n k p r i) := by
  simp only [State.runFiring, State.fireOf, hph, hi, hread, hpe, hl, hseq]
  rfl

/-- A repetition `f`, begun in `s1`, whose opcode has an outcome completes with it, and the pair leaves after its last one. -/
theorem fireRep_ended {s1 : State} {f : Fire} {p : RepRun} {rest : List RepRun} {r : OpRow} {i : Insn} {v : Vals}
    {place : Option Place} {x : List PWord} {rs : Rs} {o : FOut} {t : State} (hs1 : s1 = Claims.repeating s n k p)
    (hf : f = Claims.repetition s1 n k p r i) (hr : (s.pe (peKey n k)).runs = p :: rest) (hs : (s.die n).stopped = false)
    (hg : s.repGate n k p = .go) (hread : readSlot (s1.slot n (p.item.ip.toNat + 1)) = .ok r i)
    (h1 : StepOne s1 f v place x rs) (ho : (bodyOf f.i.x f.i.op).out (rs.s.divide f v) f v x = .ok o)
    (ht : trapCause v.g13 (fireFlags f v o.fl) = none) (h3 : Claims.step3 rs.s f v o place = .ok t) (hfr : o.freed = false)
    (hop : f.i.op ≠ .falloc) :
    s.fireRep n k p.unbroken 1 = Claims.lastLeaves (Claims.ended t f v o rs.pins) n k p := by
  have hit : p.item = f.it := by rw [hf]; rfl
  rw [fireRep_running hr rfl hs, repeatRun_one hr hg, ← hs1, runFiring_repetition hread _ rfl rfl rfl rfl rfl, ← hf,
    attempt_of_stepOne rfl hit h1, finishFire_ended ho ht h3 hfr hop]

end

/-! ### The count of a pair -/

/-- A position that is no PIN keeps the value of the item (R93). -/
theorem go_rdPinBase {f : Fire} {pos : Nat} {sp : Spec} (h : sp.m ≠ .pin) (used : Bool) (r : Rs) :
    Rd.go (rdPinBase f pos sp used) r = (.ok (f.it.val pos), r) := by
  have hm : (used && sp.m == .pin) = false := by simp [h]
  simp only [rdPinBase, hm, Bool.false_eq_true, if_false]
  rfl

/-- The count in range, with no PIN in the repeated instruction (R91-R93). -/
theorem go_rdPair {pre f : Fire} {u : Bool} {w : PWord} {r q : Rs} (hc : Rd.go (rdSpec pre 0 pre.i.a) r = (.ok w, q))
    (ha : f.i.a.m ≠ .pin) (hb : f.i.b.m ≠ .pin) (hd : f.i.d.m ≠ .pin) (hp : w.p = false) (hlt : w.v.toNat < 2 ^ 32)
    (hu : u = true → w.v.toNat ≤ 4096) :
    Rd.go (rdPair pre f u) r = (.ok (w.v.toNat, [f.it.val 0, f.it.val 1, f.it.val 2]), q) := by
  have hin : (w.p || decide (2 ^ 32 ≤ w.v.toNat) || (u && decide (4096 < w.v.toNat))) = false := by
    cases u with
    | false => simp only [hp, decide_eq_false (Nat.not_le.2 hlt), Bool.false_and, Bool.or_self]
    | true => simp only [hp, decide_eq_false (Nat.not_le.2 hlt), decide_eq_false (Nat.not_lt.2 (hu rfl)),
        Bool.and_false, Bool.or_self]
  unfold rdPair
  rw [Rd.go_bind_ok hc, Rd.go_bind_ok (go_rdPinBase ha ..), Rd.go_bind_ok (go_rdPinBase hb ..),
    Rd.go_bind_ok (go_rdPinBase hd ..)]
  simp only [hin, Bool.false_eq_true, if_false]
  rfl

/-- A pair whose count is read: none with count 0, else it is taken up from index 0 (R91). -/
theorem attemptPair_of_rdPair {s : State} {n : Nat} {g : Firing} {u : Bool} {pre f : Fire} {m : Nat} {pins : List PWord} {q : Rs}
    (hpre : s.fireOf n g g.item.ip.toNat none = some pre) (hf : s.fireOf n g (g.item.ip.toNat + 1) none = some f)
    (h : Rd.go (rdPair pre f u) (Rs.start s g.got (tokenVals g.item)) = (.ok (m, pins), q)) :
    s.attemptPair n g u = if m = 0 then q.s else q.s.takeUp n g.pe
      { item := g.item, unbroken := u, n := m, next := 0, pins := pins, lane := g.lane, fresh := true } := by
  unfold Rd.go at h
  cases m <;> simp only [State.attemptPair, hpre, hf, h] <;> rfl

/-- A pair that is not suspended and not discarded joins the PE's pairs (R219, R362). -/
theorem takeUp_taken {s : State} {n k : Nat} {p : RepRun}
    (h : p.unbroken = true ∨ ((s.graph p.item.graph.toNat).state ≠ .parked ∧ s.discards p.item = false)) :
    s.takeUp n k p = Claims.taken s n k p := by
  unfold State.takeUp
  rcases h with h | ⟨hpark, hdis⟩
  · simp only [h, Bool.not_true, Bool.false_and, Bool.false_eq_true, if_false]
    rfl
  · simp only [hdis, beq_eq_false_iff_ne.2 hpark, Bool.and_false, Bool.false_eq_true, if_false]
    rfl

section

variable {s s1 : State} {n k lane : Nat} {u : Bool} {it : Item} {r0 r1 : OpRow} {i0 i1 : Insn}

/-- The record of a pair whose decode has passed. -/
def pairFiring (s : State) (n k lane : Nat) (it : Item) (u : Bool) : Firing :=
  { newFiring s n k lane it with phase := .repDecode u }

/-- A fire of either slot of a pair at its decode, from the slot's instruction. -/
theorem fireOf_pairFiring {ip : Nat} {r : OpRow} {i : Insn} (h : readSlot (s1.slot n ip) = .ok r i) :
    s1.fireOf n (pairFiring s1 n k lane it u) ip none = some { firing s1 n k (lane % 8) it r i with ip := ip } := by
  have hcol : it.colour.toNat % 4096 = it.colour.toNat := Nat.mod_eq_of_lt it.colour.isLt
  simp [State.fireOf, h, firing, pairFiring, newFiring, hcol]

/-- The row of a PE on which no pair runs decodes the selected pair, and runs what it takes up (R90-R92). -/
theorem fireRep_begins (hr : (s.pe (peKey n k)).runs = []) (hp : Picks s n k lane it)
    (hw : wantOp n (if u then .repU else .repI) s it = true) (h1 : s1 = Claims.pairBegun s n k lane it)
    (hpair : (((s.popHead n k lane).noteBad n k lane it).beginOn n k it).isPair n it.ip.toNat = true)
    (hdec : s1.decodePair n it = .ok r1 i1) (reps : Nat) :
    s.fireRep n k u reps = State.repeatRun n k reps (s1.attemptPair n (pairFiring s1 n k lane it u) u) := by
  unfold Claims.pairBegun at h1
  simp only [State.fireRep, hr]
  rw [fireWhen_picks _ hp hw]
  simp only [hpair, if_true, ← h1, hdec]
  rfl

end

/-- Settles O6: a running pair repeats once, a selected pair is taken up by its count, and a resume item goes on. -/
theorem repeatedPairs : Obligations.RepeatedPairs := by
  refine ⟨?_, ?_, ?_⟩
  · rintro u n k s t p rest r i v place x rs o c op hr rfl hs hg hread rfl hc h1 rfl ht h3
    obtain ⟨-, hne⟩ := exec_firing (.inl hc) s
    rw [repRow_eq]
    refine next_finish (fireRep_ended rfl rfl hr hs hg hread h1 ?_ ht h3 rfl hne)
    exact congrArg (fun b : Body => b.out _ _ v x) (bodyOf_integer hc i.x)
  · intro u n k reps s s1 lane it r0 r1 i0 i1 w q hr hp hw h1 hpair hstay hread0 hdec hread1 hcount hq hwp hlt hu ha hb hd
    have hcnt := go_rdPair (f := { firing s1 n.val k.val (lane % 8) it r1 i1 with ip := it.ip.toNat + 1 })
      (pre := firing s1 n.val k.val (lane % 8) it r0 i0) hcount ha hb hd hwp hlt hu
    rw [repRow_eq, fireRep_begins hr hp hw h1 hpair hdec,
      attemptPair_of_rdPair (fireOf_pairFiring hread0) (fireOf_pairFiring hread1) hcnt, hq, takeUp_taken hstay]
    split <;> rfl
  · intro n k reps s lane it hp hkind
    refine next_finish (fireWhen_picks _ hp ?_)
    rw [hkind]
    rfl

end Sys2Proof.Machine
end

section
/-! The Latch Bank (R125, R126, R243-R249): what an acquire and a release answer, the oldest request of a group, the latch
window of each function, and a lift message. -/

namespace Sys2Proof.Machine

/-! ### Accesses to a latch -/

theorem latchValue_eq_latchWord (result : Nat) (abandoned : Bool) (req cid : Nat) :
    latchValue result abandoned req cid = Claims.latchWord result abandoned req cid := by
  cases abandoned <;> rfl

section

variable {s t : State} {k req cid graph cls : Nat} {v : BitVec 32}

/-- Without the right: refused; else by the holder, and of a held latch by whether the requester is a host (R244, R246). -/
theorem latchAcquire_eq_of_acquires (h : Claims.acquires s k req cid graph cls t v) :
    s.latchAcquire k req cid graph cls = (t, v) := by
  unfold State.latchAcquire State.latchRight
  rcases h with ⟨hr, rfl, rfl⟩ | ⟨hr, hp, hh, rfl, rfl⟩ | ⟨hr, hp, hh, hlt, rfl, rfl⟩ | ⟨hr, hp, hh, hge, hle, rfl, rfl⟩
  · simp only [hr, Bool.not_false, if_true]
    rfl
  · simp only [hr, hp, hh, Bool.not_true, Bool.false_eq_true, if_false, latchValue_eq_latchWord]
    rfl
  · have hf : isFiringReq req = false := by simp [isFiringReq, hlt]
    simp only [hr, hp, hh, hf, Bool.not_true, Bool.false_eq_true, if_false, if_true, latchValue_eq_latchWord]
  · have hf : isFiringReq req = true := by simp [isFiringReq, hge, hle]
    simp only [hr, hp, hh, hf, Bool.not_true, Bool.false_eq_true, if_false, if_true, latchValue_eq_latchWord]

/-- Without the right: refused; else by whether the latch is held (R245, R246). -/
theorem latchRelease_eq_of_releases (h : Claims.releases s k req t v) : s.latchRelease k req = (t, v) := by
  unfold State.latchRelease State.latchRight
  rcases h with ⟨hr, rfl, rfl⟩ | ⟨hr, hp, hh, rfl, rfl⟩ | ⟨hr, hp, hh, rfl, rfl⟩
  · simp only [hr, Bool.not_false, if_true]
    rfl
  · simp only [hr, hp, hh, Bool.not_true, Bool.false_eq_true, if_false, if_true]
    rfl
  · simp only [hr, hp, hh, Bool.not_true, Bool.false_eq_true, if_false]
    rfl

end

/-! ### The oldest request of a group -/

theorem takeFirst_of_oldest {s : State} {p : UnitReq → Bool} {u : UnitReq} {rest : List UnitReq}
    (h : Claims.oldest s p u rest) : takeFirst p s.units = some (u, rest) := by
  obtain ⟨before, after, hu, rfl, hp, hb⟩ := h
  rw [hu, takeFirst_append p before u after hp hb]

section

variable {s t : State} {g n id k : Nat} {rest : List UnitReq} {v : BitVec 32}

/-! The model's row and `Claims` each write the test of a request as a `match` of their own; the two are equal by
unfolding, which `erw` sees and `rw` does not. -/

/-- The oldest acquire leaves the queue, and its firing takes the read value (R125). -/
theorem serveAcquire_of_oldest {cid : BitVec 24} {gr : BitVec 8} {cls : BitVec 3}
    (ho : Claims.oldest s (Claims.acquireOf g) (.acquire n id k cid gr cls) rest)
    (hv : ({ s with units := rest } : State).latchAcquire k (0x11 + n) cid.toNat gr.toNat cls.toNat = (t, v)) :
    s.serveAcquire g = t.wake n (fun w => w == .unit id) (some (.latch v)) := by
  unfold State.serveAcquire
  erw [takeFirst_of_oldest ho]
  simp only [hv]

/-- The oldest release leaves the queue, and its firing takes the result (R126). -/
theorem serveRelease_of_oldest (ho : Claims.oldest s (Claims.releaseOf g) (.release n id k) rest)
    (hv : ({ s with units := rest } : State).latchRelease k (0x11 + n) = (t, v)) :
    s.serveRelease g = t.wake n (fun w => w == .unit id) (some (.latch v)) := by
  unfold State.serveRelease
  erw [takeFirst_of_oldest ho]
  simp only [hv]

end

/-! ### The latch window -/

/-- Each function sees every latch in its own window (R249, R451). -/
theorem busTarget_latchAddr (fn : Nat) {k : Nat} (hk : k < 4096) : busTarget fn (Claims.latchAddr fn k) = .latch k := by
  by_cases hf : fn = 0
  · subst hf
    exact busTarget_latch_pf _ k rfl hk
  · exact busTarget_latch_vf fn _ k hf (by rw [Claims.latchAddr, if_neg hf]) hk

theorem answers_latch {s : State} (hp : s.pcieUp = true) (hr : s.ready = true) (k : Nat) : s.answers (.latch k) = true := by
  simp [State.answers, hp, hr]

/-- A host read of all bytes returns the read value of the acquire. -/
theorem hostRead_latchAddr {s t : State} {fn k : Nat} {v : BitVec 32} (hk : k < 4096) (hp : s.pcieUp = true)
    (hr : s.ready = true) (hv : s.latchAcquire k fn 0 0 0 = (t, v)) :
    s.hostRead .bar0 fn (Claims.latchAddr fn k) 15 = t.emit (.regData v) := by
  have hbus : s.spaceRead .bar0 fn (Claims.latchAddr fn k) = (t, v.toNat) := by
    refine (busRead_latch (busTarget_latchAddr fn hk) (answers_latch hp hr k)).trans ?_
    rw [hv]
  rw [hostRead_linked hp hbus, enabled_full _ v.isLt, BitVec.ofNat_toNat, BitVec.setWidth_eq]

/-! ### Lift messages -/

theorem applyLift_cons {d : Die} {m : LiftMsg} {rest : List LiftMsg} (h : d.liftMsgs = m :: rest) : d.applyLift =
    { d with liftMsgs := rest, lifts := if m.cls.isSome then tins d.lifts m.latch m else tdel d.lifts m.latch } := by
  simp only [Die.applyLift, h]

/-- Settles O11: the Latch Bank's two rows by the oldest request of the group, the window's two rows by the latch at the
address, each with the answer of the access. -/
theorem latches : Obligations.Latches := by
  refine ⟨?_, ?_, ?_, ?_, ?_⟩
  · intro g s t n id k cid gr cls rest v ho _ ha
    exact next_finish (serveAcquire_of_oldest ho (latchAcquire_eq_of_acquires ha))
  · intro g s t n id k rest v ho hrel
    exact next_finish (serveRelease_of_oldest ho (latchRelease_eq_of_releases hrel))
  · intro n s m rest hm
    exact next_finish (congrArg (s.setDie n.val) (applyLift_cons hm))
  · intro fn k s t v hp hr ha
    exact next_finish (hostRead_latchAddr k.isLt hp hr (latchAcquire_eq_of_acquires ha))
  · intro fn k s t v hp hr hrel
    refine next_finish ((busWrite_latch (busTarget_latchAddr fn.val k.isLt) (answers_latch hp hr k.val)).trans ?_)
    rw [latchRelease_eq_of_releases hrel]

end Sys2Proof.Machine
end

section
/-! Walks of chains (R169, R170, R175), and the dispatch unit (R181-R185): the entries that a walk reads, how it ends, and what
the dispatch unit does with the inputs before and at the first one that it can place. -/

namespace Sys2Proof.Machine

/-! ### The entries that a walk reads (R169) -/

section

variable {s s1 : State} {n : Nat} {w : Walk} {v : View} {l : List (Nat × MsEntry)}

/-- One more record of the chain adds its entry if it matches the walk's token. -/
theorem walkEnts_concat (pre : List (Nat × MsEntry)) (i : Nat) (x : MsEntry) :
    Claims.walkEnts s n w (pre ++ [(i, x)]) =
      if x.isOf w.tok then Claims.walkEnts s n w pre ++ [{ inSet := false, idx := i, e := x }]
      else Claims.walkEnts s n w pre := by
  unfold Claims.walkEnts
  cases h : x.isOf w.tok <;> simp [h]

/-- From the record after those already read, a walk reads on to the one that decides, or to the end of the chain. -/
theorem walkFrom_of_chainPart {e : Nat} (hend : e = 0 ∨ ¬ Claims.undecided s n w v l) :
    ∀ (rest pre : List (Nat × MsEntry)) (r k : Nat), pre ++ rest = l → rest.length < k →
      Claims.chainPart s n rest r e → (∀ j < rest.length, Claims.undecided s n w v (pre ++ rest.take j)) →
      s.walkFrom n w v k r (Claims.walkEnts s n w pre) = some (Claims.walkEnts s n w l) := by
  intro rest
  induction rest with
  | nil =>
    intro pre r k hl hk hc _
    obtain ⟨k, rfl⟩ := Nat.exists_eq_succ_of_ne_zero (Nat.ne_of_gt hk)
    obtain rfl : pre = l := by simpa using hl
    obtain rfl : r = e := hc
    have hstop : (decide (r = 0) || (decideOp v w.tok w.acc (Claims.walkEnts s n w pre)).setDecides) = true := by
      rcases hend with h | h
      · simp [h]
      · simp [Bool.eq_true_of_not_eq_false h]
    unfold State.walkFrom
    rw [if_pos hstop]
  | cons p rest ih =>
    obtain ⟨i, x⟩ := p
    intro pre r k hl hk hc hund
    obtain ⟨k, rfl⟩ := Nat.exists_eq_succ_of_ne_zero (Nat.ne_of_gt (Nat.zero_lt_of_lt hk))
    obtain ⟨rfl, hr, hp, rfl, hc⟩ := hc
    have hgo : Claims.undecided s n w v pre := by simpa using hund 0 (Nat.zero_lt_succ _)
    rw [Claims.undecided] at hgo
    have hnext := ih (pre ++ [(r, recEntry (s.rds (s.recAddr n r) 5))]) _ k (by simp [hl]) (Nat.lt_of_succ_lt_succ hk) hc
      (fun j hj => by simpa using hund (j + 1) (Nat.succ_lt_succ hj))
    rw [walkEnts_concat] at hnext
    simp only [List.mem_cons, List.not_mem_nil, or_false, forall_eq_or_imp, forall_eq] at hp
    obtain ⟨hp0, hp1, hp3, hp4⟩ := hp
    simp only [State.walkFrom, hr, hgo, hp0, hp1, hp3, hp4, decide_false, Bool.or_self, Bool.false_eq_true, if_false]
    exact hnext

theorem walkEnts_of_walkReads (h : Claims.walkReads s n w v l) : s.walkEnts n w v = some (Claims.walkEnts s n w l) := by
  unfold State.walkEnts
  rcases h with ⟨hovf, rfl⟩ | ⟨hovf, hhead, hlen, hund, e, hc, hend⟩
  · rw [if_neg (by simp [hovf])]
    simp [Claims.walkEnts]
  · have hset : (s.mset n w.set).entsOf w.tok = Claims.walkEnts s n w [] := by simp [Claims.walkEnts]
    simp only [hovf, hhead, if_true, Bool.false_eq_true, if_false, hset]
    exact walkFrom_of_chainPart hend l [] _ _ rfl (Nat.lt_succ_of_le hlen) hc (by simpa using hund)

/-- A poisoned head word of a chain (R175). -/
theorem walkEnts_of_poison (hovf : (s.mset n w.set).ovf = true) (hp : (s.rd (s.regionBase n + w.set)).p = true) :
    s.walkEnts n w v = none := by
  simp only [State.walkEnts, hovf, hp, if_true]

/-! ### The end of a walk -/

variable (hb : s.bankState (isBank n w.tok.ip.toNat) = 0) (hl : Claims.looked s n w.tok.ip.toNat s1 v)

include hb hl

/-- The outcome takes effect and frees the slot. -/
theorem endWalk_of_outcome {t : State} (hr : Claims.walkReads s1 n w v l) (ho : Claims.walkOutcome s1 n w v l = some t) :
    s.endWalk n w = Claims.slotFreed t n w := by
  unfold Claims.walkOutcome at ho
  simp only [State.endWalk, sliceLook_of_looked hb hl, walkEnts_of_walkReads hr, ho]
  rfl

/-- The region is full (R170). -/
theorem endWalk_of_full (hr : Claims.walkReads s1 n w v l) (ho : Claims.walkOutcome s1 n w v l = none) :
    s.endWalk n w = s1.holdInsert n w := by
  unfold Claims.walkOutcome at ho
  simp only [State.endWalk, sliceLook_of_looked hb hl, walkEnts_of_walkReads hr, ho]

/-- The chain is abandoned (R175). -/
theorem endWalk_of_poison (hovf : (s1.mset n w.set).ovf = true) (hp : (s1.rd (s1.regionBase n + w.set)).p = true) :
    s.endWalk n w = State.retryWaiting (State.abandonChain
      (s1.updDie n (fun d => { d with walks := d.walks.filter (fun x => x.slot != w.slot) })) n w.set
      (tagDetail w.tok.cid.toNat w.tok.ip.toNat w.tok.colour.toNat)) n := by
  simp only [State.endWalk, sliceLook_of_looked hb hl, walkEnts_of_poison hovf hp]

end

/-! ### The rows of walks -/

section

variable {s : State} {n : Nat} {w : Walk}

theorem walkRow_of_find {slot : Nat} (h : (s.die n).walks.find? (fun w => w.slot == slot && !w.held) = some w) :
    s.walkRow n slot = s.endWalk n w := by
  simp only [State.walkRow, h]

/-- A record is free: in the free chain, or not yet used (R169, R170). -/
theorem noRecord_eq_false {d : Die} (h : d.freeHead ≠ 0 ∨ d.bump < 67108864) : d.noRecord = false := by
  unfold Die.noRecord
  rcases h with h | h
  · simp [h]
  · simp [Nat.not_le.2 h]

/-- The held insert is decided again; the slice goes on when it leaves no insert held (R170). -/
theorem releaseHeld_of_find {t : State} (h : (s.die n).walks.find? (fun w => w.held) = some w)
    (hfree : (s.die n).noRecord = false) (ht : s.endWalk n { w with held := false } = t)
    (hstill : (t.die n).walks.any (fun x => x.held) = false) :
    s.releaseHeld n = t.updDie n (fun d => { d with regionFull := false, regionSince := none }) := by
  simp only [State.releaseHeld, h, hfree, ht, hstill, Bool.false_eq_true, if_false]

end

/-! ### The decision of an input (R183-R185) -/

section

variable {s : State} {n : Nat} {x : DispIn}

/-- The inputs of a die's dispatch unit are not part of any header. -/
theorem hdr_inputs (s : State) (n : Nat) (xs : List DispIn) (c : Nat) : (Claims.inputs s n xs).hdr c = s.hdr c := by
  have hframe (m off : Nat) : (Claims.inputs s n xs).frameRd m off = s.frameRd m off :=
    updDie_frameRd s n m off _ (fun _ => rfl)
  show (if s.cdt c = 0 then _ else hdrOf ((Claims.inputs s n xs).frameRd (s.homeOf c) (s.cdt c - 1)).v) = _
  rw [hframe]
  rfl

variable (hs : Claims.hdrServed s x.item.cid.toNat)

include hs

/-- An item of an Active context goes to the lane of its class; another PE than the affinity PE is counted and noted
(R184). -/
theorem place_active (hst : (s.hdr x.item.cid.toNat).st = 1) :
    s.place n x = (s.lanePush
        (peKey n (Claims.placement s n (s.affinityPe n (s.hdr x.item.cid.toNat).aff) x.released))
        (s.hdr x.item.cid.toNat).cls (Claims.dispatched s n x.item (s.hdr x.item.cid.toNat))).map (fun t =>
      let a := s.affinityPe n (s.hdr x.item.cid.toNat).aff
      let m := Claims.placement s n a x.released
      let t1 := if m != a then t.bump (lmOff n 0x508) 0 32 1 else t
      if m != (s.hdr x.item.cid.toNat).aff then
        t1.setHdr x.item.cid.toNat { t1.hdr x.item.cid.toNat with aff := m }
      else t1) := by
  simp only [State.place, readHdr_served hs, hst]
  rfl

theorem place_parked (hst : (s.hdr x.item.cid.toNat).st = 2) :
    s.place n x = some (s.parkItem (s.hdr x.item.cid.toNat).graph
      (Claims.dispatched s n x.item (s.hdr x.item.cid.toNat))) := by
  simp only [State.place, readHdr_served hs, hst]
  rfl

theorem place_lost (h1 : (s.hdr x.item.cid.toNat).st ≠ 1) (h2 : (s.hdr x.item.cid.toNat).st ≠ 2) :
    s.place n x = some ((s.bump (fabOff 0x408) 0 32 1).event 0 n (fabOff 0x408) 0 0
      (tagDetail x.item.cid.toNat x.item.ip.toNat x.item.colour.toNat)) := by
  simp only [State.place, readHdr_served hs, if_neg h2, if_pos h1]
  rfl

end

/-! ### The inputs in turn (R184) -/

theorem place_refused {s : State} {n : Nat} {y : DispIn} (h : Claims.refused s n y) : s.place n y = none := by
  obtain ⟨hs, hst, hpush⟩ := h
  rw [place_active hs hst, hpush]
  rfl

/-- Inputs that are refused in turn stay before the others. -/
theorem placeFirst_held {s : State} {n : Nat} {rest : List DispIn} : ∀ (a b : List DispIn), Claims.held s n (b ++ a) rest →
    s.placeFirst n b (a ++ rest) = s.placeFirst n (b ++ a) rest
  | [], b, _ => by simp
  | y :: a, b, h => by
    have hy : (s.updDie n (fun d => { d with disp := b ++ (a ++ rest) })).place n y = none := place_refused (h b y a rfl)
    rw [List.append_cons] at h ⊢
    rw [← placeFirst_held a (b ++ [y]) h, List.cons_append, State.placeFirst, hy]

/-- The first input that is not refused is decided, with the inputs around it left in their places. -/
theorem dispatchOne_of_held {s t : State} {n : Nat} {kept rest : List DispIn} {x : DispIn}
    (hd : (s.die n).disp = kept ++ x :: rest) (hk : Claims.held s n kept (x :: rest))
    (hx : (Claims.inputs s n (kept ++ rest)).place n x = some t) : s.dispatchOne n = t := by
  have hx' : (s.updDie n (fun d => { d with disp := kept ++ rest })).place n x = some t := hx
  rw [State.dispatchOne, hd, placeFirst_held kept [] hk, List.nil_append, State.placeFirst, hx']

/-- With every input refused nothing changes. -/
theorem dispatchOne_refused {s : State} {n : Nat} (h : Claims.held s n (s.die n).disp []) : s.dispatchOne n = s := by
  have hrow := placeFirst_held (s.die n).disp [] h
  rw [List.append_nil] at hrow
  exact hrow

/-- Settles O10: walks by what they read and whether the region is full, the dispatch unit by the header of the first input
that is not refused. -/
theorem walksAndDispatch : Obligations.WalksAndDispatch := by
  refine ⟨fun n slot s s1 w v hw hb hl => ⟨fun l hr => ⟨fun t ho => ?_, fun ho => ?_⟩, fun hovf hp => ?_⟩,
    fun n s s1 t w v l hw hfree hb hl hr ho hstill => ?_,
    fun n s s1 kept x rest h a m hd hk hh hs hs1 ha hm => ?_,
    fun n s hk => next_finish (dispatchOne_refused hk)⟩
  · exact next_finish ((walkRow_of_find hw).trans (endWalk_of_outcome hb hl hr ho))
  · exact next_finish ((walkRow_of_find hw).trans (endWalk_of_full hb hl hr ho))
  · exact next_finish ((walkRow_of_find hw).trans (endWalk_of_poison hb hl hovf hp))
  · exact next_finish (releaseHeld_of_find hw (noRecord_eq_false hfree)
      (endWalk_of_outcome (w := { w with held := false }) hb hl hr ho) hstill)
  · have hh1 : s1.hdr x.item.cid.toNat = h := by rw [hs1, hdr_inputs, hh]
    have hs2 : Claims.hdrServed s1 x.item.cid.toNat := by rw [hs1]; exact hs
    have ha1 : s1.affinityPe n.val h.aff = a := by rw [hs1, ha]; rfl
    have hm1 : Claims.placement s1 n.val a x.released = m := by rw [hs1, hm]; rfl
    have hi1 : Claims.dispatched s1 n.val x.item h = Claims.dispatched s n.val x.item h := by rw [hs1]; rfl
    have hrow {t : State} (hx : s1.place n.val x = some t) : exec (.dispatchPlacement n) s = .next t.finish :=
      next_finish (dispatchOne_of_held hd hk (hs1 ▸ hx))
    refine ⟨fun hst t ht => ?_, fun hst => ?_, fun h1 h2 => ?_⟩
    · have hplace := place_active (n := n.val) hs2 (hh1.symm ▸ hst)
      simp only [hh1, ha1, hm1, hi1, ht, Option.map_some] at hplace
      refine ⟨fun hma hah => hrow ?_, fun hma hmh => hrow ?_⟩
      · simpa [hma, hah] using hplace
      · simpa [hma, hmh] using hplace
    · have hplace := place_parked (n := n.val) hs2 (hh1.symm ▸ hst)
      rw [hh1, hi1] at hplace
      exact hrow hplace
    · exact hrow (place_lost hs2 (hh1.symm ▸ h1) (hh1.symm ▸ h2))

end Sys2Proof.Machine
end

section
/-! The operations of a Silt word queue (R191-R201), one equation per case of each, and the order of the stored words that
each of them keeps or changes. -/

namespace Sys2Proof.Machine

/-! ### Pushes -/

section

variable {s : State} {q cls : Nat} {w : SWord} {rest : List SWord}

theorem siltWord_full {bad : Bool} (h : (s.queue q).full cls = true) :
    s.siltWord q cls w rest bad = s.setQueue q { s.queue q with status := .refuse } := if_pos h

theorem siltWord_committed (h : (s.queue q).full cls = false) : s.siltWord q cls w rest false =
    s.putQueue q cls (s.queue q) (Claims.committed (s.queue q) w rest) false := by
  unfold State.siltWord
  rw [if_neg (by simp [h]), if_neg Bool.false_ne_true]
  rfl

theorem siltWord_bad (h : (s.queue q).full cls = false) : s.siltWord q cls w rest true =
    (s.bump (statReg cls) 0 8 1).putQueue q cls (s.queue q)
      { (s.queue q).rewind cls with inbox := rest, drop := if w.eop then .none else .rewound, status := .dropRewound } false := by
  unfold State.siltWord
  rw [if_neg (by simp [h]), if_pos rfl]
  rfl

theorem siltPush_word (h : Claims.pushing s q w rest) : s.siltPush q cls .word = s.siltWord q cls w rest false := by
  obtain ⟨hin, hdrop⟩ := h
  simp only [State.siltPush, hin, hdrop]
  rfl

theorem siltPush_badParity (h : Claims.pushing s q w rest) :
    s.siltPush q cls .badParity = s.siltWord q cls w rest true := by
  obtain ⟨hin, hdrop⟩ := h
  simp only [State.siltPush, hin, hdrop]
  rfl

/-- A word of a packet that a flush has cut off is counted and dropped (R200). -/
theorem siltPush_flushed (hin : (s.queue q).inbox = w :: rest) (hdrop : (s.queue q).drop = .flushed) :
    s.siltPush q cls .word = (s.bump (statReg cls) 16 8 1).putQueue q cls (s.queue q)
      { s.queue q with inbox := rest, drop := if w.eop then .none else .flushed, status := .dropFlushed } false := by
  simp only [State.siltPush, hin, hdrop]

theorem siltPush_abort : s.siltPush q cls .abort = s.siltAbort q cls := by
  simp only [State.siltPush]

theorem siltAbort_rewinds (h : (s.queue q).drop = .none) : s.siltAbort q cls =
    (s.bump (statReg cls) 0 8 1).putQueue q cls (s.queue q)
      { (s.queue q).rewind cls with inbox := Claims.afterPacket ((s.queue q).rewind cls).inbox } false := if_pos h

theorem siltAbort_dropping (h : (s.queue q).drop ≠ .none) : s.siltAbort q cls = s.putQueue q cls (s.queue q)
    { s.queue q with inbox := Claims.afterPacket (s.queue q).inbox, drop := .none } false := if_neg h

/-! ### Pops and refills -/

/-- The parity that the statements recompute is the one that the queue stores (R191), so a word is delivered as they say. -/
theorem deliver_eq_delivered (w : SWord) : w.deliver = Claims.delivered w := rfl

theorem delivered_value (w : SWord) : (Claims.delivered w).w.v = w.w.v := by
  unfold Claims.delivered
  split <;> rfl

theorem siltTake_abort (h : (s.queue q).abortDue = true) : s.siltTake q cls =
    some (Claims.abortWord, (s.bump (statReg cls) 8 8 1).putQueue q cls (s.queue q)
      { s.queue q with abortDue := false, last := Claims.abortWord } true) := if_pos h

theorem siltTake_invisible (ha : (s.queue q).abortDue = false) (hv : (s.queue q).visible (s.cutThr cls) = 0) :
    s.siltTake q cls = none := by
  simp only [State.siltTake, ha, hv, if_true, Bool.false_eq_true, if_false]

theorem siltTake_front (ha : (s.queue q).abortDue = false) (hv : (s.queue q).visible (s.cutThr cls) ≠ 0)
    (hh : (s.queue q).head = w :: rest) : s.siltTake q cls =
      some (Claims.delivered w, s.putQueue q cls (s.queue q) (Claims.popped (s.queue q) w rest
        (decide (0 < (s.queue q).openWords) && (s.queue q).stored == (s.queue q).openStored)) true) := by
  unfold State.siltTake
  rw [if_neg (by simp [ha]), if_neg hv]
  simp only [hh]
  rfl

/-- Every visible entry is in the head, so an empty head shows none (R192). -/
theorem visible_of_empty_head {x : Silt} {thr : Nat} (ha : x.abortDue = false) (hh : x.head = []) : x.visible thr = 0 := by
  simp [Silt.visible, ha, hh]

/-- A word that is taken is the head's first one, unless it is the abort word. -/
theorem siltTake_eq_some {t : State} (ha : (s.queue q).abortDue = false) (h : s.siltTake q cls = some (w, t)) :
    ∃ v rest opened, (s.queue q).head = v :: rest ∧ w = Claims.delivered v ∧
      t = s.putQueue q cls (s.queue q) (Claims.popped (s.queue q) v rest opened) true := by
  by_cases hv : (s.queue q).visible (s.cutThr cls) = 0
  · rw [siltTake_invisible ha hv] at h; cases h
  · cases hh : (s.queue q).head with
    | nil => exact absurd (visible_of_empty_head ha hh) hv
    | cons v rest =>
      rw [siltTake_front ha hv hh] at h
      cases h
      exact ⟨v, rest, _, rfl, rfl, rfl⟩

/-- A block that comes back whole moves from the middle to the head (R192). -/
theorem siltRefill_whole (hr : (s.queue q).refill = true) (hm : (s.queue q).mid ≠ []) : s.siltRefill q cls [] =
    s.putQueue q cls (s.queue q)
      { s.queue q with head := (s.queue q).head ++ (s.queue q).mid.take 32, mid := (s.queue q).mid.drop 32 } false := by
  have hws : ((s.queue q).mid.take 32).zipIdx.map Prod.fst = (s.queue q).mid.take 32 := List.zipIdx_map_fst ..
  simp [State.siltRefill, hr, hm, hws]

theorem siltRefill_unasked {lost : List (Fin 32)} (h : ¬ ((s.queue q).refill = true ∧ (s.queue q).mid ≠ [])) :
    s.siltRefill q cls lost = s := by
  unfold State.siltRefill
  rw [if_neg (by simpa using h)]

end

/-! ### The stored words -/

theorem words_promote (cls : Nat) (x : Silt) : Claims.words (x.promote cls) = Claims.words x := by
  unfold Silt.promote
  split
  case isTrue h => simp [Claims.words, List.isEmpty_iff.mp h]
  case isFalse => rfl

theorem words_spillOnce (cls : Nat) (x : Silt) : Claims.words (x.spillOnce cls) = Claims.words x := by
  unfold Silt.spillOnce
  split
  case isTrue => simp [Claims.words]
  case isFalse => rfl

theorem words_settle (cls : Nat) (x : Silt) : Claims.words (x.settle cls) = Claims.words x :=
  (words_spillOnce cls _).trans (words_promote cls x)

theorem length_words (x : Silt) : (Claims.words x).length = x.stored := by
  simp [Claims.words, Silt.stored, Nat.add_assoc]

/-- What is removed last first is what stands behind the first words that stay. -/
theorem words_dropNewest (cls k : Nat) (x : Silt) :
    Claims.words (x.dropNewest cls k) = (Claims.words x).take (x.stored - k) := by
  simp only [Claims.words, Silt.dropNewest, Silt.stored, List.take_append, List.length_append]
  congr 1
  · congr 1 <;> rw [List.take_eq_take_iff] <;> omega
  · rw [List.take_eq_take_iff]; omega

/-- A rewind removes the open packet's stored words, which are the newest (R196). -/
theorem words_rewind (cls : Nat) (x : Silt) :
    Claims.words (x.rewind cls) = (Claims.words x).take (x.stored - x.openStored) := words_dropNewest cls x.openStored x

/-- A queue after a change holds the words of the change: only its parts are balanced anew. -/
theorem words_putQueue (s : State) (q cls : Nat) (x y : Silt) (popped : Bool) :
    Claims.words ((s.putQueue q cls x y popped).queue q) = Claims.words y := by
  rw [← words_settle cls y]
  simp only [State.putQueue, queue_setQueue]
  rfl

theorem words_committed (x : Silt) (w : SWord) (rest : List SWord) :
    Claims.words (Claims.committed x w rest) = Claims.words x ++ [Claims.sealed w] := (List.append_assoc ..).symm

theorem words_popped {x : Silt} {v : SWord} {rest : List SWord} (h : x.head = v :: rest) (opened : Bool) :
    Claims.words x = v :: Claims.words (Claims.popped x v rest opened) := by
  simp [Claims.words, Claims.popped, h]

theorem words_siltRefill (s : State) (q cls : Nat) :
    Claims.words ((s.siltRefill q cls []).queue q) = Claims.words (s.queue q) := by
  by_cases h : (s.queue q).refill = true ∧ (s.queue q).mid ≠ []
  · rw [siltRefill_whole h.1 h.2, words_putQueue]
    simp [Claims.words]
  · rw [siltRefill_unasked h]

theorem words_siltFlush (s : State) (q cls : Nat) : Claims.words ((s.siltFlush q cls).queue q) = [] := by
  simp only [State.siltFlush, queue_setQueue]
  rfl

/-- Settles O19: each operation by what it leaves of the head, the middle and the tail. -/
theorem siltOrder : Obligations.SiltOrder := by
  refine ⟨words_settle, words_rewind, words_putQueue, fun s q cls w rest hp hf => ?_, fun s t q cls w ha h => ?_,
    words_siltRefill, words_siltFlush⟩
  · rw [siltPush_word hp, siltWord_committed hf, words_putQueue, words_committed]
  · obtain ⟨v, rest, opened, hh, rfl, rfl⟩ := siltTake_eq_some ha h
    refine ⟨v, ?_, rfl, delivered_value v⟩
    rw [words_putQueue]
    exact words_popped hh opened

end Sys2Proof.Machine
end

section
/-! The commands of the Silt queues (R192-R202): the row of each at a die-link token queue, at a fail-ingest queue, and at
the end of a Drip timer. -/

namespace Sys2Proof.Machine

theorem siltClass_link {q : Nat} (h : q < 192) : siltClass q = some 1 := if_pos h

theorem siltClass_fail {q : Nat} (h : 256 ≤ q) (h' : q < 272) : siltClass q = some 3 := by
  unfold siltClass
  rw [if_neg (by omega), if_neg (by omega), if_pos h']

section

variable {s : State} {q : Nat}

/-! ### SILT_PUSH -/

theorem exec_siltPush_link (h : q < 192) (env : PushEnv) : exec (.siltPush q env) s = .next (s.siltPush q 1 env).finish := by
  have hrow : s.pushRow q env = s.siltPush q 1 env := by simp only [State.pushRow, siltClass_link h]
  rw [← hrow]
  rfl

/-! ### SILT_POP -/

theorem exec_siltPop (s : State) (q : Nat) (e : BitVec 8) :
    exec (.siltPop ⟨q, e⟩) s = .next ((s.upsetFront q e).popRow q).finish := rfl

theorem upsetFront_zero (s : State) (q : Nat) : s.upsetFront q 0 = s := if_pos rfl

/-- Stored parity of a word queue's front word changes by the two low bits of the upset (R194). -/
theorem upsetFront_front {c : Nat} {e : BitVec 8} {w : SWord} {rest : List SWord} (hc : siltClass q = some c) (he : e ≠ 0)
    (hh : (s.queue q).head = w :: rest) : s.upsetFront q e =
      s.setQueue q { s.queue q with head := { w with par := w.par ^^^ e.setWidth 2 } :: rest } := by
  simp only [State.upsetFront, he, hc, Silt.upset, hh, if_false]

theorem exec_siltPop_link (h : q < 192) : exec (.siltPop ⟨q, 0⟩) s = .next (s.popLink q).finish := by
  have hrow : s.popRow q = s.popLink q := by simp only [State.popRow, siltClass_link h]
  rw [exec_siltPop, upsetFront_zero, hrow]

theorem popLink_diag (h : (s.queue q).diag = true) : s.popLink q = s := by
  unfold State.popLink
  rw [if_pos (by simp [h])]

section

variable {w : SWord} {t : State} (hd : (s.queue q).diag = false)
  (hr : (s.queue q).asm ≠ [] ∨ s.linkReady (q / 8) (q % 8) = true) (hb : s.behindWrite (q / 8) (s.queue q).asm = false)
  (ht : s.siltTake q 1 = some (w, t))

include hd hr in
/-- The test of `popLink` under which nothing is popped fails. -/
theorem popLink_not_held : ((s.queue q).diag ||
    ((s.queue q).asm.isEmpty && !s.linkReady (q / 8) (q % 8))) = false := by
  rcases hr with hr | hr <;> simp [hd, hr]

include hd hr hb ht

/-- A word before the last of its token joins those taken. -/
theorem popLink_joins (he : w.eop = false) :
    s.popLink q = t.setQueue q { t.queue q with asm := (t.queue q).asm ++ [w] } := by
  simp [State.popLink, popLink_not_held hd hr, hb, ht, he]

/-- With its last word a token leaves for the other die. -/
theorem popLink_leaves {u : State} {ws : List PWord} (he : w.eop = true)
    (hu : (t.setQueue q { t.queue q with asm := [] }).takeItem q 1 ((t.queue q).asm ++ [w]) = (u, some ws)) :
    s.popLink q = u.queueFlit (q / 8) (tokenFlit (itemToken ws) (s.tokenDest (itemToken ws))) := by
  simp [State.popLink, popLink_not_held hd hr, hb, ht, he, hu]

/-- A token that its lost words or an abort ended is dropped (R195). -/
theorem popLink_drops {u : State} (he : w.eop = true)
    (hu : (t.setQueue q { t.queue q with asm := [] }).takeItem q 1 ((t.queue q).asm ++ [w]) = (u, none)) :
    s.popLink q = u := by
  simp [State.popLink, popLink_not_held hd hr, hb, ht, he, hu]

end

theorem exec_siltPop_fail {w : SWord} {t : State} (hq : 256 ≤ q) (hq' : q < 272) (hd : (s.queue q).diag = false)
    (hp : s.handlerParked (q - 256) = false) (ht : s.siltTake q 3 = some (w, t)) :
    exec (.siltPop ⟨q, 0⟩) s = .next (((t.noteLost q w).failWord (q - 256) w).1).finish := by
  have hrow : s.popRow q = ((t.noteLost q w).failWord (q - 256) w).1 := by
    simp [State.popRow, siltClass_fail hq hq', hd, hp, ht]
  rw [exec_siltPop, upsetFront_zero, hrow]

/-! ### REFILL_DONE -/

theorem exec_refillDone_word {c : Nat} (hc : siltClass q = some c) (lost : List (Fin 32)) :
    exec (.refillDone q lost) s = .next (s.siltRefill q c lost).finish := by
  have hrow : s.refillRow q lost = s.siltRefill q c lost := by simp only [State.refillRow, hc]
  rw [← hrow]
  rfl

/-! ### DRIP -/

/-- At the end of a timer whose action was not taken, the class's action is taken once (R202). -/
theorem exec_drip_dripping {c due : Nat} {t : State} (hc : siltClass q = some c) (h : Claims.dripping s q due)
    (ht : t = Claims.dripped s q due) : exec (.drip q) s = .next (State.finish (
      let act := t.fld (sqOff (4 * c)) 6 2
      if act = 0 then t
      else if act = 2 then t.msi 0 (t.fld (sqOff (4 * c)) 8 11)
      else if act = 3 ∧ c = 3 then t.failDrip (q - 256)
      else if act = 3 ∧ c = 4 then t.ringWrite (q - 272)
      else t.unreported 4 q (queueSrc q) 0 (queueFn q) 0)) := by
  obtain ⟨hdue, hdiag, htaken⟩ := h
  subst ht
  show Host.Outcome.next (s.dripRow q).finish = _
  simp only [State.dripRow, hc, hdue, hdiag, htaken, Bool.or_self, Bool.false_eq_true, if_false]
  rfl

end

/-- Settles O18: each command by the row of its queue, the row by the case of the queue operation. -/
theorem siltCommands : Obligations.SiltCommands := by
  intro s q
  refine ⟨fun w rest hq hp => ⟨fun hf => ?_, fun hf => ?_, fun hf => ?_, ?_⟩, fun w rest hq hin hdrop => ?_,
    fun hq hdrop => ?_, fun e => ?_, fun e w rest hq => upsetFront_front (siltClass_link hq), fun hq hd => ?_,
    fun w t hq hd hr hb ht => ⟨fun he => ?_, fun u ws he hu => ?_, fun u he hu => ?_⟩,
    fun w t => exec_siltPop_fail, fun c w rest => siltTake_front, fun c => siltTake_abort, fun c hc hr hm => ?_,
    fun c due t hc hd ht => ?_⟩
  · rw [exec_siltPush_link hq, siltPush_word hp, siltWord_full hf]
  · rw [exec_siltPush_link hq, siltPush_word hp, siltWord_committed hf]
  · rw [exec_siltPush_link hq, siltPush_badParity hp, siltWord_bad hf]
  · rw [exec_siltPush_link hq, siltPush_abort, siltAbort_rewinds hp.2]
  · rw [exec_siltPush_link hq, siltPush_flushed hin hdrop]
  · rw [exec_siltPush_link hq, siltPush_abort, siltAbort_dropping hdrop]
  · rw [exec_siltPop, exec_siltPop, upsetFront_zero]
  · rw [exec_siltPop_link hq, popLink_diag hd]
  · rw [exec_siltPop_link hq, popLink_joins hd hr hb ht he]
  · rw [exec_siltPop_link hq, popLink_leaves hd hr hb ht he hu]
  · rw [exec_siltPop_link hq, popLink_drops hd hr hb ht he hu]
  · rw [exec_refillDone_word hc, siltRefill_whole hr hm]
  · rw [exec_drip_dripping hc hd ht]
    refine ⟨fun ha => ?_, fun ha => ?_, fun ha => ?_⟩ <;> simp [ha]

end Sys2Proof.Machine
end

section
/-! The rows of the storage-pressure controller (R206-R216): the row of each command in each case that the rules tell apart. -/

namespace Sys2Proof.Machine

/-! ### Levels (R207, R208) -/

section

variable {s : State} {n : Nat}

theorem evalDie_up (h : (s.die n).up = true) : s.evalDie n =
    (s.updDie n (fun d => { d with level := Claims.levelOf s (s.die n).level 0 (s.dieFigures n) })).syncCredits n := by
  simp only [State.evalDie, h, if_true, Claims.levelOf, Nat.zero_add]

theorem evalDie_down (h : (s.die n).up = false) : s.evalDie n = s := by
  simp only [State.evalDie, h, Bool.false_eq_true, if_false]

/-- The new package level counts for injection and for the test of each graph at the same instant (R208, R214). -/
theorem evalPackage_eq (s : State) : s.evalPackage =
    let u := (Claims.leveled (s.passMod 256 0)).syncInject
    ((u.graphs.map (fun p => p.1)).filter u.quiescent).foldl (fun v g => v.respond 1 g 0 0xFF 0) u := rfl

/-! ### Credits and floors (R211, R213) -/

theorem refillWindow_up (h : (s.die n).up = true) : s.refillWindow n = (List.range 64).foldl (fun t k =>
    t.setPe (peKey n k) (Claims.refilled s (s.effLevel n) (t.pe (peKey n k)))) s := by
  simp only [State.refillWindow, h, if_true, Claims.refilled]

section

variable {c e : Nat} (hsince : lget none (s.die n).floorSince c = some e)

include hsince

theorem floorHeldFor_done (hdone : lget false (s.die n).floorDone c = true) : s.floorHeldFor n c = s := by
  simp only [State.floorHeldFor, hsince, hdone, Bool.true_or, if_true]

theorem floorHeldFor_first (hup : (s.die n).up = true) (hdone : lget false (s.die n).floorDone c = false) :
    s.floorHeldFor n c =
      (((s.passEdges (e + 1000001)).updDie n (fun d => { d with floorDone := lset d.floorDone c true })).setFld
        (tmpOff 0x28) c 1 1).err 0 3 n (tmpOff 0x28) c 0 0x1F c 0 := by
  simp only [State.floorHeldFor, hsince, hdone, hup, Bool.not_true, Bool.or_self, Bool.false_eq_true, if_false]

end

/-! ### Storage deadlock (R215) -/

/-- The declaration of a victim begins the region's further period. -/
def State.victimNoted (t : State) (n : Nat) (r : Region) : State :=
  { t with victims := tins t.victims (regionKey n r) (t.period n) }

section

variable {b k : Nat} (hup : (s.die n).up = true)

include hup

/-- In a region without a victim yet, the period counts from the instant at which the region became full. -/
theorem storageDeadlock_spared {r : Region} (hfull : s.fullSince n r = some (b, k))
    (hnew : tfind s.victims (regionKey n r) = none)
    (hv : (s.passCycles n (b + k)).victim ((s.passCycles n (b + k)).candidates n r) = none) :
    s.storageDeadlock n r = s.passCycles n (b + k) := by
  simp only [State.storageDeadlock, hfull, hup, hnew, hv, Bool.not_true, Bool.false_eq_true, if_false]

theorem storageDeadlock_overflow {g : Nat} (hfull : s.fullSince n .overflow = some (b, k))
    (hnew : tfind s.victims (regionKey n .overflow) = none)
    (hv : (s.passCycles n (b + k)).victim ((s.passCycles n (b + k)).candidates n .overflow) = some g) :
    s.storageDeadlock n .overflow = ((s.passCycles n (b + k)).victimNoted n .overflow).respond 2 g 1 n 0 := by
  simp only [State.storageDeadlock, hfull, hup, hnew, hv, Bool.not_true, Bool.false_eq_true, if_false, State.victimNoted]

theorem storageDeadlock_lane {p : Fin 64} {c : Fin 8} {g : Nat} (hfull : s.fullSince n (.lane p c) = some (b, k))
    (hnew : tfind s.victims (regionKey n (.lane p c)) = none)
    (hv : (s.passCycles n (b + k)).victim ((s.passCycles n (b + k)).candidates n (.lane p c)) = some g) :
    s.storageDeadlock n (.lane p c) =
      ((s.passCycles n (b + k)).victimNoted n (.lane p c)).respond 2 g 2 n (n * 512 + p.val * 8 + c.val) := by
  simp only [State.storageDeadlock, hfull, hup, hnew, hv, Bool.not_true, Bool.false_eq_true, if_false, State.victimNoted]

end

end

/-! ### The rows

The sample of the figures, the package level at the dies and the refill for injection have one case each. -/

theorem exec_dieLevelEvaluation (s : State) (n : Fin 6) : exec (.dieLevelEvaluation n) s = .next (s.evalDie n.val).finish := rfl

theorem exec_packageLevelEvaluation (s : State) : exec .packageLevelEvaluation s = .next s.evalPackage.finish := rfl

theorem exec_creditWindowRefill (s : State) (n : Fin 6) :
    exec (.creditWindowRefill n) s = .next (s.refillWindow n.val).finish := rfl

theorem exec_floorHeld (s : State) (n : Fin 6) (c : Fin 8) :
    exec (.floorHeld n c) s = .next (s.floorHeldFor n.val c.val).finish := rfl

theorem exec_storageDeadlock (s : State) (n : Fin 6) (r : Region) :
    exec (.storageDeadlock n r) s = .next (s.storageDeadlock n.val r).finish := rfl

theorem exec_packageFigureSample (s : State) : exec .packageFigureSample s = .next s.sampleFigures.finish := rfl

theorem exec_packageLevelApply (s : State) : exec .packageLevelApply s = .next s.applyPackage.finish := rfl

theorem exec_injectCreditRefill (s : State) : exec .injectCreditRefill s = .next s.refillInject.finish := rfl

/-- Settles O20: each row by whether the die is up, by the floor's episode, and by the victim of the region. -/
theorem pressureRows : Obligations.PressureRows := by
  intro s
  refine ⟨fun n => ⟨fun hup => ?_, fun hup => ?_, fun hup => ?_⟩, fun t ht => ?_, fun t u ht hu => ?_, fun t ht => ?_,
    fun t ht => ?_, fun n c e t hup hsince ht => ⟨fun hdone => ?_, fun hdone => ?_⟩,
    fun n r b k t hup hfull hnew ht => ⟨fun hv => ?_, fun g hv => ?_⟩⟩
  · rw [exec_dieLevelEvaluation, evalDie_up hup]
  · rw [exec_dieLevelEvaluation, evalDie_down hup]
  · rw [exec_creditWindowRefill, refillWindow_up hup]
  · rw [exec_packageFigureSample, State.sampleFigures, ht]
  · rw [exec_packageLevelEvaluation, evalPackage_eq, hu, ht]
  · rw [exec_packageLevelApply, State.applyPackage, ht]
  · rw [exec_injectCreditRefill, State.refillInject, ht]
  · rw [exec_floorHeld, floorHeldFor_first hsince hup hdone, ht]
  · rw [exec_floorHeld, floorHeldFor_done hsince hdone]
  · subst ht
    rw [exec_storageDeadlock, storageDeadlock_spared hup hfull hnew hv]
  · subst ht
    cases r with
    | overflow =>
      rw [exec_storageDeadlock, storageDeadlock_overflow hup hfull hnew hv]
      rfl
    | lane p c =>
      rw [exec_storageDeadlock, storageDeadlock_lane hup hfull hnew hv]
      rfl

end Sys2Proof.Machine
end

section
/-! The requests of a host read (R236, R259, R339): a first request up to an aligned address, then whole steps, so that the
fuel of `State.readHost` is enough for its range. -/

namespace Sys2Proof.Machine

/-- A bound on the requests of a range: where the address is aligned to 128 bytes, every request but the last takes at least
128 bytes and leaves the next one aligned; else one further request, which may end at a 4 KiB boundary, comes before. -/
def requestBound (a len : Nat) : Nat := if len = 0 then 0 else if a % 128 = 0 then len / 64 + 1 else len / 64 + 2

section

variable {a len most : Nat}

/-- A request is not empty, ends within its range and its 4 KiB, and its doublewords stay within the maximum size. -/
theorem requestLen_bounds (hl : 0 < len) (hm : 128 ≤ most) : 0 < requestLen a len most ∧ requestLen a len most ≤ len ∧
    a % 4096 + requestLen a len most ≤ 4096 ∧ a % 4 + requestLen a len most ≤ most := by
  unfold requestLen
  omega

theorem requestBound_rest (hl : 0 < len) (hm : 128 ≤ most) (hd : most % 128 = 0) :
    requestBound (a + requestLen a len most) (len - requestLen a len most) < requestBound a len := by
  unfold requestBound requestLen
  by_cases ha : a % 128 = 0
  · simp only [ha, if_true]
    split_ifs <;> omega
  · simp only [ha, if_false]
    split_ifs <;> omega

end

/-- The programmed Max_Read_Request_Size is a multiple of 128 bytes (R339). -/
theorem mrrs_bounds (s : State) : 128 ≤ s.mrrs ∧ s.mrrs % 128 = 0 :=
  ⟨Nat.le_mul_of_pos_right _ (Nat.two_pow_pos _), Nat.mul_mod_right _ _⟩

/-- With fuel for the bound, the requests cover the range, by induction on the fuel. -/
theorem hostReads_covers (k : Nat) (s : State) (a len : Nat) (ns : Bool) (fn : Nat) (hk : requestBound a len ≤ k) :
    ∃ rs : List (Nat × Nat), State.hostReads k s a len ns fn =
        { s with outbox := s.outbox ++ rs.map (fun r => Out.hostRead r.1 r.2 ns fn) } ∧
      Claims.covers a len rs ∧ ∀ r ∈ rs, r.1 % 4096 + r.2 ≤ 4096 ∧ r.1 % 4 + r.2 ≤ s.mrrs := by
  induction k generalizing s a len with
  | zero =>
    have hl : len = 0 := by unfold requestBound at hk; split_ifs at hk <;> omega
    exact ⟨[], by simp [State.hostReads], hl, by simp⟩
  | succ k ih =>
    by_cases hl : len = 0
    · exact ⟨[], by simp [State.hostReads, hl], hl, by simp⟩
    · obtain ⟨hm, hd⟩ := mrrs_bounds s
      have hpos : 0 < len := Nat.pos_of_ne_zero hl
      obtain ⟨h0, hle, h4k, hmr⟩ := requestLen_bounds (a := a) hpos hm
      have hrest := requestBound_rest (a := a) hpos hm hd
      obtain ⟨rs, hrs, hcov, hall⟩ := ih (s.emit (.hostRead a (requestLen a len s.mrrs) ns fn)) _ _
        (Nat.lt_succ_iff.mp (hrest.trans_le hk))
      refine ⟨(a, requestLen a len s.mrrs) :: rs, ?_, ⟨rfl, h0, hle, hcov⟩, ?_⟩
      · rw [State.hostReads, if_neg hl]
        refine hrs.trans ?_
        simp only [State.emit, List.map_cons, List.append_assoc, List.singleton_append]
      · intro r hr
        rcases List.mem_cons.mp hr with rfl | hr
        · exact ⟨h4k, hmr⟩
        · exact hall r hr

/-- Settles O53: the fuel of a host read is at least the bound on its requests. -/
theorem hostRequests : Obligations.HostRequests := by
  intro s a len ns fn
  refine hostReads_covers _ s a len ns fn ?_
  unfold requestBound
  split_ifs <;> omega

/-- A read of 64 aligned bytes is one request. -/
theorem readHost_aligned (s : State) {a : Nat} (ha : a % 64 = 0) (ns : Bool) (fn : Nat) :
    s.readHost a 64 ns fn = s.emit (.hostRead a 64 ns fn) := by
  have hm := (mrrs_bounds s).1
  have hn : requestLen a 64 s.mrrs = 64 := by unfold requestLen; omega
  simp only [State.readHost, State.hostReads, hn]
  rfl

end Sys2Proof.Machine
end

section
/-! The commands on channels, banks, repairs, ports and the epoch (R242, R260, R270, R295, R296, R364): each in the state in
which it is next. -/

namespace Sys2Proof.Machine

section

variable {t : State} {c : Cmd}

/-! ### BMV_START -/

theorem bmvStartCmd_busy (h : (t.chan c.index).active = true) : t.bmvStartCmd c = t.reply c 0x30 0 0 0 := if_pos h

theorem bmvStartCmd_refused {e w : Nat} (h : (t.chan c.index).active = false)
    (hd : t.descCheck c.index c.fn c.bytes = some (e, w)) : t.bmvStartCmd c = t.reply c e 0 0 0 := by
  simp only [State.bmvStartCmd, h, hd, Bool.false_eq_true, if_false]

theorem bmvStartCmd_starts (h : (t.chan c.index).active = false) (hd : t.descCheck c.index c.fn c.bytes = none) :
    t.bmvStartCmd c = t.setChan c.index (Claims.startedChan (t.chan c.index) c) := by
  simp only [State.bmvStartCmd, h, hd, Bool.false_eq_true, if_false, Claims.startedChan]

/-! ### BMV_STOP -/

theorem bmvStopCmd_idle (h : (t.chan c.index).active = false) : t.bmvStopCmd c = t.reply c 0 0xFF 0 0 := by
  simp only [State.bmvStopCmd, h, Bool.not_false, if_true]

theorem bmvStopCmd_busy (h : (t.chan c.index).active = true) (hs : (t.chan c.index).stopping.isSome = true) :
    t.bmvStopCmd c = t.reply c 0x30 0 0 0 := by
  simp only [State.bmvStopCmd, h, hs, Bool.not_true, Bool.false_eq_true, if_false, if_true]

theorem bmvStopCmd_stops (h : (t.chan c.index).active = true) (hs : (t.chan c.index).stopping = none) :
    t.bmvStopCmd c = t.bmvStop c.index (c.par 0 8 == 1) := by
  simp only [State.bmvStopCmd, h, hs, Option.isSome_none, Bool.not_true, Bool.false_eq_true, if_false]

end

section

variable {s : State} {ch : Nat} {abort : Bool}

/-- A descriptor with words to write stops after its bursts, or, for ABORT, after those whose writes have begun (R270). -/
theorem bmvStop_running (hr : (s.chan ch).running = true) (hn : (s.chan ch).doneWords ≠ (descOf (s.chan ch).desc).n) :
    s.bmvStop ch abort = s.setChan ch (Claims.stoppingChan (s.chan ch) abort) := by
  simp only [State.bmvStop, hr, hn, Bool.not_true, Bool.false_eq_true, if_false, Claims.stoppingChan]

/-- After the last write the descriptor ends DONE (R270). -/
theorem bmvStop_written (hr : (s.chan ch).running = true) (hn : (s.chan ch).doneWords = (descOf (s.chan ch).desc).n) :
    s.bmvStop ch abort =
      s.setChan ch { s.chan ch with stopping := some abort, err := some ((s.chan ch).doneWords, 0) } := by
  simp only [State.bmvStop, hr, if_pos hn, Bool.not_true, Bool.false_eq_true, if_false]

theorem bmvStop_between (hr : (s.chan ch).running = false) :
    s.bmvStop ch abort = s.bmvStopAt ch (if abort then 2 else 1) := by
  simp only [State.bmvStop, hr, Bool.not_false, if_true]

end

section

variable {t : State} {c : Cmd}

/-! ### BANK_POWER -/

theorem bankCmd_downed (hb : c.par 0 16 < 0x600) (hu : (t.die (c.par 0 16 / 256)).up = false) :
    t.bankCmd c = t.reply c 0x12 0 0 0 := by
  simp only [State.bankCmd, hb, hu, decide_true, Bool.not_false, Bool.and_self, if_true]

/-- A bank of Bedrock, or of a die that is up, by whether another command waits for it and by the request (R230, R364). -/
theorem bankCmd_reached (h : 0x600 ≤ c.par 0 16 ∨ (t.die (c.par 0 16 / 256)).up = true) : t.bankCmd c =
    if Claims.bankWaited t c = true then t.reply c 0x30 0 0 0
    else match t.bankRefused (c.par 0 16) (c.par 16 8) with
      | some e => t.reply c e 0 0 0
      | none => ((t.setRes c.id [c.par 0 16, c.par 16 8]).bankAsk (c.par 0 16) (c.par 16 8)).bankReplies (c.par 0 16) := by
  have hd : (decide (c.par 0 16 < 0x600) && !(t.die (c.par 0 16 / 256)).up) = false := by
    rcases h with h | h
    · simp [Nat.not_lt.mpr h]
    · simp [h]
  unfold State.bankCmd
  simp only [hd, Bool.false_eq_true, if_false]
  rfl

/-! ### REPAIR_ADD -/

theorem repairCmd_refused {r : Nat} (h : t.repairRefused (c.par 0 16) (c.par 16 16) = some r) :
    t.repairCmd c = t.reply c 0x12 r 0 0 := by
  simp only [State.repairCmd, h]

theorem repairCmd_joins (h : t.repairRefused (c.par 0 16) (c.par 16 16) = none) :
    t.repairCmd c = (Claims.repaired t c).reply c 0 (t.repairs.length + 1) 0 0 := by
  simp only [State.repairCmd, h, Claims.repaired]

/-! ### PORT_CONFIG -/

/-- By whether an image is refused, and by whether one would change a Locked field (R12, R295). -/
theorem portConfig_eq (t : State) (c : Cmd) : t.portConfig c =
    if c.images.any (fun p => t.dynBad p.1 p.2 (2 ^ 32 - 1) || t.foreignGraph c.fn p.1 p.2) = true then t.reply c 0x12 0 0 0
    else if c.images.any (fun p => p.1.row.fields.any (t.lockedOut p.1 p.2)) = true then
      (Claims.imagesRejected t c).reply c 0x31 0 0 0
    else (Claims.imagesAct t (Claims.imagesAct t (Claims.imagesStored t c) c (Claims.plainImages c)) c
      (Claims.cfgImages c)).reply c 0 0 0 0 := rfl

/-! ### POUR_ARM -/

theorem pourArm_clearing (hm : c.par 8 8 = 0) (hc : (t.port (c.par 0 8)).run.clearing = true) :
    t.pourArm c = t.reply c 0x30 0 0 0 := by
  simp only [State.pourArm, hm, hc, if_true]

theorem pourArm_notIdle (hm : c.par 8 8 = 0) (hc : (t.port (c.par 0 8)).run.clearing = false)
    (hi : (t.port (c.par 0 8)).state ≠ .idle) : t.pourArm c = t.reply c 0x12 0 0 0 := by
  simp only [State.pourArm, hm, hc, hi, Bool.false_eq_true, if_false, if_true, ne_eq, not_false_eq_true]

theorem pourArm_prepares (hm : c.par 8 8 = 0) (hc : (t.port (c.par 0 8)).run.clearing = false)
    (hi : (t.port (c.par 0 8)).state = .idle) :
    t.pourArm c = t.setPort (c.par 0 8) { t.port (c.par 0 8) with run := t.armedRun c } := by
  simp only [State.pourArm, hm, hc, hi, Bool.false_eq_true, if_false, if_true, ne_eq, not_true_eq_false]

theorem pourArm_stop (hm : c.par 8 8 ≠ 0) (hst : (t.port (c.par 0 8)).state = .armed ∨ (t.port (c.par 0 8)).state = .running) :
    t.pourArm c = if (t.port (c.par 0 8)).run.stop.isSome = true then t.reply c 0x30 0 0 0
      else t.requestStop (c.par 0 8) (c.par 8 8 + 1) c.beganAt.toNat := by
  have hn : ¬ ((t.port (c.par 0 8)).state ≠ .armed ∧ (t.port (c.par 0 8)).state ≠ .running) := by tauto
  simp only [State.pourArm, if_neg hm, if_neg hn]

theorem pourArm_stopsNothing (hm : c.par 8 8 ≠ 0) (ha : (t.port (c.par 0 8)).state ≠ .armed)
    (hr : (t.port (c.par 0 8)).state ≠ .running) : t.pourArm c = t.reply c 0x12 0 0 0 := by
  simp only [State.pourArm, if_neg hm, if_pos (And.intro ha hr)]

/-- Tick 0 has been examined: the run ends at its next tick slot (R296). -/
theorem requestStop_ticking {p reason began : Nat}
    (h : (t.port p).state = .running ∨ ((t.port p).state = .armed ∧ (t.port p).run.ticks ≠ 0)) :
    t.requestStop p reason began = t.setPort p (Claims.stopAsked (t.port p) reason) := if_pos h

/-- Before the examination of tick 0: the first slot 16 ns after the command began (R296). -/
theorem requestStop_untimed {p reason began : Nat} (ha : (t.port p).state = .armed) (hk : (t.port p).run.ticks = 0) :
    t.requestStop p reason began = (t.dropStart p).updPort p (fun y => { y with run := { y.run with
      stop := some (reason, slotAt (t.slotLen p) (max (64 * (began + 16)) t.now64)) } }) := by
  have hn : ¬ ((t.port p).state = .running ∨ ((t.port p).state = .armed ∧ (t.port p).run.ticks ≠ 0)) := by simp [ha, hk]
  simp only [State.requestStop, if_neg hn, if_pos ha]

/-! ### EPOCH_SCHEDULE -/

theorem epochSchedule_cancels (h : c.par 64 8 = 1) : t.epochSchedule c = Claims.reply64 (Claims.scheduledAt t none) c
    (match t.clk.sched with | some x => x.toNat | none => 0) := if_pos h

theorem epochSchedule_sets (h : c.par 64 8 ≠ 1) : t.epochSchedule c =
    if c.par 0 64 < c.beganAt.toNat + 1000 then t.reply c 0x12 0 0 0
    else Claims.reply64 (Claims.scheduledAt t (some (BitVec.ofNat 64 (c.par 0 64)))) c (c.par 0 64) := if_neg h

end

/-- Settles O32: command by command, each in the state in which it is next. -/
theorem unitCommands : Obligations.UnitCommands := by
  intro s t c
  refine ⟨fun ht => ?start, fun ht => ?stop, fun ht => ?bank, fun ht => ?repair, fun ht => ?config, fun ht => ?arm,
    fun ht => ?epoch⟩
  case start =>
    exact ⟨fun h => row_of_turn ht rfl (bmvStartCmd_busy h), fun h =>
      ⟨fun e w hd => row_of_turn ht rfl (bmvStartCmd_refused h hd), fun hd => row_of_turn ht rfl (bmvStartCmd_starts h hd)⟩⟩
  case stop =>
    exact ⟨fun h => row_of_turn ht rfl (bmvStopCmd_idle h),
      fun h hs => row_of_turn ht rfl (bmvStopCmd_busy h hs),
      fun h hs hr hn => row_of_turn ht rfl ((bmvStopCmd_stops h hs).trans (bmvStop_running hr hn)),
      fun h hs hr hn => row_of_turn ht rfl ((bmvStopCmd_stops h hs).trans (bmvStop_written hr hn)),
      fun h hs hr => row_of_turn ht rfl ((bmvStopCmd_stops h hs).trans (bmvStop_between hr))⟩
  case bank =>
    refine ⟨fun hb hu => row_of_turn ht rfl (bankCmd_downed hb hu), fun hr => ⟨fun hw => row_of_turn ht rfl ?_,
      fun e hw he => row_of_turn ht rfl ?_, fun hw he => row_of_turn ht rfl ?_⟩⟩
    · rw [bankCmd_reached hr, if_pos hw]
    · simp only [bankCmd_reached hr, hw, he, Bool.false_eq_true, if_false]
    · simp only [bankCmd_reached hr, hw, he, Bool.false_eq_true, if_false]
  case repair =>
    exact ⟨fun r h => row_of_turn ht rfl (repairCmd_refused h), fun h => row_of_turn ht rfl (repairCmd_joins h)⟩
  case config =>
    refine ⟨fun hb => row_of_turn ht rfl ?_, fun hb => ⟨fun hl => row_of_turn ht rfl ?_, fun hl => row_of_turn ht rfl ?_⟩⟩
    · rw [portConfig_eq, if_pos hb]
    · rw [portConfig_eq, if_neg (Bool.eq_false_iff.mp hb), if_pos hl]
    · rw [portConfig_eq, if_neg (Bool.eq_false_iff.mp hb), if_neg (Bool.eq_false_iff.mp hl)]
  case arm =>
    refine ⟨fun hm hc => row_of_turn ht rfl (pourArm_clearing hm hc),
      fun hm hc hi => row_of_turn ht rfl (pourArm_notIdle hm hc hi),
      fun hm hc hi => row_of_turn ht rfl (pourArm_prepares hm hc hi),
      fun hm hst hs => row_of_turn ht rfl ?_, fun d hm ha hk hs hd => row_of_turn ht rfl ?_,
      fun hm hst hs => row_of_turn ht rfl ?_, fun hm ha hr => row_of_turn ht rfl (pourArm_stopsNothing hm ha hr)⟩
    · rw [pourArm_stop hm (by tauto), hs, if_neg (by simp), requestStop_ticking hst]
    · rw [pourArm_stop hm (.inl ha), hs, if_neg (by simp), requestStop_untimed ha hk, hd]
    · rw [pourArm_stop hm hst, if_pos hs]
  case epoch =>
    refine ⟨fun h => row_of_turn ht rfl (epochSchedule_cancels h), fun h hlt => row_of_turn ht rfl ?_,
      fun h hle => row_of_turn ht rfl ?_⟩
    · rw [epochSchedule_sets h, if_pos hlt]
    · rw [epochSchedule_sets h, if_neg (Nat.not_lt.mpr hle)]

end Sys2Proof.Machine
end

section
/-! The fetch of a command (R347, R354, R356) and the beginning of the deferred ones (R375). -/

namespace Sys2Proof.Machine

section

variable {s : State} {q : Nat}

/-! ### The fetch -/

theorem not_serves (h : s.engineOn = false ∨ s.fetchPick ≠ some q) : (!s.engineOn || s.fetchPick != some q) = true := by
  rcases h with h | h
  · simp [h]
  · simp [bne_iff_ne.mpr h]

theorem serves_fetches (h : Claims.serves s q) : (!s.engineOn || s.fetchPick != some q) = false := by
  obtain ⟨he, hp⟩ := h
  simp [he, hp]

theorem fetchCmd_unserved {r : Fetch} (h : s.engineOn = false ∨ s.fetchPick ≠ some q) : s.fetchCmd q r = s := if_pos (not_serves h)

theorem fetchCmd_poisoned (h : Claims.serves s q) :
    s.fetchCmd q .poisoned = Claims.badFetch ((Claims.ringAsked s q).aer 12) q := if_neg (Bool.eq_false_iff.mp (serves_fetches h))

theorem fetchCmd_failed (h : Claims.serves s q) :
    s.fetchCmd q .failed = Claims.badFetch ((Claims.ringAsked s q).aer 15) q := if_neg (Bool.eq_false_iff.mp (serves_fetches h))

theorem fetchLost_served (h : Claims.serves s q) : s.fetchLost q = Claims.badFetch ((Claims.ringAsked s q).aer 14) q :=
  if_neg (Bool.eq_false_iff.mp (serves_fetches h))

/-- A good packet waits for its FENCE, or its pair's head passes it (R347, R351). -/
theorem fetchCmd_ok (h : Claims.serves s q) (pkt : BitVec 512) : s.fetchCmd q (.ok pkt) =
    if ((Claims.made s q pkt).fence && s.outstanding q) = true then
      { Claims.ringAsked s q with ce := { (Claims.ringAsked s q).ce with
        fenceWait := (Claims.ringAsked s q).ce.fenceWait ++ [q] } }
    else (State.passHead { Claims.ringAsked s q with ce := { (Claims.ringAsked s q).ce with nextId := s.ce.nextId + 1 } }
      q).beginCmd (Claims.made s q pkt) := if_neg (Bool.eq_false_iff.mp (serves_fetches h))

/-- The head passes a good packet that waits for no FENCE, and in the state after it the command is rejected, held for the
boundary, or begun (R238, R354, R356). -/
theorem fetchCmd_passes (h : Claims.serves s q) {pkt : BitVec 512} {c : Cmd} {t : State} (hc : c = Claims.made s q pkt)
    (ht : t = Claims.passed s q) (hf : c.fence = false ∨ s.outstanding q = false) : s.fetchCmd q (.ok pkt) =
      match t.cmdRefused c with
      | some (status, w0, w1) => t.answer c status w0 w1
      | none =>
        if c.atBoundary then
          (if 64 ≤ t.ce.deferred.length + t.ce.due.length then t.answer c 0x30 0 0
           else { t with ce := { t.ce with deferred := t.ce.deferred ++ [c] } }.answer c 1 0 0)
        else { t with ce := { t.ce with begun := t.ce.begun ++ [c] } }.bump (hostOff 0x88) 0 32 1 := by
  subst hc ht
  have hn : ((Claims.made s q pkt).fence && s.outstanding q) = false := by rcases hf with hf | hf <;> simp [hf]
  rw [fetchCmd_ok h, if_neg (Bool.eq_false_iff.mp hn)]
  rfl

/-! ### The read of a pair's commands -/

theorem ringRead_underWay (h : 0 < (s.qp q).ahead) : s.ringRead q = s := if_pos h

theorem ringRead_asks (h : (s.qp q).ahead = 0) : s.ringRead q =
    let x := s.qp q
    let k := min 8 (min ((x.tail + s.sqSize q - x.head) % s.sqSize q) (s.sqSize q - x.head))
    (s.setQp q { x with ahead := k }).readHost (s.sqBase q + 64 * x.head) (64 * k)
      (s.flag (Sys2Proof.Machine.qpOff q 0x14) 1) (qpFn q) := if_neg (by omega)

end

/-! ### Deferred commands -/

section

variable {s : State}

theorem deferredBegin_none (h : s.d3hot = true ∨ s.ce.deferAt = none) : s.deferredBegin = s := by
  have hn : (if s.d3hot then none else s.ce.deferAt) = none := by rcases h with h | h <;> simp [h]
  simp only [State.deferredBegin, hn]

theorem deferredBegin_due {e : BitVec 64} (hd : s.d3hot = false) (he : s.ce.deferAt = some e) : s.deferredBegin =
    Claims.dueBegun ((s.goUntil e.toNat).bump (hostOff 0x88) 0 32 s.ce.due.length) := by
  simp only [State.deferredBegin, hd, he, Bool.false_eq_true, if_false, Claims.dueBegun]

end

/-- Settles O29: the fetch by whether the pair is served, by FENCE, and by the first check that fails; the read of commands by
whether one is under way; the deferred commands by whether they are due. -/
theorem commandFetch : Obligations.CommandFetch := by
  intro s q
  refine ⟨fun r h => next_finish (fetchCmd_unserved h), fun h => ⟨fun pkt c t hc ht => ?packet, ?_, ?_, ?_⟩, ringRead_underWay,
    fun k x hz hx hk => ?_, fun hd => next_finish (deferredBegin_none (.inl hd)), fun e u hd he hu => ?_,
    fun hn => next_finish (deferredBegin_none (.inr hn))⟩
  case packet =>
    refine ⟨fun hf ho => next_finish ?_, fun hf => ⟨fun st w0 w1 hr => next_finish ?_, fun hr hb => next_finish ?_,
      fun hr hb hl => next_finish ?_, fun hr hb hl => next_finish ?_⟩⟩
    · subst hc
      rw [fetchCmd_ok h, if_pos (by rw [hf, ho]; rfl)]
    · simp only [fetchCmd_passes h hc ht hf, hr]
    · simp only [fetchCmd_passes h hc ht hf, hr, hb, Bool.false_eq_true, if_false]
    · simp only [fetchCmd_passes h hc ht hf, hr, hb, if_true, if_neg (Nat.not_le.mpr hl)]
    · simp only [fetchCmd_passes h hc ht hf, hr, hb, if_true, if_pos hl]
  · exact fun t ht => next_finish (ht ▸ fetchCmd_poisoned h)
  · exact fun t ht => next_finish (ht ▸ fetchCmd_failed h)
  · exact fun t ht => next_finish (ht ▸ fetchLost_served h)
  · subst hx hk
    exact ringRead_asks hz
  · exact next_finish (hu ▸ deferredBegin_due hd he)

end Sys2Proof.Machine
end

section
/-! The rows of the Block Mover (R236, R260-R270, R339, R341): list entries, grants, the words of a burst, its writes, and the
end of a descriptor. -/

namespace Sys2Proof.Machine

section

variable {s : State} {ch : Nat} {data : HostData} {e : Nat × List Byte}

/-! ### List entries -/

theorem noteData_eq (s : State) (data : HostData) : s.noteData data = Claims.reported s data := by
  obtain ⟨bytes, ep, errAt⟩ := data
  cases ep <;> cases errAt <;> rfl

theorem reported_chan (s : State) (data : HostData) (ch : Nat) : (Claims.reported s data).chan ch = s.chan ch := by
  have haer (u : State) (bit : Nat) : (u.aer bit).chan ch = u.chan ch := rfl
  unfold Claims.reported
  split_ifs <;> simp only [haer]

theorem bmvCheck_of_entry (h : Claims.entry s ch data e) : s.bmvCheck ch data = e := by
  unfold State.bmvCheck
  rcases h with ⟨hbad, rfl⟩ | ⟨⟨hp, he⟩, hz, rfl⟩ | ⟨⟨hp, he⟩, hz, ⟨hc, rfl⟩ | ⟨c, x, hc, rfl⟩⟩
  · have hb : (data.errAt.isSome || !data.ep.isEmpty) = true := by
      cases he : data.errAt
      · simpa [he] using hbad
      · rfl
    rw [if_pos hb]
  · simp [hp, he, hz]
  · simp [hp, he, hz, hc]
  · simp [hp, he, hz, hc]

/-- The 64 bytes of a list entry are aligned: one request reads them (R259). -/
theorem listRead_eq (s : State) (ch i : Nat) : s.listRead ch i = Claims.listRead s ch i := by
  unfold State.listRead Claims.listRead
  rw [readHost_aligned _ (by omega), Nat.mul_comm (s.fld _ 6 26), Nat.mul_comm (s.reg _)]

/-- An entry that is ready waits while a descriptor runs, and else begins (R260). -/
theorem entered_eq (s : State) (ch : Nat) (e : Nat × List Byte) : Claims.entered s ch e =
    if (s.chan ch).running then s.setChan ch { s.chan ch with ahead := some e } else s.bmvEntry ch e := by
  simp only [Claims.entered, State.bmvEntry, listRead_eq]

theorem bmvFetch_idle (h : (s.chan ch).reading = false) : s.bmvFetch ch data = s := if_neg (Bool.eq_false_iff.mp h)

theorem bmvFetch_enters {t : State} (h : (s.chan ch).reading = true) (ht : t = Claims.reported s data)
    (he : Claims.entry t ch data e) : s.bmvFetch ch data = Claims.entered t ch e := by
  rw [State.bmvFetch, if_pos h, noteData_eq, ← ht, State.bmvFetched, bmvCheck_of_entry he, entered_eq]

theorem bmvFetchLost_enters (h : (s.chan ch).reading = true) :
    s.bmvFetchLost ch = Claims.entered (s.aer 14) ch (0x16, []) := by
  rw [State.bmvFetchLost, if_pos h, entered_eq]
  rfl

/-! ### Grants -/

theorem bmvGrant_none (h : 256 ≤ s.bmvHeld ∨ s.bmvPick = none) : s.bmvGrant = s := by
  unfold State.bmvGrant
  split_ifs with hf
  · rfl
  · rw [h.resolve_left hf]

/-- The picked channel takes a buffer for its next burst (R263), and reads its bytes from the host (R259). -/
theorem bmvGrant_pick {l c k lo : Nat} {d : Desc} {t : State} (hf : s.bmvHeld < 256) (hp : s.bmvPick = some (l, c))
    (hk : k = (s.chan c).granted) (hd : d = Claims.running s c) (hlo : lo = fmtBytes d.sf (64 * k))
    (ht : t = { s.setChan c { s.chan c with bursts := (s.chan c).bursts ++ [{ k := k, words := none, at_ := 0 }],
                                            granted := k + 1 } with lastGrant := lset s.lastGrant l c }) :
    s.bmvGrant = if d.sf = 0 then t else
      t.readHost (d.src + lo) (fmtBytes d.sf (64 * k + min 64 (d.n - 64 * k)) - lo) d.nsS (s.bmvOwner c) := by
  subst hlo ht hd hk
  simp only [State.bmvGrant, if_neg (Nat.not_le.mpr hf), hp]
  rfl

/-! ### The words of a burst -/

theorem bmvBurst_none (h : (s.chan ch).unread = none) : s.bmvBurst ch data = s.bmvGoOn := by
  simp only [State.bmvBurst, State.bmvHostRead, State.bmvRead, h, Option.isSome_none, Bool.false_and, Bool.false_eq_true,
    if_false]

/-- What the completions of a host read report comes before the words (R341). -/
theorem bmvBurst_some {b : Burst} {t : State} (h : (s.chan ch).unread = some b)
    (ht : t = if (Claims.running s ch).sf = 0 then s else Claims.reported s data) :
    s.bmvBurst ch data = (t.bmvRead ch data).bmvGoOn ∧ t.chan ch = s.chan ch := by
  subst ht
  by_cases hf : (descOf (s.chan ch).desc).sf = 0
  · simp [State.bmvBurst, State.bmvHostRead, Claims.running, hf]
  · simp [State.bmvBurst, State.bmvHostRead, Claims.running, hf, h, noteData_eq, reported_chan]

/-- The buffer of the oldest unread burst fills; an error ends the transfer at its word and discards the bursts above
(R262, R269). -/
theorem bmvRead_some {b : Burst} {r : Bread} {y : Chan} (h : (s.chan ch).unread = some b)
    (hr : r = Claims.readBurst s (Claims.running s ch) b.k data) (hy : y = r.s.chan ch) : s.bmvRead ch data =
      match r.err with
      | none => r.s.setChan ch { y with bursts := y.bursts.map (Claims.fills b r.words) }
      | some c => r.s.setChan ch { y with
          bursts := (y.bursts.filter (fun x => decide (x.k ≤ b.k))).map (Claims.fills b r.words),
          err := some (64 * b.k + r.words.length, c) } := by
  subst hy hr
  simp only [State.bmvRead, h]
  rfl

end

/-! ### One word of a burst -/

section

variable {d : Desc} {k i : Nat} {data : HostData} {a : Bread}

theorem Bread.step_refused (ha : a.err = none) (hf : d.sf = 0) (hr : a.s.bmvRefused (d.src + (64 * k + i)) false = true) :
    Bread.step d k data a i = { a with err := some 0x10 } := by
  simp only [Bread.step, ha, hf, hr, Option.isSome_none, Bool.false_eq_true, if_false, if_true]

theorem Bread.step_failed {x : Nat} (ha : a.err = none) (hf : d.sf ≠ 0) (he : data.errAt = some x)
    (hx : x < (i * fmtBits d.sf + fmtBits d.sf + 7) / 8) : Bread.step d k data a i = { a with err := some 0x11 } := by
  simp only [Bread.step, ha, hf, he, hx, Option.isSome_none, Bool.false_eq_true, if_false, if_true]

/-- A word that its source gives is poisoned with stop, too wide, or kept (R257, R267, R268). -/
theorem Bread.step_word {t : State} {w : PWord} (ha : a.err = none)
    (hw : (d.sf = 0 ∧ a.s.bmvRefused (d.src + (64 * k + i)) false = false ∧ a.s.idleRd 0x17 (d.src + (64 * k + i)) = (t, w)) ∨
      (d.sf ≠ 0 ∧ data.errAt = none ∧ t = a.s ∧ w.v = hostWord d data.bytes i ∧
        w.p = epHit data.ep (i * fmtBits d.sf / 8) ((i * fmtBits d.sf + fmtBits d.sf + 7) / 8))) :
    Bread.step d k data a i =
      if (w.p && d.sop) = true then { a with s := t, err := some 0x13 }
      else if (!w.p && !fitsHost d w.v) = true then { a with s := t, err := some 0x12 }
      else { a with s := t, words := a.words ++ [w] } := by
  rcases hw with ⟨hf, hr, hrd⟩ | ⟨hf, he, rfl, hv, hp⟩
  · simp only [Bread.step, ha, hf, hr, hrd, Option.isSome_none, Bool.false_eq_true, if_false, if_true]
  · obtain ⟨v, p⟩ := w
    subst hv hp
    simp only [Bread.step, ha, hf, he, Option.isSome_none, Bool.false_eq_true, if_false]

end

/-! ### The writes of a burst -/

theorem bmvGoOn_of_step_none {s : State} (h : ∀ ch, s.bmvStep ch = none) : s.bmvGoOn = s :=
  foldl_eq_self _ _ _ fun ch _ => by simp only [State.bmvRun, h ch]

section

variable {s : State} {ch a : Nat} {b : Burst} {rest : List Burst} {ws : List PWord} {d : Desc} {w : PWord}

/-- The words of a burst for the host go out together (R258, R259). -/
theorem bmvStep_host (hb : (s.chan ch).bursts = b :: rest) (hw : b.words = some ws) (hd : d = Claims.running s ch)
    (hf : d.df ≠ 0) : s.bmvStep ch = some ((ws.foldl (fun t w => t.chanWord ch w)
      (State.hostBytes 512 s (d.dst + fmtBytes d.df (64 * b.k)) (destBytes d ws) d.nsD (s.bmvOwner ch))).updChan ch
        (fun y => { y with bursts := rest })) := by
  subst hd
  have hf' : (descOf (s.chan ch).desc).df ≠ 0 := hf
  simp only [State.bmvStep, hb, hw, if_pos hf']
  rfl

/-- A burst whose words have been issued gives its buffer back once banks hold none of them (R262). -/
theorem bmvStep_spent (hb : (s.chan ch).bursts = b :: rest) (hw : b.words = some ws) (hf : (Claims.running s ch).df = 0)
    (hn : ws.length ≤ b.at_) : s.bmvStep ch =
      if (s.chanHeld ch).isEmpty then some (s.setChan ch { s.chan ch with bursts := rest }) else none := by
  have hf' : (descOf (s.chan ch).desc).df = 0 := hf
  simp only [State.bmvStep, hb, hw, hf', List.getElem?_eq_none hn, ne_eq, not_true_eq_false, if_false]

/-- A word for a global address is refused, waits for the words that another bank holds, or is presented (R233, R262,
R264). -/
theorem bmvStep_word (hb : (s.chan ch).bursts = b :: rest) (hw : b.words = some ws) (hf : (Claims.running s ch).df = 0)
    (ha : a = (Claims.running s ch).dst + 64 * b.k + b.at_) (hn : ws[b.at_]? = some w) : s.bmvStep ch =
      if s.bmvRefused a true = true then
        some (s.setChan ch { s.chan ch with bursts := [{ b with words := some (ws.take b.at_) }],
                                            err := some (64 * b.k + b.at_, 0x10) })
      else if (s.chanHeld ch).any (fun h => h.addr / 131072 != a / 131072) = true then none
      else some ((s.setChan ch { s.chan ch with bursts := { b with at_ := b.at_ + 1 } :: rest }).idleWr a w (some ch)) := by
  subst ha
  have hf' : (descOf (s.chan ch).desc).df = 0 := hf
  simp only [State.bmvStep, hb, hw, hf', hn, ne_eq, not_true_eq_false, if_false]
  rfl

end

/-! ### The end of a descriptor -/

section

variable {s : State} {ch : Nat}

theorem bmvEnd_notAtEnd (h : s.bmvAtEnd ch = false) : s.bmvEnd ch = s := if_pos (by rw [h]; rfl)

/-- A channel at its end runs a descriptor: it is one of the channels. -/
theorem lt_length_of_bmvAtEnd (h : s.bmvAtEnd ch = true) : ch < s.chans.length := by
  by_contra hn
  have hc : s.chan ch = Chan.reset := List.getD_eq_default _ _ (Nat.not_lt.mp hn)
  simp [State.bmvAtEnd, hc, Chan.reset] at h

/-- A descriptor of a list that ends DONE without a completion action: the next entry begins, where it is there (R260). -/
theorem bmvEnd_next (hend : s.bmvAtEnd ch = true) (hsil : Claims.silent (Claims.running s ch)) (hl : (s.chan ch).byList = true)
    (hst : (s.chan ch).status = 0) (hstop : (s.chan ch).stopping = none) (hlt : (s.chan ch).entry + 1 < (s.chan ch).count)
    {t : State} (ht : t = s.setChan ch { s.chan ch with
      running := false, entry := (s.chan ch).entry + 1, last := 0, err := none }) : s.bmvEnd ch =
      (s.chan ch).ahead.elim t (Claims.entered t ch) := by
  obtain ⟨hrec, hlatch, htok, hmsi⟩ := hsil
  have hrun : (t.chan ch).running = false := by rw [ht, chan_setChan _ _ _ (lt_length_of_bmvAtEnd hend)]
  have hent : Claims.entered t ch = t.bmvEntry ch := by
    funext e
    rw [entered_eq, hrun, if_neg Bool.false_ne_true]
  rw [hent]
  unfold Claims.running at hrec hlatch htok hmsi
  cases ha : (s.chan ch).ahead <;>
    simp [State.bmvEnd, hend, hrec, hlatch, htok, hmsi, hl, hst, hstop, hlt, ha, ht]

/-- After the last entry of a list that ends DONE, and its completion record, the channel is idle (R265, R266). -/
theorem bmvEnd_last {d : Desc} (hend : s.bmvAtEnd ch = true) (hd : d = Claims.running s ch) (hlatch : d.latchEn = false)
    (htok : d.tokEn = false) (hmsi : d.msixEn = false) (hl : (s.chan ch).byList = true) (hst : (s.chan ch).status = 0)
    (hle : (s.chan ch).count ≤ (s.chan ch).entry + 1) {t : State}
    (ht : t = if d.recEn then s.emit (.hostWrite d.recAddr (bmvRec (s.chan ch) ch d) d.nsD (s.bmvOwner ch)) else s) :
    s.bmvEnd ch =
      (t.setChan ch { (s.chan ch).idle with last := 0 }).bmvStopped ch 0 0 (s.chan ch).doneWords := by
  subst hd ht
  unfold Claims.running at hlatch htok hmsi ⊢
  simp [State.bmvEnd, hend, hlatch, htok, hmsi, hl, hst, Nat.not_lt.mpr hle]

end

/-- Settles O26: row by row, each by what its channel is doing; a list entry by what its read gave, a word by what its source
gave, a burst by its next word. -/
theorem blockMover : Obligations.BlockMover := by
  intro s
  refine ⟨fun ch => ?list, fun h => next_finish (bmvGrant_none h), fun l c k d t lo hf hp hk hd hlo ht => ?grant,
    fun ch data => ?burst, bmvGoOn_of_step_none, fun d k i data a ha => ?word, fun ch b rest ws d a hb hw hd ha => ?write,
    fun ch => ?last⟩
  case list =>
    exact ⟨fun data h => next_finish (bmvFetch_idle h), fun data t e h ht he => next_finish (bmvFetch_enters h ht he),
      fun h => next_finish (bmvFetchLost_enters h)⟩
  case grant =>
    have hg := bmvGrant_pick hf hp hk hd hlo ht
    exact ⟨fun hs => next_finish (hg.trans (if_pos hs)), fun hs => next_finish (hg.trans (if_neg hs))⟩
  case burst =>
    refine ⟨fun h => next_finish (bmvBurst_none h), fun b t r y h ht hr hy => ?_⟩
    obtain ⟨hburst, hchan⟩ := bmvBurst_some h ht
    have hread := bmvRead_some (hchan ▸ h) (by rw [hr, Claims.running, Claims.running, hchan]) hy
    refine ⟨fun he => next_finish (hburst.trans ?_), fun c he => next_finish (hburst.trans ?_)⟩ <;> simp only [hread, he]
  case word =>
    refine ⟨Bread.step_refused ha, fun x hs he hx => Bread.step_failed ha hs he hx, fun t w hw => ?_⟩
    refine ⟨fun hp hsop => ?_, fun hp hfit => ?_, fun hkeep => ?_⟩ <;> rw [Bread.step_word ha hw]
    · simp only [hp, hsop, Bool.and_self, if_true]
    · simp only [hp, hfit, Bool.false_and, Bool.false_eq_true, Bool.not_false, Bool.and_self, if_false, if_true]
    · rcases hkeep with ⟨hp, hsop⟩ | ⟨hp, hfit⟩
      · simp [hp, hsop]
      · simp [hp, hfit]
  case write =>
    subst hd
    refine ⟨bmvStep_host hb hw rfl, fun hs hn => ?_, fun w hs hn => ?_⟩
    · rw [bmvStep_spent hb hw hs hn]
      exact ⟨fun hh => if_pos (List.isEmpty_iff.mpr hh), fun hh => if_neg (mt List.isEmpty_iff.mp hh)⟩
    · rw [bmvStep_word hb hw hs ha hn]
      refine ⟨fun hr => if_pos hr, fun hr hh => ?_, fun hr hh => ?_⟩ <;> rw [hr, if_neg Bool.false_ne_true]
      · exact if_pos (by simpa using hh)
      · exact if_neg (by simpa using hh)
  case last =>
    refine ⟨fun h => next_finish (bmvEnd_notAtEnd h), fun t hend hsil hl hst ht => ⟨fun hstop hlt => ?_, fun hle => ?_⟩,
      fun t d hend hd hrec hlatch htok hmsi hl hst hle ht => next_finish (bmvEnd_last hend hd hlatch htok hmsi hl hst hle ?_)⟩
    · have hnext := bmvEnd_next hend hsil hl hst hstop hlt ht
      exact ⟨fun ha => next_finish (by rw [hnext, ha]; rfl), fun e ha => next_finish (by rw [hnext, ha]; rfl)⟩
    · obtain ⟨hrec, hlatch, htok, hmsi⟩ := hsil
      exact next_finish (bmvEnd_last hend rfl hlatch htok hmsi hl hst hle (by rw [hrec, if_neg Bool.false_ne_true]))
    · rw [ht, hrec, if_pos rfl]

end Sys2Proof.Machine
end

section
/-! The words of a burst at a host end: the little-endian bytes of a word stream, the P36 format (R258), and the truncation
check (R257). -/

namespace Sys2Proof.Machine

/-! ### Fields of a number -/

/-- A field below a cut does not see the bits above it. -/
theorem bitsOf_mod_two_pow (x : Nat) {lo w n : Nat} (h : lo + w ≤ n) : bitsOf (x % 2 ^ n) lo w = bitsOf x lo w := by
  refine Nat.eq_of_testBit_eq fun j => ?_
  have hj : j < w → lo + j < n := fun hj => by omega
  simp only [bitsOf, Nat.testBit_mod_two_pow, Nat.testBit_shiftRight]
  by_cases hw : j < w <;> simp [hw, hj]

/-- A field of a number divided by a power of two lies higher in the number. -/
theorem bitsOf_div_two_pow (x a lo w : Nat) : bitsOf (x / 2 ^ a) lo w = bitsOf x (a + lo) w := by
  rw [bitsOf_eq, bitsOf_eq, Nat.div_div_eq_div_mul, ← Nat.pow_add]

/-! ### Little-endian bytes -/

/-- Bytes and words are digits in the base of their width. -/
theorem toNat_digits_lt {n : Nat} (l : List (BitVec n)) : ∀ x ∈ l.map BitVec.toNat, x < 2 ^ n := by
  simp only [List.mem_map]
  rintro _ ⟨b, -, rfl⟩
  exact b.isLt

/-- A byte string spells the number whose digits in base 2^8 are its bytes. -/
theorem leNat_eq_ofDigits (bs : List Byte) : leNat bs = Nat.ofDigits (2 ^ 8) (bs.map BitVec.toNat) := by
  induction bs with
  | nil => rfl
  | cons b bs ih => simp [leNat, ih, Nat.ofDigits_cons]

theorem leNat_take (bs : List Byte) (n : Nat) : leNat (bs.take n) = leNat bs % 2 ^ (8 * n) := by
  rw [leNat_eq_ofDigits, leNat_eq_ofDigits, Nat.pow_mul, List.map_take,
    Nat.ofDigits_mod_pow_eq_ofDigits_take n (by decide) _ (toNat_digits_lt bs)]

theorem leNat_drop (bs : List Byte) (n : Nat) : leNat (bs.drop n) = leNat bs / 2 ^ (8 * n) := by
  rw [leNat_eq_ofDigits, leNat_eq_ofDigits, Nat.pow_mul, List.map_drop,
    Nat.ofDigits_div_pow_eq_ofDigits_drop n (by decide) _ (toNat_digits_lt bs)]

/-- The number at an offset: the zeros past the end of the byte string add nothing. -/
theorem leAt_eq (bs : List Byte) (off n : Nat) : leAt bs off n = leNat bs / 2 ^ (8 * off) % 2 ^ (8 * n) := by
  rw [← leNat_drop, ← leNat_take]
  simp [leAt, slice, leNat_eq_ofDigits, Nat.ofDigits_append_replicate_zero]

theorem leNat_leBytes (n x : Nat) : leNat (leBytes n x) = x % 2 ^ (8 * n) := by
  induction n generalizing x with
  | zero => simp [leBytes, leNat, Nat.mod_one]
  | succ n ih =>
    rw [leBytes, leNat, ih, BitVec.toNat_ofNat, Nat.mul_succ, Nat.add_comm (8 * n), Nat.pow_add, Nat.mod_mul]

theorem byteAt_leBytes {n j : Nat} (x : Nat) (h : j < n) : Claims.byteAt (leBytes n x) j = bitsOf x (8 * j) 8 := by
  induction n generalizing x j with
  | zero => omega
  | succ n ih =>
    cases j with
    | zero => simp [Claims.byteAt, leBytes, bitsOf]
    | succ j =>
      calc Claims.byteAt (leBytes (n + 1) x) (j + 1) = Claims.byteAt (leBytes n (x / 2 ^ 8)) j := rfl
        _ = bitsOf x (8 * (j + 1)) 8 := by
          rw [ih _ (Nat.lt_of_succ_lt_succ h), bitsOf_div_two_pow, Nat.mul_succ, Nat.add_comm]

/-! ### P36 streams -/

theorem wordAt_lt (ws : List Word) (i : Nat) : Claims.wordAt ws i < 2 ^ 36 := (ws.getD i 0).isLt

theorem wordAt_of_length_le {ws : List Word} {i : Nat} (h : ws.length ≤ i) : Claims.wordAt ws i = 0 := by
  simp [Claims.wordAt, h]

theorem fmtBits_p36 : fmtBits 5 = 36 := rfl

/-- N words of P36 take 9N / 2 bytes, rounded up (R258). -/
theorem fmtBytes_p36 (n : Nat) : fmtBytes 5 n = (9 * n + 1) / 2 := by
  rw [fmtBytes, fmtBits_p36]
  omega

section

variable {d e : Desc} (ws : List Word) (bs : List Byte) (i : Nat)

/-- A P36 stream is the number whose digits in base 2^36 are its words. -/
theorem streamBits_p36 (hd : d.df = 5) : Claims.streamBits d ws = Nat.ofDigits (2 ^ 36) (ws.map BitVec.toNat) := by
  have hbits (w : Word) : hostBits d w = w.toNat := by simp [hostBits, hd, fmtBits, Nat.mod_eq_of_lt w.isLt]
  have hpow (n : Nat) : 2 ^ (n * fmtBits d.df) = (2 ^ 36) ^ n := by rw [hd, Nat.mul_comm, Nat.pow_mul]; rfl
  rw [Nat.ofDigits_eq_sum_mapIdx, List.sum_eq_foldl, List.mapIdx_eq_zipIdx_map, List.zipIdx_map, List.map_map]
  simp only [Claims.streamBits, hbits, hpow]
  rfl

theorem streamBits_p36_lt (hd : d.df = 5) : Claims.streamBits d ws < 2 ^ (36 * ws.length) := by
  rw [streamBits_p36 ws hd, Nat.pow_mul, ← ws.length_map BitVec.toNat]
  exact Nat.ofDigits_lt_base_pow_length (by decide) (toNat_digits_lt ws)

/-- Word i of a P36 stream lies at bit 36i. -/
theorem bitsOf_streamBits_p36 (hd : d.df = 5) : bitsOf (Claims.streamBits d ws) (36 * i) 36 = Claims.wordAt ws i := by
  rw [bitsOf_eq, streamBits_p36 ws hd, Nat.pow_mul,
    Nat.ofDigits_div_pow_eq_ofDigits_drop i (by decide) _ (toNat_digits_lt ws), ← List.map_drop, Claims.wordAt,
    List.getD_eq_getElem?_getD, ← List.head?_drop]
  cases ws.drop i with
  | nil => rfl
  | cons w ws => simp [Nat.ofDigits_cons, Nat.mod_eq_of_lt w.isLt]

/-- The 72 bits of pair i of a P36 stream are its two words (R258). -/
theorem streamBits_p36_pair (hd : d.df = 5) : Claims.streamBits d ws / 2 ^ (72 * i) % 2 ^ 72 =
    Claims.wordAt ws (2 * i) + Claims.wordAt ws (2 * i + 1) * 2 ^ 36 := by
  rw [← bitsOf_streamBits_p36 ws (2 * i) hd, ← bitsOf_streamBits_p36 ws (2 * i + 1) hd,
    show 36 * (2 * i) = 72 * i + 0 by omega, show 36 * (2 * i + 1) = 72 * i + 36 by omega, ← bitsOf_div_two_pow,
    ← bitsOf_div_two_pow, bitsOf_eq, bitsOf_eq]
  omega

/-- Byte j of pair i, where the stream has that byte (R258). -/
theorem byteAt_streamBytes_p36 {j : Nat} (hd : d.df = 5) (hj : j < 9) (hlt : 9 * i + j < (9 * ws.length + 1) / 2) :
    Claims.byteAt (Claims.streamBytes d ws) (9 * i + j) =
      (Claims.wordAt ws (2 * i) + Claims.wordAt ws (2 * i + 1) * 2 ^ 36) / 2 ^ (8 * j) % 256 := by
  rw [Claims.streamBytes, hd, fmtBytes_p36, byteAt_leBytes _ hlt, show 8 * (9 * i + j) = 72 * i + 8 * j by omega,
    ← bitsOf_div_two_pow, ← bitsOf_mod_two_pow _ (show 8 * j + 8 ≤ 72 by omega), streamBits_p36_pair ws i hd]
  exact bitsOf_eq ..

/-- Byte j of the odd last word, which has no word above it (R258). -/
theorem byteAt_streamBytes_p36_last {i j : Nat} (hd : d.df = 5) (hi : 2 * i + 1 = ws.length) (hj : j < 5) :
    Claims.byteAt (Claims.streamBytes d ws) (9 * i + j) = Claims.wordAt ws (2 * i) / 2 ^ (8 * j) % 256 := by
  rw [byteAt_streamBytes_p36 ws i hd (by omega) (by omega), wordAt_of_length_le hi.ge, Nat.zero_mul, Nat.add_zero]

/-- The bytes of a P36 stream have room for all its bits. -/
theorem leNat_streamBytes_p36 (hd : d.df = 5) : leNat (Claims.streamBytes d ws) = Claims.streamBits d ws := by
  rw [Claims.streamBytes, leNat_leBytes, hd, fmtBytes_p36]
  exact Nat.mod_eq_of_lt ((streamBits_p36_lt ws hd).trans_le (Nat.pow_le_pow_right (by decide) (by omega)))

/-- Word i of P36 bytes lies at bit 36i of their number: its nine bytes reach over its 36 bits (R258). -/
theorem hostWord_p36 (he : e.sf = 5) : hostWord e bs i = BitVec.ofNat 36 (bitsOf (leNat bs) (36 * i) 36) := by
  have hin : i * 36 % 8 + 36 ≤ 8 * 9 := by omega
  simp only [hostWord, he, fmtBits_p36, or_true, if_true, leAt_eq, bitsOf_mod_two_pow _ hin, bitsOf_div_two_pow]
  rw [Nat.div_add_mod, Nat.mul_comm]

theorem hostWord_p36_even (he : e.sf = 5) : hostWord e bs (2 * i) = BitVec.ofNat 36 (leNat (bs.drop (9 * i))) := by
  rw [hostWord_p36 bs (2 * i) he, leNat_drop, bitsOf_eq, show 36 * (2 * i) = 8 * (9 * i) by omega]
  exact BitVec.eq_of_toNat_eq (by simp)

theorem hostWord_p36_pair (he : e.sf = 5) :
    hostWord e bs (2 * i) = BitVec.ofNat 36 (leNat ((bs.drop (9 * i)).take 9)) ∧
    hostWord e bs (2 * i + 1) = BitVec.ofNat 36 (leNat ((bs.drop (9 * i)).take 9) / 2 ^ 36) := by
  constructor
  · rw [hostWord_p36_even bs i he, leNat_take]
    exact BitVec.eq_of_toNat_eq (by simp)
  · rw [hostWord_p36 bs (2 * i + 1) he, leNat_take, leNat_drop, show 36 * (2 * i + 1) = 8 * (9 * i) + 36 by omega,
      ← bitsOf_div_two_pow, bitsOf_eq]
    exact BitVec.eq_of_toNat_eq (by simp only [BitVec.toNat_ofNat]; omega)

/-- Reading what was written gives the words (R258). -/
theorem hostWord_streamBytes_p36 (hd : d.df = 5) (he : e.sf = 5) : hostWord e (Claims.streamBytes d ws) i = ws.getD i 0 := by
  rw [hostWord_p36 _ i he, leNat_streamBytes_p36 ws hd, bitsOf_streamBits_p36 ws i hd]
  exact BitVec.ofNat_toNat ..

end

/-- Settles O49: byte j of pair i is a field of the stream's number, and word i of any bytes is the field at bit 36i. -/
theorem wordFormats : Obligations.WordFormats := by
  intro d e ws hd he
  refine ⟨?length, fun i j hi hj => byteAt_streamBytes_p36 ws i hd hj (by omega),
    fun i j hi hj => byteAt_streamBytes_p36_last ws hd hi hj, fun i hi => ?top, fun bs i _ _ => hostWord_p36_even bs i he,
    fun bs i _ => hostWord_p36_pair bs i he, fun i _ => hostWord_streamBytes_p36 ws i hd he⟩
  case length => rw [Claims.streamBytes, leBytes_length, hd, fmtBytes_p36]
  case top =>
    have hlt := wordAt_lt ws (2 * i)
    rw [byteAt_streamBytes_p36_last ws hd hi (by decide)]
    omega

/-! ### The truncation check -/

/-- A field up to bit 35 is all ones, or all zeros, when its bits are. -/
theorem fieldOf_eq_fill_iff {x : Word} {lo w : Nat} (b : Bool) (h : lo + w = 36) :
    fieldOf x lo w = (if b then 2 ^ w - 1 else 0) ↔ ∀ j, lo ≤ j → j < 36 → x.getLsbD j = b := by
  have hfield (k : Nat) : (fieldOf x lo w).testBit k = (decide (k < w) && x.getLsbD (lo + k)) := by
    simp [fieldOf, bitsOf, BitVec.getLsbD]
  have hfill (k : Nat) : (if b then 2 ^ w - 1 else 0).testBit k = (decide (k < w) && b) := by
    cases b <;> simp
  refine ⟨fun heq j hlo hj => ?_, fun hall => Nat.eq_of_testBit_eq fun k => ?_⟩
  · have hk := hfield (j - lo)
    rw [heq, hfill, Nat.add_sub_of_le hlo, decide_eq_true (by omega)] at hk
    exact hk.symm
  · rw [hfield, hfill]
    by_cases hk : k < w
    · rw [hall (lo + k) (by omega) (by omega)]
    · simp [hk]

section

variable {d : Desc} {x : Word} {w : Nat}

theorem fmtBits_of_checked (hw : Claims.checked d w) : fmtBits d.df = w ∧ d.df ≠ 1 ∧ 1 ≤ w ∧ w ≤ 36 := by
  rcases hw with ⟨hf, rfl⟩ | ⟨hf, rfl⟩ | ⟨hf, rfl⟩ <;> simp [hf, fmtBits]

/-- Where the check applies, it asks what R257 asks. -/
theorem fitsHost_iff_fits (hw : Claims.checked d w) (hc : d.chk = true) : fitsHost d x = true ↔ Claims.fits d.ext w x := by
  obtain ⟨hbits, -, hw1, hw36⟩ := fmtBits_of_checked hw
  have hon : ¬ (d.df < 2 ∨ 4 < d.df || !d.chk) := by rcases hw with ⟨hf, -⟩ | ⟨hf, -⟩ | ⟨hf, -⟩ <;> simp [hf, hc]
  rw [fitsHost, if_neg hon, hbits, Claims.fits]
  cases d.ext
  case true =>
    have hzeros := fieldOf_eq_fill_iff (x := x) false (show w - 1 + (37 - w) = 36 by omega)
    have hones := fieldOf_eq_fill_iff (x := x) true (show w - 1 + (37 - w) = 36 by omega)
    simp only [if_true, Bool.false_eq_true, if_false] at hzeros hones ⊢
    rw [decide_eq_true_eq, hzeros, hones]
    refine ⟨?_, fun hsame => ?_⟩
    · rintro (h | h) j hj hlt <;> rw [h j hj hlt, h 35 (by omega) (by omega)]
    · cases hsign : x.getLsbD 35 with
      | false => exact .inl fun j hj hlt => (hsame j hj hlt).trans hsign
      | true => exact .inr fun j hj hlt => (hsame j hj hlt).trans hsign
  case false =>
    rw [if_neg Bool.false_ne_true, if_neg Bool.false_ne_true, beq_iff_eq]
    exact fieldOf_eq_fill_iff false (by omega)

theorem fitsHost_unchecked (hc : d.chk = false) : fitsHost d x = true := if_pos (by simp [hc])

/-- The check does not apply to NAT, X64 and P36 (R257). -/
theorem fitsHost_otherFormat (hf : d.df = 0 ∨ d.df = 1 ∨ d.df = 5) : fitsHost d x = true :=
  if_pos (by rcases hf with hf | hf | hf <;> simp [hf])

theorem hostBits_of_checked (hw : Claims.checked d w) : hostBits d x = x.toNat % 2 ^ w := by
  obtain ⟨hbits, hne, -⟩ := fmtBits_of_checked hw
  rw [hostBits, if_neg hne, hbits]

end

section

variable {d : Desc} {k i : Nat} {data : HostData} {a : Bread} {t : State} {x : PWord}

/-- A word whose source is good is read as it is: a failure of the host read beyond its bytes does not reach it (R267). -/
theorem Bread.step_moves (hm : Claims.moves d k data a i t x) (hsop : x.p = false ∨ d.sop = false) :
    Bread.step d k data a i = if (!x.p && !fitsHost d x.v) = true then { a with s := t, err := some 0x12 }
      else { a with s := t, words := a.words ++ [x] } := by
  obtain ⟨ha, hglobal, hhost⟩ := hm
  have hstop : ¬ (x.p && d.sop) = true := by rcases hsop with h | h <;> simp [h]
  by_cases hf : d.sf = 0
  · obtain ⟨hr, hrd⟩ := hglobal hf
    rw [Bread.step_word ha (.inl ⟨hf, hr, hrd⟩), if_neg hstop]
  · obtain ⟨he, rfl, hx⟩ := hhost hf
    cases herr : data.errAt with
    | none => rw [Bread.step_word ha (.inr ⟨hf, herr, rfl, congrArg PWord.v hx, congrArg PWord.p hx⟩), if_neg hstop]
    | some e =>
      subst hx
      simp only [Bread.step, ha, hf, herr, Nat.not_lt.mpr (he e herr), hstop, Option.isSome_none, Bool.false_eq_true, if_false]

/-- A word joins the words of the burst when it is poisoned or fits (R257). -/
theorem Bread.step_joins (hm : Claims.moves d k data a i t x) (hsop : x.p = false ∨ d.sop = false)
    (hfit : x.p = true ∨ fitsHost d x.v = true) :
    (Bread.step d k data a i).err = none ∧ (Bread.step d k data a i).words = a.words ++ [x] := by
  rw [Bread.step_moves hm hsop, if_neg (by rcases hfit with h | h <;> simp [h])]
  exact ⟨hm.1, rfl⟩

/-- An unpoisoned word that does not fit is a truncation error (R257, R268). -/
theorem Bread.step_truncates (hm : Claims.moves d k data a i t x) (hp : x.p = false) (hfit : fitsHost d x.v = false) :
    (Bread.step d k data a i).err = some 0x12 ∧ (Bread.step d k data a i).words = a.words := by
  rw [Bread.step_moves hm (.inl hp), if_pos (by simp [hp, hfit])]
  exact ⟨rfl, rfl⟩

end

/-- Settles O50: a word of a good source joins the burst exactly when it is poisoned or fits. -/
theorem truncation : Obligations.Truncation := by
  intro d k data a i t x hm hsop
  have hjoins := Bread.step_joins hm hsop
  refine ⟨fun w hw hc hp => ?checked, fun w hw hc => ?unchecked, fun hf => (hjoins (.inr (fitsHost_otherFormat hf))).1,
    fun hp => (hjoins (.inl hp)).1⟩
  case checked =>
    rw [← fitsHost_iff_fits hw hc, Bool.not_eq_true]
    exact ⟨fun hfit => hjoins (.inr hfit), fun hfit => Bread.step_truncates hm hp hfit⟩
  case unchecked =>
    obtain ⟨herr, hwords⟩ := hjoins (.inr (fitsHost_unchecked hc))
    exact ⟨herr, hwords, hostBits_of_checked hw⟩

end Sys2Proof.Machine
end

section
/-! The scrambler of a lane (R276): its state is the last 58 bits sent, so a receiver whose state agrees with it on the
first k of them recovers every bit from the one on that follows 58 - k more. -/

namespace Sys2Proof.Machine

theorem scramble_cons (st bits : List Bool) (b : Bool) : scramble st (b :: bits) =
    (b ^^ st.getD 38 false ^^ st.getD 57 false) ::
      scramble ((b ^^ st.getD 38 false ^^ st.getD 57 false) :: st.take 57) bits := by
  simp only [scramble, List.take_succ_cons, Bool.xor_assoc]

theorem length_scramble (st bits : List Bool) : (scramble st bits).length = bits.length := by
  induction bits generalizing st with
  | nil => rfl
  | cons b bits ih => rw [scramble_cons, List.length_cons, ih, List.length_cons]

/-- What a receiver makes of a scrambled bit: the two taps of both ends are added to it. -/
theorem descramble_scramble_cons (st other bits : List Bool) (b : Bool) :
    ∃ c, descramble other (scramble st (b :: bits)) =
      (b ^^ (st.getD 38 false ^^ st.getD 57 false) ^^ (other.getD 38 false ^^ other.getD 57 false)) ::
        descramble ((c :: other).take 58) (scramble ((c :: st).take 58) bits) := ⟨_, rfl⟩

theorem getD_eq_of_take_eq {st other : List Bool} {k i : Nat} (h : st.take k = other.take k) (hi : i < k) :
    st.getD i false = other.getD i false := by
  rw [List.getD_eq_getElem?_getD, List.getD_eq_getElem?_getD, ← List.getElem?_take_of_lt hi, h,
    List.getElem?_take_of_lt hi]

/-- Each bit received brings the two states one bit further into agreement. -/
theorem take_succ_shift {st other : List Bool} {k : Nat} (h : st.take k = other.take k) (c : Bool) :
    ((c :: st).take 58).take (k + 1) = ((c :: other).take 58).take (k + 1) := by
  have htake (l : List Bool) : ((c :: l).take 58).take (k + 1) = (c :: l.take k).take 58 := by
    rw [List.take_take, Nat.min_comm, ← List.take_take, List.take_succ_cons]
  rw [htake, htake, h]

theorem descramble_scramble_drop {k d : Nat} (hkd : 58 ≤ k + d) {st other : List Bool} (h : st.take k = other.take k)
    (bits : List Bool) : (descramble other (scramble st bits)).drop d = bits.drop d := by
  induction bits generalizing k d st other with
  | nil => rfl
  | cons b bits ih =>
    obtain ⟨c, hc⟩ := descramble_scramble_cons st other bits b
    have hnext := take_succ_shift h c
    rw [hc]
    cases d with
    | zero =>
      have hrest : descramble ((c :: other).take 58) (scramble ((c :: st).take 58) bits) = bits := ih (d := 0) (by omega) hnext
      rw [hrest, getD_eq_of_take_eq h (by omega : 38 < k), getD_eq_of_take_eq h (by omega : 57 < k), Bool.xor_assoc,
        Bool.xor_self, Bool.xor_false]
    | succ d => exact ih (by omega) hnext

/-- Settles O52: a receiver in the sender's state agrees with it on all 58 bits, one in any other state on none. -/
theorem scrambler : Obligations.Scrambler :=
  ⟨fun st bits b _ => scramble_cons st bits b,
   fun st bits => ⟨length_scramble st bits, descramble_scramble_drop (k := 58) (d := 0) (by decide) rfl bits⟩,
   fun st other bits => descramble_scramble_drop (k := 0) (by decide) (st := st) (other := other) rfl bits⟩

end Sys2Proof.Machine
end

section
/-! The link of a port (R276-R290): training blocks, received frames, acknowledgements, credits and the going down. -/

namespace Sys2Proof.Machine

/-! ### The rows -/

section

variable (p : Fin 16) (s : State)

theorem exec_pfpTs1 (lane : Fin 16) (sync : BitVec 2) (skew : Nat) (blk : BitVec 64) :
    exec (.pfpTs1 p lane ⟨sync, skew⟩ blk) s = .next (s.trainBlock p.val lane.val sync skew blk.toNat false).finish := rfl

theorem exec_pfpTs2 (lane : Fin 16) (sync : BitVec 2) (skew : Nat) (blk : BitVec 64) :
    exec (.pfpTs2 p lane ⟨sync, skew⟩ blk) s = .next (s.trainBlock p.val lane.val sync skew blk.toNat true).finish := rfl

theorem exec_trainingTimeout : exec (.trainingTimeout p) s = .next (s.trainLate p.val).finish := rfl

theorem exec_trainingRestart : exec (.trainingRestart p) s = .next (s.trainAgain p.val).finish := rfl

theorem exec_fail (f : BitVec 256) : exec (.fail p f) s = .next (s.pfpReceive p.val f.toNat).finish := rfl

theorem exec_pfpCredit (f : BitVec 256) : exec (.pfpCredit p f) s = .next (s.pfpReceive p.val f.toNat).finish := rfl

theorem exec_pfpRetry (f : BitVec 256) : exec (.pfpRetry p f) s = .next (s.pfpReceive p.val f.toNat).finish := rfl

theorem exec_pfpIdle (f : BitVec 256) : exec (.pfpIdle p f) s = .next (s.pfpReceive p.val f.toNat).finish := rfl

theorem exec_pfpAckDue : exec (.pfpAckDue p) s = .next (s.pfpAckRow p.val).finish := rfl

theorem exec_failCreditDue : exec (.failCreditDue p) s = .next (s.failCreditRow p.val).finish := rfl

theorem exec_pfpLinkDown_active (h : (s.port p.val).active = true) :
    exec (.pfpLinkDown p) s = .next (s.pfpDown p.val).finish :=
  congrArg (fun t : State => Host.Outcome.next t.finish) (if_pos h)

end

/-! ### Sync headers and training blocks -/

section

variable {s : State} {p lane skew blk : Nat} {sync : BitVec 2} {ts2 : Bool} {fl : FrameLink}

/-- A lane without block lock counts its sync headers in a row (R278 item 1). -/
theorem header_unlocked {n : Nat} (h : lget 0 fl.sync lane < 64) : fl.header n lane sync skew =
    ({ fl with sync := if syncOk sync = true then bumpAt fl.sync n lane else lset (bumpAt fl.sync n lane) lane 0 }, false) := by
  have hlock : fl.locked lane = false := decide_eq_false (Nat.not_le.mpr h)
  by_cases hv : syncOk sync = true <;> simp [FrameLink.header, hlock, hv]

/-- A locked lane reads a block with a valid header that comes within the skew limit (R278 item 1). -/
theorem header_reads {n : Nat} (h : Claims.readsBlock fl lane sync skew) : fl.header n lane sync skew = (fl, true) := by
  obtain ⟨hlock, hsync, hskew⟩ := h
  have hk : fl.locked lane = true := decide_eq_true hlock
  simp [FrameLink.header, hk, syncOk_iff.mpr hsync, hskew]

/-- A port that takes training blocks counts a lane's sync headers, or reads the block (R278). -/
theorem trainBlock_trains (ht : Claims.trains s p lane) : s.trainBlock p lane sync skew blk ts2 =
    if ((s.port p).fl.header (4 * s.pfpBond p) lane sync skew).2 = true then s.readTrain p lane (sync == 1) blk ts2
    else if ((s.port p).fl.locked lane && !ts2) = true then
      Claims.withLink s p ((s.port p).fl.badTs1 (4 * s.pfpBond p) lane)
    else Claims.withLink s p ((s.port p).fl.header (4 * s.pfpBond p) lane sync skew).1 := by
  obtain ⟨hstate, hfail, hpow, hlane⟩ := ht
  simp [State.trainBlock, hstate, hfail, hpow, Nat.not_le.mpr hlane, Claims.withLink]

theorem trainBlock_unlocked (ht : Claims.trains s p lane) (hs : lget 0 (s.port p).fl.sync lane < 64) :
    s.trainBlock p lane sync skew blk ts2 = Claims.withLink s p { (s.port p).fl with
      sync := if syncOk sync = true then bumpAt (s.port p).fl.sync (4 * s.pfpBond p) lane
        else lset (bumpAt (s.port p).fl.sync (4 * s.pfpBond p) lane) lane 0 } := by
  have hlock : (s.port p).fl.locked lane = false := decide_eq_false (Nat.not_le.mpr hs)
  rw [trainBlock_trains ht, header_unlocked hs, hlock]
  rfl

theorem trainBlock_reads (ht : Claims.trains s p lane) (hr : Claims.readsBlock (s.port p).fl lane sync skew) :
    s.trainBlock p lane sync skew blk ts2 = s.readTrain p lane (sync == 1) blk ts2 := by
  rw [trainBlock_trains ht, header_reads hr, if_pos rfl]

theorem pfpTsZero_iff : pfpTsZero blk ts2 = true ↔ Claims.tsZero blk ts2 := by
  simp [pfpTsZero, Claims.tsZero, and_assoc]

/-- The block that a lane reads is a training block of the type named, with good check byte and zero fields (R277). -/
def goodTrainBlock (blk : Nat) (ts2 : Bool) : Prop :=
  blkOk blk = true ∧ bitsOf blk 0 8 = (if ts2 then 0xB6 else 0xB5) ∧ Claims.tsZero blk ts2

theorem readTrain_badTs1 {inv : Bool} (h : ¬ goodTrainBlock blk false) :
    s.readTrain p lane inv blk false = Claims.withLink s p ((s.port p).fl.badTs1 (4 * s.pfpBond p) lane) := by
  unfold State.readTrain
  rw [if_pos]
  · rfl
  · simpa [goodTrainBlock, ← pfpTsZero_iff, imp_iff_not_or, or_assoc] using h

/-- A good training block that names a lane of the port, on a lane in an accepted order. -/
theorem readTrain_good (hg : goodTrainBlock blk ts2) (hn : Claims.laneOf blk < 4 * s.pfpBond p)
    (ho : laneOrderOk (Claims.placed s p lane blk sync).lanes (4 * s.pfpBond p) = true) :
    s.readTrain p lane (sync == 1) blk ts2 =
      if ts2 = false then s.takeTs1 p lane (Claims.placed s p lane blk sync)
      else if bitsOf blk 24 8 ≠ 1 ∨ bitsOf blk 16 8 ≠ s.pfpBond p then s.trainFail p
      else s.takeTs2 p lane (Claims.placed s p lane blk sync) blk := by
  obtain ⟨hb, ht, hz⟩ := hg
  have hz' := pfpTsZero_iff.mpr hz
  have hn' := Nat.not_le.mpr hn
  unfold Claims.placed Claims.laneOf at *
  generalize (sync == 1) = inv at *
  cases ts2 <;> simp [State.readTrain, hb, ht, hz', ho, hn']

/-! ### The counts of good training blocks -/

theorem takeTs1_counts (h : allAtLeast (bumpAt fl.ts1 (4 * s.pfpBond p) lane) (4 * s.pfpBond p) 16 = false) :
    s.takeTs1 p lane fl = Claims.withLink s p { fl with ts1 := bumpAt fl.ts1 (4 * s.pfpBond p) lane } :=
  if_neg (by simp [h])

theorem takeTs1_complete (h : allAtLeast (bumpAt fl.ts1 (4 * s.pfpBond p) lane) (4 * s.pfpBond p) 16 = true)
    (h2 : fl.ts2Start = none) : s.takeTs1 p lane fl =
      (Claims.withLink s p { fl with ts1 := bumpAt fl.ts1 (4 * s.pfpBond p) lane }).grantFail p :=
  if_pos (by simp [h, h2])

/-- The lanes of a port that has power send its training blocks from now on. -/
theorem sendTrain_powered (h : s.pfpPowered p = true) : s.sendTrain p ts2 = s.emit (Claims.trainOut s p ts2) := if_pos h

theorem takeTs2_counts {t : Nat} (h2 : fl.ts2Start = some t)
    (h : allAtLeast (bumpAt fl.ts2 (4 * s.pfpBond p) lane) (4 * s.pfpBond p) 8 = false) :
    s.takeTs2 p lane fl blk = Claims.withLink s p { fl with ts2 := bumpAt fl.ts2 (4 * s.pfpBond p) lane } := by
  simp [State.takeTs2, h2, h, Claims.withLink]

/-- Eight good TS2 on every lane, and sixteen of its own sent: the port is IDLE with the vector credits granted (R278 item 4). -/
theorem takeTs2_complete {t : Nat} (h2 : fl.ts2Start = some t)
    (h : allAtLeast (bumpAt fl.ts2 (4 * s.pfpBond p) lane) (4 * s.pfpBond p) 8 = true) (he : t + 33 ≤ s.clk.edges) :
    s.takeTs2 p lane fl blk =
      (Claims.withLink s p { fl with ts2 := bumpAt fl.ts2 (4 * s.pfpBond p) lane }).updPort p (fun y =>
        { y with state := .idle, avail := bitsOf blk 32 16,
                 fl := { FrameLink.reset with lanes := fl.lanes, inverted := fl.inverted, grant := fl.grant,
                                              reversed := laneReversed fl.lanes (4 * s.pfpBond p) } }) := by
  have hpass : (Claims.withLink s p { fl with ts2 := bumpAt fl.ts2 (4 * s.pfpBond p) lane }).passTs2 t = _ := passEdges_past he
  rw [← hpass]
  simp [State.takeTs2, h2, h, Claims.withLink]

end

/-! ### Training that fails and starts again -/

section

variable {s : State} {p : Nat}

theorem beginTrain_eq (s : State) (p : Nat) : s.beginTrain p = Claims.trainBegun s p := rfl

theorem trainLate_trains (ht : (s.port p).state = .training) (hf : (s.port p).fl.failedAt = none)
    (hpow : s.pfpPowered p = true) :
    s.trainLate p = (s.passEdges ((s.port p).fl.trainStart + 10000000)).trainFail p :=
  if_pos (by simp [ht, hf, hpow])

theorem trainAgain_failed {e : Nat} (ht : (s.port p).state = .training) (hf : (s.port p).fl.failedAt = some e) :
    s.trainAgain p = Claims.trainBegun (s.passEdges (e + 1000000)) p := by
  simp only [State.trainAgain, hf, ht, if_true, beginTrain_eq]

end

/-! ### Received frames -/

section

variable {s : State} {p f : Nat}

/-- A good frame whose ack has been taken: a numbered one goes by its sequence number, RETRY and IDLE by their type
(R281, R285, R287). -/
theorem pfpReceive_good (h : Claims.goodFrame s p f) : s.pfpReceive p f =
    if 1 ≤ frameType f ∧ frameType f ≤ 4 then
      if ((Claims.ackTaken s p f).port p).fl.judge f = .inOrder then
        if frameType f = 2 then (Claims.inOrder s p f).takeFail p f else (Claims.inOrder s p f).takeCredit p f
      else if ((Claims.ackTaken s p f).port p).fl.judge f = .old then Claims.ackTaken s p f
      else (Claims.ackTaken s p f).pfpReject p
    else if frameType f = 5 then
      Claims.withLink (Claims.ackTaken s p f) p (((Claims.ackTaken s p f).port p).fl.again s.now64 (frameBits f 4 0 8))
    else Claims.ackTaken s p f := by
  obtain ⟨hactive, hcrc, hbad⟩ := h
  have hack : s.setPort p { s.port p with fl := (s.port p).fl.takeAck f } = Claims.ackTaken s p f := rfl
  unfold State.pfpReceive
  dsimp only
  rw [if_neg (by simp [hactive]), if_neg (by simp [hcrc]), hack, hbad]
  cases hj : ((Claims.ackTaken s p f).port p).fl.judge f <;> simp [hj, Claims.withLink, Claims.inOrder, State.updPort]

theorem pfpReceive_inOrder (h : Claims.goodFrame s p f) (hj : ((Claims.ackTaken s p f).port p).fl.judge f = .inOrder)
    (h1 : 1 ≤ frameType f) (h4 : frameType f ≤ 4) : s.pfpReceive p f =
      if frameType f = 2 then (Claims.inOrder s p f).takeFail p f else (Claims.inOrder s p f).takeCredit p f := by
  rw [pfpReceive_good h, if_pos ⟨h1, h4⟩, if_pos hj]

theorem takeFail_credit (h : (s.port p).farCredits ≠ 0) : s.takeFail p f =
    (s.updPort p (fun x => { x with farCredits := x.farCredits - 1 })).offer (256 + p) (failWords f) := if_neg h

theorem takeCredit_vector (h : frameBits f 4 0 8 = 0) : s.takeCredit p f =
    s.updPort p (fun x => { x with avail := x.avail + sextNat 16 (frameBits f 6 0 16) }) := if_pos h

/-- A frame with a bad CRC is counted, and starts the discarding (R287 item 4). -/
theorem pfpReceive_badCrc (ha : (s.port p).active = true) (hc : frameOk 32 f = false) :
    s.pfpReceive p f = (s.bump (pfpOff p 0x44) 0 16 1).pfpReject p := by
  simp only [State.pfpReceive, ha, hc]
  rfl

theorem pfpReject_discarding (h : (s.port p).fl.discarding = true) : s.pfpReject p = s := if_pos h

/-- A RETRY below the sixteenth in a row, while the replay buffer has room (R287). -/
theorem pfpReject_retries (hd : (s.port p).fl.discarding = false) (hroom : (s.port p).fl.replay.length < 128)
    (hk : (s.port p).fl.retries + 1 < 16) : s.pfpReject p =
      (Claims.withLink s p { Claims.offered (s.port p).fl rankRetry s.now64 0 with
        discarding := true, retries := (s.port p).fl.retries + 1, retryAt := s.now64 }).bump (pfpOff p 0x44) 16 8 1 := by
  unfold State.pfpReject State.pfpRetryOut
  rw [if_neg (by simp [hd]), if_neg (Nat.not_le.mpr hroom), if_neg (Nat.not_le.mpr hk)]
  rfl

end

/-! ### Acknowledgements, credits and the going down -/

section

variable {s : State} {p : Nat}

theorem pfpAckRow_owed (ha : (s.port p).active = true) (hd : (s.port p).fl.discarding = false)
    (ho : (s.port p).fl.owesAck = true) : s.pfpAckRow p = s.pfpIdleOut p := by
  simp [State.pfpAckRow, ha, hd, ho]

/-- The RETRY repeat timer of a port that still discards when it ends (R287 item 4). -/
theorem pfpAckRow_discarding {t : State} (ha : (s.port p).active = true) (hd : (s.port p).fl.discarding = true)
    (ht : t = s.passUntil (((s.port p).fl.retryAt + 256 * s.slotLen p + 63) / 64))
    (hstill : (t.port p).fl.discarding = true) : s.pfpAckRow p = t.pfpRetryOut p := by
  subst ht
  simp only [State.pfpAckRow, ha, hd]
  exact if_pos hstill

theorem failCreditRow_due {d : Nat} {t : State} (hd : s.failCreditAt p = some d) (ht : t = s.passUntil (d / 64)) :
    s.failCreditRow p = (t.setPort p { t.port p with
        owed := 0, farCredits := (t.port p).farCredits + (t.port p).owed }).pfpQueue p rankCredit (max d t.now64)
      (creditBody 1 (t.port p).owed) := by
  subst ht
  simp only [State.failCreditRow, hd]

theorem active_of_idle (h : (s.port p).state = .idle) : (s.port p).active = true := by simp [Port.active, h]

/-- The link of an idle port goes down without the end of a run (R288). -/
theorem pfpDown_idle {t : State} (h : (s.port p).state = .idle)
    (ht : t = s.updPort p (fun x => { x with
      avail := 0, farCredits := 0, owed := 0, run := x.run.lose, state := .disabled, fl := FrameLink.reset })) :
    s.pfpDown p = if s.pfpOn p = true then Claims.trainBegun t p else t := by
  subst ht
  simp [State.pfpDown, h, beginTrain_eq]

end

/-- Settles O14: by the row, the training rows by the lane's lock and the block, the frames by their type. -/
theorem portLinks : Obligations.PortLinks := by
  intro p s
  refine ⟨?headers, ?blocks, ?badTs1, ?timeout, ?restart, ?frames, ?badCrc, ?ackOwed, ?discarding, ?credits, ?down⟩
  case headers =>
    rintro lane sync skew blk _ _ ht rfl rfl hs
    rw [exec_pfpTs1, exec_pfpTs2, trainBlock_unlocked ht hs, trainBlock_unlocked ht hs]
    constructor <;> intro hv
    · rw [if_pos (syncOk_iff.mpr hv)]
      exact ⟨rfl, rfl⟩
    · rw [if_neg (mt syncOk_iff.mp hv)]
      exact ⟨rfl, rfl⟩
  case blocks =>
    rintro lane sync skew blk _ _ ht hr rfl rfl hok hn ho
    rw [exec_pfpTs1, exec_pfpTs2, trainBlock_reads ht hr, trainBlock_reads ht hr]
    constructor
    · intro hty hz
      rw [readTrain_good (ts2 := false) ⟨hok, hty, hz⟩ hn ho, if_pos rfl]
      refine ⟨fun h => by rw [takeTs1_counts h], ?_⟩
      rintro _ _ h h2 rfl rfl hpow
      rw [takeTs1_complete h h2, State.grantFail, sendTrain_powered hpow]
    · intro hty hz hver hbond t h2
      rw [readTrain_good (ts2 := true) ⟨hok, hty, hz⟩ hn ho, if_neg (by decide), if_neg (by simp [hver, hbond])]
      exact ⟨fun h => by rw [takeTs2_counts h2 h], fun h he => by rw [takeTs2_complete h2 h he]⟩
  case badTs1 =>
    intro lane sync skew blk ht hr hbad
    have hnot : ¬ goodTrainBlock blk.toNat false := by
      rintro ⟨hok, hty, hz⟩
      rcases hbad with h | h | h
      · exact absurd hok (by simp [h])
      · exact h hty
      · exact h hz
    rw [exec_pfpTs1, trainBlock_reads ht hr, readTrain_badTs1 hnot, FrameLink.badTs1]
  case timeout =>
    rintro ht hf hpow _ rfl
    rw [exec_trainingTimeout, trainLate_trains ht hf hpow, State.trainFail]
  case restart =>
    intro e ht hf
    rw [exec_trainingRestart, trainAgain_failed ht hf]
  case frames =>
    intro f hg
    refine ⟨fun hty hj hfar => ?_, fun hty hj hpool => ?_, fun hty => ?_, fun hty => ?_⟩
    · rw [exec_fail, pfpReceive_inOrder hg hj (by omega) (by omega), if_pos hty, takeFail_credit hfar]
    · rw [exec_pfpCredit, pfpReceive_inOrder hg hj (by omega) (by omega), if_neg (by omega), takeCredit_vector hpool]
    · rw [exec_pfpRetry, pfpReceive_good hg, if_neg (by omega), if_pos hty]
      rfl
    · rw [exec_pfpIdle, pfpReceive_good hg, if_neg (by omega), if_neg (by omega)]
  case badCrc =>
    rintro f _ ha hc rfl
    rw [exec_fail, pfpReceive_badCrc ha hc]
    exact ⟨fun hd => by rw [pfpReject_discarding (s := s.bump (pfpOff p.val 0x44) 0 16 1) hd], fun hd hroom hk =>
      congrArg (fun t : State => Host.Outcome.next t.finish)
        (pfpReject_retries (s := s.bump (pfpOff p.val 0x44) 0 16 1) hd hroom hk)⟩
  case ackOwed =>
    rintro ha hd ho _ rfl
    rw [exec_pfpAckDue, pfpAckRow_owed ha hd ho]
    rfl
  case discarding =>
    intro ha hd t ht hstill
    rw [exec_pfpAckDue, pfpAckRow_discarding ha hd ht hstill]
  case credits =>
    intro d t hd ht
    rw [exec_failCreditDue, failCreditRow_due hd ht]
  case down =>
    intro hi t ht
    rw [exec_pfpLinkDown_active p s (active_of_idle hi), pfpDown_idle hi ht]
    exact ⟨fun hon => by rw [if_pos hon], fun hoff => by rw [if_neg (by simp [hoff])]⟩

end Sys2Proof.Machine
end

section
/-! The runs of a port (R289-R306): the end of a presence clear, the start, the examination of a tick, the end of an armed
run, and a fail record. -/

namespace Sys2Proof.Machine

/-! ### The rows -/

section

variable (p : Fin 16) (s : State)

theorem exec_presenceClearDone : exec (.presenceClearDone p) s = .next (s.clearDone p.val).finish := rfl

theorem exec_controlStart : exec (.controlStart p) s = .next (s.startRow p.val).finish := rfl

theorem exec_runStart : exec (.runStart p) s = .next (s.runRow p.val).finish := rfl

theorem exec_tickExamination : exec (.tickExamination p) s = .next (s.tickExam p.val).finish := rfl

theorem exec_armedRunEnd : exec (.armedRunEnd p) s = .next (s.armedEnd p.val).finish := rfl

theorem exec_failRecord : exec (.failRecord p) s = .next (s.failRow p.val).finish := rfl

end

/-! ### The end of a presence clear (R296, R297) -/

section

variable {s t : State} {p : Nat}

theorem fixStart_eq (s : State) (p t : Nat) : s.fixStart p t = Claims.startFixed s p t := rfl

/-- A port that has left IDLE answers BAD_PARAM. -/
theorem clearDone_left (hc : (s.port p).run.clearing = true) (ht : t = s.passEdges (s.port p).run.clearEnd)
    (h : (t.port p).run.clearLost = true ∨ (t.port p).state ≠ .idle) :
    s.clearDone p = Claims.armAnswer (t.setPort p { t.port p with
      present := [], run := { Run.reset with next := (t.port p).run.next, base := (t.port p).run.base } }) p 0x12 1 := by
  subst ht
  unfold State.clearDone
  rw [if_neg (by simp [hc])]
  exact if_pos (by simpa using h)

/-- A port that still waits in IDLE is armed, with S0 where its trigger fixes it now. -/
theorem clearDone_arms (hc : (s.port p).run.clearing = true) (ht : t = s.passEdges (s.port p).run.clearEnd)
    (hl : (t.port p).run.clearLost = false) (hi : (t.port p).state = .idle)
    (hin : ¬ ((t.port p).run.trigger = 1 ∧ (t.port p).run.trigT < t.now + 16)) :
    s.clearDone p = Claims.armAnswer
      (if (t.port p).run.trigger = 1 then
        Claims.startFixed (Claims.armed t p) p (slotAt (t.slotLen p) (64 * (t.port p).run.trigT))
      else if (t.port p).run.trigger = 0 ∧ (t.port p).run.prefill = 0 then
        Claims.startFixed (Claims.armed t p) p (slotAt (t.slotLen p) (t.now64 + 1024))
      else Claims.armed t p) p 0 0 := by
  subst ht
  unfold State.clearDone
  rw [if_neg (by simp [hc])]
  dsimp only
  rw [if_neg (by simp [hl, hi]), if_neg hin]
  split_ifs <;> rfl

end

/-! ### The start of a run (R297) -/

section

variable {s : State} {p s0 : Nat}

theorem startSlot_armed (ha : (s.port p).state = .armed) (hstop : (s.port p).run.stop = none)
    (h0 : (s.port p).run.s0 = some s0) : (s.port p).startSlot = some s0 := by
  simp [Port.startSlot, ha, hstop, h0]

theorem startRow_armed (h : (s.port p).startSlot = some s0) :
    s.startRow p = s.passUntil ((s0 - s.slotLen p) / 64 + 1) := by
  simp only [State.startRow, h]

theorem runRow_armed (h : (s.port p).startSlot = some s0) : s.runRow p = (s.passUntil ((s0 + 63) / 64)).runStart p := by
  simp only [State.runRow, h]

theorem runStart_fixed (h : (s.port p).run.s0 = some s0) :
    s.runStart p = s.updPort p (fun x => { x with state := .running, s0Time := s0 }) := by
  simp only [State.runStart, h]

end

/-! ### The examination of a tick (R289, R299-R303) -/

section

variable {s t : State} {p e r : Nat} {epoch : Bool}

theorem reserve_burst (h : 0 < (s.port p).run.burstLeft) : s.reserve p = (s, true) := if_pos h

theorem boundaryTick_none (h : (s.port p).run.boundary = none) : s.boundaryTick p e = (s, false) := by
  simp only [State.boundaryTick, h]

/-- The examination of a tick whose burst is reserved, of a port that needs no start, at no boundary. -/
theorem examine_tick {s0 : Nat} (h0 : (s.port p).run.s0 = some s0)
    (hst : (s.port p).state = .running ∨ (s.port p).state = .armed ∧ 64 * e < s0)
    (hend : (s.port p).run.ending = none) (hburst : 0 < (s.port p).run.burstLeft)
    (hb : (s.port p).run.boundary = none) :
    s.examine p e false = s.examineSlot p e (s.release p s0) false := by
  have hno : ((s.port p).state = .armed && decide (s0 ≤ 64 * e)) = false := by
    rcases hst with h | ⟨-, h⟩
    · simp [h]
    · simp [Nat.not_le.mpr h]
  simp only [State.examine, h0, hno, Bool.false_eq_true, if_false, hend, reserve_burst hburst, boundaryTick_none hb,
    Bool.or_self]

/-- A tick that `Claims.ticks` describes goes straight to its slot: no port's trigger makes a boundary in its cycle. -/
theorem tickExam_ticks (h : Claims.ticks s p e r) (hp : p < 16) :
    s.tickExam p = (s.goUntil e).examineSlot p e r false := by
  obtain ⟨hexam, htrips, ⟨s0, h0, rfl, hst⟩, hend, hburst, hb⟩ := h
  have hany : (List.range 16).any (fun q => (s.goUntil e).trips q e) = false := by
    simpa using htrips
  simp only [State.tickExam, hexam, hany, htrips p hp, Bool.false_and, Bool.false_eq_true, if_false]
  exact examine_tick h0 hst hend hburst hb

/-- A slot that is present and good is released (R299). -/
theorem examineSlot_good (hp : t.slotPresent p (t.port p).run.next e = true)
    (hg : (t.slotWords p (t.port p).run.next).all (fun w => !w.p) = true) :
    t.examineSlot p e r epoch = (t.pfpQueue p rankTick r (tickBody 0 (t.port p).run.next (t.pfpLen p)
        ((t.slotWords p (t.port p).run.next).map (fun w => w.v)) epoch)).updPort p (fun x =>
      { x with present := tclear x.present ((t.port p).run.next % 65536 * 4) ((t.port p).run.next % 65536 * 4 + 4),
               run := { x.run with
                 ticks := x.run.ticks + 1, burstLeft := x.run.burstLeft - 1, next := ((t.port p).run.next + 1) % 2 ^ 36,
                 released := (t.port p).run.released + 1, consec := 0, holding := false,
                 last := some ((t.port p).run.next, (t.slotWords p (t.port p).run.next).map (fun w => w.v)) } }) := by
  have hnone : ¬ (t.slotWords p (t.port p).run.next).any (fun w => w.p) = true := by
    simpa [List.all_eq_true, List.any_eq_true] using hg
  unfold State.examineSlot
  dsimp only
  rw [if_pos hp, if_neg hnone]
  rfl

/-- A poisoned word ends the run (R301). -/
theorem examineSlot_poisoned (hp : t.slotPresent p (t.port p).run.next e = true)
    (hw : (t.slotWords p (t.port p).run.next).any (fun w => w.p) = true) :
    t.examineSlot p e r epoch = (Claims.begunRun t p).endRunIn p 5 r := by
  unfold State.examineSlot
  dsimp only
  rw [if_pos hp, if_pos hw]
  rfl

theorem examineSlot_missing (hp : t.slotPresent p (t.port p).run.next e = false) :
    t.examineSlot p e r epoch = t.underrun p r epoch := if_neg (by simp [hp])

/-- An underrun under HOLD without a limit: counted, recorded once in a run, and a HOLD frame of the index that stays next
(R300). -/
theorem underrun_hold {u : State} (hpol : t.fld (pfpOff p 0x0C) 0 2 = 0) (hlim : t.fld (pfpOff p 0x0C) 2 16 = 0)
    (hu : u = ((if (t.port p).run.underRecorded then t.bump (pfpOff p 0x3C) 0 32 1
        else (t.bump (pfpOff p 0x3C) 0 32 1).pfpErr 0 p 0x3C 0 (t.pfpGraph p) 0).updPort p (fun x =>
      { x with run := { x.run with under := x.run.under + 1, consec := x.run.consec + 1, holding := true,
                                   underRecorded := true } }))) :
    t.underrun p r epoch = (u.pfpQueue p rankTick r (tickBody 2 (u.port p).run.next (t.pfpLen p) [] epoch)).updPort p
      (fun x => { x with run := { x.run with ticks := x.run.ticks + 1, burstLeft := x.run.burstLeft - 1 } }) := by
  unfold State.underrun
  dsimp only
  rw [hpol, hlim, ← hu, if_neg (by simp), if_neg (by decide)]
  rfl

end

/-! ### The end of an armed run (R296, R301) -/

theorem armedEnd_stopped {s t : State} {p reason slot : Nat} (ha : (s.port p).state = .armed)
    (hstop : (s.port p).run.stop = some (reason, slot)) (ht : t = s.passUntil (slot / 64)) :
    s.armedEnd p = t.endRunIn p reason slot := by
  simp only [State.armedEnd, hstop, ha, if_true, ht]

/-- A run ends with END for the end count and STOP, and with ABORT and its reason otherwise (R301). -/
theorem endRunIn_eq (t : State) (p reason slot : Nat) : t.endRunIn p reason slot =
    (t.pfpQueue p rankTick slot (if reason = 1 ∨ reason = 2
      then controlBody 2 0 (t.port p).run.next (t.port p).run.ticks 0
      else controlBody 3 reason (t.port p).run.next (t.port p).run.ticks 0)).endRun p reason := by
  unfold State.endRunIn
  by_cases h : reason = 1 ∨ reason = 2 <;> simp [h]

/-! ### Fail records (R306) -/

section

variable {s : State} {p : Nat}

theorem failRow_stopped (h : (s.queue (256 + p)).diag = true ∨ s.handlerParked p = true) : s.failRow p = s :=
  if_pos (by simpa using h)

theorem failRow_consumes (hd : (s.queue (256 + p)).diag = false) (hh : s.handlerParked p = false) :
    s.failRow p = State.failConsume 4 s p := if_neg (by simp [hd, hh])

theorem failConsume_nothing {k : Nat} (h : s.siltTake (256 + p) 3 = none) : State.failConsume k s p = s := by
  cases k with
  | zero => rfl
  | succ k => simp only [State.failConsume, h]

/-- A good word that does not end its record: the consumer goes on. -/
theorem failConsume_word {k : Nat} {w : SWord} {t u : State} (h : s.siltTake (256 + p) 3 = some (w, t))
    (hg : w.mark = .good) (hw : t.failWord p w = (u, false)) :
    State.failConsume (k + 1) s p = State.failConsume k u p := by
  simp only [State.failConsume, h, State.noteLost, hg, reduceCtorEq, if_false, hw]

/-- A good word that ends its record: the record has been decided. -/
theorem failConsume_last {k : Nat} {w : SWord} {t u : State} (h : s.siltTake (256 + p) 3 = some (w, t))
    (hg : w.mark = .good) (hw : t.failWord p w = (u, true)) : State.failConsume (k + 1) s p = u := by
  simp only [State.failConsume, h, State.noteLost, hg, reduceCtorEq, if_false, hw]

end

/-- Settles O15: by the row, the clear by its trigger, the tick by what its slot holds, the record word by word. -/
theorem portRuns : Obligations.PortRuns := by
  intro p s
  refine ⟨?clear, ?start, ?tick, ?armedEnd, ?noRecord, ?record, ?stopped⟩
  case clear =>
    rintro t _ hc ht rfl
    refine ⟨fun hl hi => ⟨fun h0 hpre => ?_, fun h0 hpre => ?_, fun h1 hin => ?_⟩, fun h => ?_⟩
    · rw [exec_presenceClearDone, clearDone_arms hc ht hl hi (by omega), if_neg (by omega), if_pos ⟨h0, hpre⟩]
    · rw [exec_presenceClearDone, clearDone_arms hc ht hl hi (by omega), if_neg (by omega), if_neg (fun h => hpre h.2)]
    · rw [exec_presenceClearDone, clearDone_arms hc ht hl hi (by omega), if_pos h1]
    · rw [exec_presenceClearDone, clearDone_left hc ht h]
  case start =>
    intro s0 t ha hstop h0
    have hslot := startSlot_armed ha hstop h0
    rw [exec_controlStart, startRow_armed hslot, exec_runStart, runRow_armed hslot]
    refine ⟨rfl, ?_⟩
    rintro rfl h0'
    rw [runStart_fixed h0']
  case tick =>
    rintro e r t _ hticks rfl rfl
    rw [exec_tickExamination, tickExam_ticks hticks p.isLt]
    refine ⟨fun hp hg => ?_, fun hp hw => ?_, fun hp hpol hlim u hu => ?_⟩
    · rw [examineSlot_good hp hg]
      rfl
    · rw [examineSlot_poisoned hp hw]
    · rw [examineSlot_missing hp, underrun_hold hpol hlim hu]
  case armedEnd =>
    intro reason slot t ha hstop ht
    rw [exec_armedRunEnd, armedEnd_stopped ha hstop ht, endRunIn_eq]
  case noRecord =>
    intro hd hh hnone
    rw [exec_failRecord, failRow_consumes hd hh, failConsume_nothing hnone]
  case record =>
    intro w1 w2 t1 t2 t3 t4 hd hh htake1 hg1 hw1 htake2 hg2 hw2
    rw [exec_failRecord, failRow_consumes hd hh, failConsume_word htake1 hg1 hw1, failConsume_last htake2 hg2 hw2]
  case stopped =>
    intro h
    rw [exec_failRecord, failRow_stopped h]

end Sys2Proof.Machine
end

section
/-! What holds between commands: every step ends settled (R393, R395), and so does the state at reset. -/

namespace Sys2Proof.Machine

/-- Settles O46: every step ends in `finish`, which leaves a settled state. -/
theorem everyStepSettles : Obligations.EveryStepSettles := by
  intro s t h
  obtain ⟨u, hu⟩ := step_finishes s
  cases hu.symm.trans h
  exact State.finish_settled u

/-- Settles O47: the reset state is a literal, so each of its facts is a small computation. -/
theorem resetState : Obligations.ResetState := by
  unfold Obligations.ResetState
  decide

end Sys2Proof.Machine
end

section
/-! The order of commands (R366), NOP, IDENTIFY, SET_FIELD and GET_FIELD (R358, R359). -/

namespace Sys2Proof.Machine

/-! ### A command that is not next -/

theorem withCmd_noTurn {s : State} {op : Nat} (h : Claims.noTurn s op) (f : State → Cmd → State) : s.withCmd op f = s := by
  rcases h with h | h | ⟨c, rest, h, hm⟩
  · simp [State.withCmd, h]
  · simp [State.withCmd, h]
  · simp [State.withCmd, h, hm]

/-- Each command row without operands is `withCmd` of its opcode. -/
theorem exec_commandRow {op : Nat} {i : Instr} (h : Claims.commandRow op = some i) :
    ∃ f, ∀ s, exec i s = .next (s.withCmd op f).finish := by
  obtain ⟨l, r, hmem, -⟩ := List.lookup_eq_some_iff.mp h
  suffices hall : ∀ p ∈ l ++ (op, i) :: r, ∃ f, ∀ s, exec p.2 s = .next (s.withCmd p.1 f).finish from hall (op, i) (by simp)
  rw [← hmem]
  simp only [List.forall_mem_cons]
  and_intros
  case refine_2 => exact List.forall_mem_nil _
  all_goals exact ⟨_, fun _ => rfl⟩

/-! ### Fields (R359) -/

section

variable {t u : State} {c : Cmd} {l : Loc} {f : Field}

theorem setFieldCmd_unknown (h : c.field = none) : t.setFieldCmd c = t.reply c 0x12 0 0 0 := by
  simp only [State.setFieldCmd, h]

theorem setFieldCmd_closed (h : c.field = some (l, f)) (hc : t.closed c.fn l = true) :
    t.setFieldCmd c = t.reply c 0x12 0 0 0 := by
  simp only [State.setFieldCmd, h, hc, if_true]

/-- The write of an open field replies by how it went. -/
theorem setFieldCmd_writes {x : WriteAns} (h : c.field = some (l, f)) (hc : t.closed c.fn l = false)
    (hw : t.writeReg c.fn l (Claims.setValue c f) f.mask = (u, x)) :
    t.setFieldCmd c = match x with
      | .refused => t.reply c 0x12 0 0 0
      | .locked => u.reply c 0x31 0 0 0
      | .done => u.reply c 0 0 0 0 := by
  have hv : t.writeReg c.fn l (c.par 64 32 * 2 ^ f.lsb) f.mask = (u, x) := hw
  simp only [State.setFieldCmd, h, hc, hv, Bool.false_eq_true, if_false]
  cases x <;> rfl

theorem getFieldCmd_unknown (h : c.field = none) : t.getFieldCmd c = t.reply c 0x12 0 0 0 := by
  simp only [State.getFieldCmd, h]

theorem getFieldCmd_reads {v : Nat} (h : c.field = some (l, f)) (hr : t.readReg c.fn l f.mask = (u, v)) :
    t.getFieldCmd c = u.reply c 0 (bitsOf v f.lsb f.width) ((Claims.shadowOf t l f).getD 0)
      (pack [(b2n (Claims.shadowOf t l f).isSome, 0), (f.cls.code, 1), (f.acc.code, 3)]) := by
  simp only [State.getFieldCmd, h, hr]
  rfl

end

/-- Settles O30: a row that is not next by `withCmd`, the others in the state in which they are next. -/
theorem fieldCommands : Obligations.FieldCommands := by
  intro s t c
  refine ⟨fun op i hrow hno => ?_, fun ht => row_of_turn ht rfl rfl, fun ht => row_of_turn ht rfl rfl,
    fun l f ht hf => ⟨fun hc => row_of_turn ht rfl (setFieldCmd_closed hf hc), fun hc => ⟨?_, ?_, ?_⟩⟩,
    fun ht hf => row_of_turn ht rfl (setFieldCmd_unknown hf),
    fun l f u v ht hf hr => row_of_turn ht rfl (getFieldCmd_reads hf hr),
    fun ht hf => row_of_turn ht rfl (getFieldCmd_unknown hf)⟩
  · obtain ⟨f, hf⟩ := exec_commandRow hrow
    rw [hf, withCmd_noTurn hno]
  all_goals exact fun u hw => row_of_turn ht rfl (setFieldCmd_writes hf hc hw)

end Sys2Proof.Machine
end

section
/-! The rows that write one register of a queue pair, of the error queue, of power, start and Blends (R340, R346-R349, R383,
R402-R406, R419, R426): an accepted write stores what the generic write stores, then acts. -/

namespace Sys2Proof.Machine

/-! ### Where the registers are -/

theorem blockOf_pair {q o : Nat} (hq : q < 64) (ho : o < 64) :
    blockOf (qpOff q o) = some (⟨13, 0x280000, 0x40, 64, 0x2C⟩, q, o) := by
  have hfind : blockRows.find? (fun b => decide (b.base ≤ qpOff q o) &&
      decide (qpOff q o < b.base + (if b.stride = 0 then b.span else b.insts * b.stride))) =
      some ⟨13, 0x280000, 0x40, 64, 0x2C⟩ := by
    rw [List.find?_eq_some_iff_append]
    refine ⟨Bool.and_eq_true_iff.mpr ⟨decide_eq_true (show 0x280000 ≤ qpOff q o by unfold qpOff; omega),
      decide_eq_true (show qpOff q o < 0x280000 + 64 * 0x40 by unfold qpOff; omega)⟩,
      blockRows.take 12, blockRows.drop 13, rfl, ?_⟩
    simp [blockRows, qpOff]
    omega
  unfold blockOf
  rw [hfind]
  simp [qpOff]
  omega

/-- The registers of a queue pair are the rows of its block (R448, R449). -/
theorem locate_pair {q o : Nat} (hq : q < 64) (ho : o < 64) : locate (qpOff q o) =
    (findRow regsQp o).map (fun p => { row := p.1, inst := q, idx := p.2, off := qpOff q o }) := by
  unfold locate
  rw [blockOf_pair hq ho]
  rfl

/-- The PF's map and a VF's subset name the same register of a pair (R451). -/
theorem busTarget_pair {fn q o : Nat} (h : Claims.mayName fn q) (hq : q < 64) (ho : o < 0x2C) (h4 : o % 4 = 0) :
    busTarget fn (Claims.pairOff fn q o) = regTarget (locate (qpOff q o)) := by
  unfold Claims.mayName qpFn at h
  unfold busTarget Claims.pairOff
  by_cases h0 : fn = 0
  · have hal : qpOff q o / 4 * 4 = qpOff q o := by unfold qpOff; omega
    have hout : ¬ (0x240000 ≤ qpOff q o ∧ qpOff q o < 0x244000) := by unfold qpOff; omega
    simp only [h0, if_true, hal, if_neg hout]
  · have hq32 : ¬ q < 32 := by intro hlt; rw [if_pos hlt] at h; omega
    rw [if_neg hq32] at h
    have hal : (0x1000 + 0x40 * (q % 2) + o) / 4 * 4 = 0x1000 + 0x40 * (q % 2) + o := by omega
    simp only [h0, if_false, hal]
    rw [if_neg (by omega)]
    rcases Nat.mod_two_eq_zero_or_one q with hp | hp
    · have heq : qpOff (32 + 2 * (fn - 1)) (0x1000 + 0x40 * (q % 2) + o - 0x1000) = qpOff q o := by unfold qpOff; omega
      rw [if_pos (by omega), heq]
    · have heq : qpOff (33 + 2 * (fn - 1)) (0x1000 + 0x40 * (q % 2) + o - 0x1040) = qpOff q o := by unfold qpOff; omega
      rw [if_neg (by omega), if_pos (by omega), heq]

/-- The control registers of the power domains (R383). -/
theorem busTarget_domain (d : Fin 80) : busTarget 0 (pwrOff (0x100 + 4 * d.val)) =
    .reg ⟨⟨.pwrDomCtrl, 16, 0x100, 4, 0, 80, [⟨0, 1, .rw, .live, 1⟩, ⟨1, 2, .ro, .live, 0⟩, ⟨3, 1, .ro, .live, 0⟩,
      ⟨16, 16, .ro, .live, 0⟩], 0x0⟩, 0, d.val, pwrOff (0x100 + 4 * d.val)⟩ := by
  revert d; decide +kernel

section

variable {s : State} {l : Loc} {v : Nat}

/-! ### Accepted writes -/

/-- The generic write stores no field of the row. -/
def storesNone (r : RegRow) : Bool := r.fields.all (fun f => ownField r.id f.lsb || f.acc == .wo || f.acc == .ro)

theorem stored_of_storesNone (h : storesNone l.row = true) : Claims.stored s l v = s := by
  unfold Claims.stored
  refine List.foldlRecOn (motive := fun t => t = s) l.row.fields _ rfl ?_
  rintro _ rfl f hf
  have hcase := List.all_eq_true.mp h f hf
  simp only [Bool.or_eq_true, beq_iff_eq] at hcase
  unfold State.putField
  rcases hcase with (hown | hacc) | hacc
  · rw [if_pos (by simp [hown])]
  all_goals rw [hacc]; split <;> rfl

theorem qpWrite_named {fn q o : Nat} (h : Claims.mayName fn q) :
    s.qpWrite fn q o v = s.busWrite fn (Claims.pairOff fn q o) v 15 := by
  unfold State.qpWrite Claims.pairOff
  by_cases h0 : fn = 0
  · simp only [h0, if_true]
  · simp only [h0, if_false, if_pos (h.resolve_left h0)]

/-- An accepted write of a queue pair's register. -/
theorem qpWrite_accepted {fn q o : Nat} (hm : Claims.mayName fn q) (h : Claims.accepts s fn (Claims.pairOff fn q o) v l)
    (hv : v < 4294967296) : s.qpWrite fn q o v = (Claims.stored s l v).act s l v 0xFFFFFFFF 0 fn := by
  rw [qpWrite_named hm, busWrite_accepted h hv]

/-- The register that an accepted write of a pair reaches. -/
theorem loc_of_pair {fn q o : Nat} {r : RegRow} (hm : Claims.mayName fn q) (hq : q < 64) (ho : o < 0x2C) (h4 : o % 4 = 0)
    (hr : findRow regsQp o = some (r, 0)) (h : Claims.accepts s fn (Claims.pairOff fn q o) v l) :
    l = { row := r, inst := q, idx := 0, off := qpOff q o } := by
  obtain ⟨⟨ht, -, -⟩, -, -⟩ := h
  rw [busTarget_pair hm hq ho h4, locate_pair hq (by omega), hr] at ht
  exact (Target.reg.inj ht).symm

end

/-! ### The rows of a pair -/

section

variable {s : State} {l : Loc} {fn q v : Nat} (hm : Claims.mayName fn q) (hq : q < 64) (hv : v < 4294967296)
include hm hq hv

theorem qpWrite_tail (h : Claims.accepts s fn (Claims.pairOff fn q 0x18) v l) :
    s.qpWrite fn q 0x18 v = s.doorbell q (bitsOf v 0 12) := by
  rw [qpWrite_accepted hm h hv, loc_of_pair hm hq (by decide) rfl rfl h, stored_of_storesNone rfl]
  rfl

theorem qpWrite_cqHead (h : Claims.accepts s fn (Claims.pairOff fn q 0x24) v l) : s.qpWrite fn q 0x24 v =
    if (s.qp q).writing then (Claims.headMoved s q v).ringWrite q else Claims.headMoved s q v := by
  rw [qpWrite_accepted hm h hv, loc_of_pair hm hq (by decide) rfl rfl h, stored_of_storesNone rfl]
  show (if ((Claims.headMoved s q v).qp q).writing then _ else _) = _
  rw [show ((Claims.headMoved s q v).qp q).writing = (s.qp q).writing by simp [Claims.headMoved]]
  rfl

theorem qpWrite_ctrl (h : Claims.accepts s fn (Claims.pairOff fn q 0x14) v l) :
    s.qpWrite fn q 0x14 v = (Claims.stored s l v).pairEnable q (bitOf v 0) (s.qpOn q) := by
  have hl := loc_of_pair hm hq (by decide) rfl rfl h
  rw [qpWrite_accepted hm h hv, hl]
  rfl

end


/-- The enable bit of a pair after the other fields, by what it was (R349). -/
theorem pairEnable_stays (s : State) (q : Nat) (on : Bool) :
    s.pairEnable q on on = s.setFld (qpOff q 0x14) 0 1 (b2n on) := by
  simp [State.pairEnable]

theorem pairEnable_on (s : State) (q : Nat) :
    s.pairEnable q true false = (s.setFld (qpOff q 0x14) 0 1 1).setQp q Qp.reset := rfl

theorem pairEnable_off (s : State) (q : Nat) :
    s.pairEnable q false true = (s.setFld (qpOff q 0x14) 0 1 0).qpDisable q := rfl

theorem bitOf_zero_set (v : BitVec 32) : bitOf (v ||| 1).toNat 0 = true := by
  rw [bitOf, BitVec.toNat_or, Nat.testBit_or]; simp

theorem bitOf_zero_cleared (v : BitVec 32) : bitOf (v &&& ~~~1).toNat 0 = false := by
  rw [bitOf, BitVec.toNat_and, Nat.testBit_and]; simp

theorem bitOf_above_set (v : BitVec 32) : bitOf (v ||| 1).toNat 1 = bitOf v.toNat 1 := by
  rw [bitOf, BitVec.toNat_or, Nat.testBit_or]
  exact Bool.or_false _

/-- START_CTRL with bit 0: a restart is due, and bit 1 clears the ledger's history (R402, R406). -/
theorem startControl_restart (s : State) {v : Nat} (h : bitOf v 0 = true) : s.startControl v 0xFFFFFFFF =
    if bitOf v 1 then { s with start := { s.start with due := some 5, cleared := true, sinceClear := 0 } }
    else { s with start := { s.start with due := some 5 } } := by
  have h0 : (bitOf 0xFFFFFFFF 0 && bitOf v 0) = true := by rw [h]; rfl
  have h1 : (bitOf 0xFFFFFFFF 1 && bitOf v 1) = bitOf v 1 := Bool.true_and _
  simp only [State.startControl, h0, h1, if_true, Start.clear]

/-- The rows of QUEUE_PAIR_ENABLE and QUEUE_PAIR_DISABLE, by what the enable bit was. -/
theorem exec_queuePairEnable {s : State} {fn : Fin 17} {q : Fin 64} {v : BitVec 32} {l : Loc} {was : Bool}
    (hm : Claims.mayName fn.val q.val) (h : Claims.accepts s fn.val (Claims.pairOff fn.val q.val 0x14) (v ||| 1).toNat l)
    (hw : s.qpOn q.val = was) : exec (.queuePairEnable fn q v) s =
      .next ((Claims.stored s l (v ||| 1).toNat).pairEnable q.val true was).finish := by
  show Host.Outcome.next (s.qpWrite fn.val q.val 0x14 (v ||| 1).toNat).finish = _
  rw [qpWrite_ctrl hm q.isLt (v ||| 1).isLt h, bitOf_zero_set, hw]

theorem exec_queuePairDisable {s : State} {fn : Fin 17} {q : Fin 64} {v : BitVec 32} {l : Loc} {was : Bool}
    (hm : Claims.mayName fn.val q.val) (h : Claims.accepts s fn.val (Claims.pairOff fn.val q.val 0x14) (v &&& ~~~1).toNat l)
    (hw : s.qpOn q.val = was) : exec (.queuePairDisable fn q v) s =
      .next ((Claims.stored s l (v &&& ~~~1).toNat).pairEnable q.val false was).finish := by
  show Host.Outcome.next (s.qpWrite fn.val q.val 0x14 (v &&& ~~~1).toNat).finish = _
  rw [qpWrite_ctrl hm q.isLt (v &&& ~~~1).isLt h, bitOf_zero_cleared, hw]

/-! ### The rows of one register -/

section

variable {s : State} {l : Loc} {v : Nat}

/-- An accepted PF write of a register whose fields its block holds, by the row that stands at the offset. -/
theorem pfWrite_unstored {o : Nat} {m : Loc} (ht : busTarget 0 o = .reg m) (hv : v < 4294967296)
    (hf : storesNone m.row = true)
    (h : Claims.accepts s 0 o v l) : s.pfWrite o v = s.act s m v 0xFFFFFFFF 0 0 := by
  have hl : m = l := Target.reg.inj (ht.symm.trans h.1.1)
  subst hl
  exact (busWrite_accepted h hv).trans (by rw [stored_of_storesNone hf])

theorem exec_domainRequest {d : Fin 80} {w : BitVec 32} (h : Claims.accepts s 0 (pwrOff (0x100 + 4 * d.val)) w.toNat l) :
    exec (.domainRequest d w) s =
      .next ((s.setDom d.val { s.dom d.val with req := bitOf w.toNat 0 }).domFollow d.val).finish :=
  next_finish (pfWrite_unstored (busTarget_domain d) w.isLt rfl h)

end

/-! ### MSI-X, DIAG pop -/

theorem unmask_pending {s : State} {fn vec : Nat} (h : tget false s.msix.pba (fn * 2048 + vec) = true) :
    s.unmask fn vec = State.emit { Claims.unmasked s (fn * 2048 + vec) with msix :=
      { (Claims.unmasked s (fn * 2048 + vec)).msix with
        pba := tput false (Claims.unmasked s (fn * 2048 + vec)).msix.pba (fn * 2048 + vec) false } } (.msix fn vec) := by
  unfold State.unmask
  rw [if_pos h]
  rfl

theorem unmask_quiet {s : State} {fn vec : Nat} (h : tget false s.msix.pba (fn * 2048 + vec) = false) :
    s.unmask fn vec = Claims.unmasked s (fn * 2048 + vec) := by
  unfold State.unmask
  rw [if_neg (by simp [h])]
  rfl

/-- The register that DIAG_POP reads (R201). -/
def sqPopLoc : Loc :=
  { row := ⟨.sqDbgPopLo, 5, 0x90, 0, 0, 1, [⟨0, 32, .rc, .live, 0⟩], 0x0⟩, inst := 0, idx := 0, off := sqOff 0x90 }

theorem spaceRead_pop {s : State} (hp : s.pcieUp = true) (hr : s.ready = true) : s.spaceRead .bar0 0 (sqOff 0x90) =
    if s.sqDiag s.sqSel then (s.diagTake.1.setReg (sqOff 0x94) s.diagTake.2.2, fieldOf s.diagTake.2.1.v 0 32)
    else (s, 0) :=
  busRead_reg (l := sqPopLoc) rfl (by simp [State.answers, hp, hr])

/-- Settles O25: row by row, each by where its register stands and what an accepted write of it sets going. -/
theorem hostRegisterRows : Obligations.HostRegisterRows := by
  intro s v l
  refine ⟨fun fn q hm => ⟨?tail, ?head, ?enable, ?disable⟩, ?erq, ?burn, ?commit, fun d => exec_domainRequest, ?restart,
    ?unmask, fun be hp hr => ⟨fun hd => ?popDiag, fun hd => ?popNot⟩,
    fun b hp => congrArg (fun t : State => Host.Outcome.next t.finish) (if_pos hp)⟩
  case tail =>
    intro h
    refine ⟨fun hon hlt => next_finish ((qpWrite_tail hm q.isLt v.isLt h).trans (if_pos (by simp [hon, hlt]))),
      fun hno => next_finish ((qpWrite_tail hm q.isLt v.isLt h).trans (if_neg ?_))⟩
    rcases hno with hno | hno
    · simp [hno]
    · simp [Nat.not_lt.mpr hno]
  case head =>
    exact fun h => ⟨fun hw => next_finish ((qpWrite_cqHead hm q.isLt v.isLt h).trans (if_neg (by simp [hw]))),
      fun hw => next_finish ((qpWrite_cqHead hm q.isLt v.isLt h).trans (if_pos hw))⟩
  case enable =>
    refine fun h => ⟨fun hw => ?_, fun hw => ?_⟩
    · rw [exec_queuePairEnable hm h hw, pairEnable_on]; rfl
    · rw [exec_queuePairEnable hm h hw, pairEnable_stays]; rfl
  case disable =>
    refine fun h => ⟨fun hw => ?_, fun hw => ?_⟩
    · rw [exec_queuePairDisable hm h hw, pairEnable_off]; rfl
    · rw [exec_queuePairDisable hm h hw, pairEnable_stays]; rfl
  case erq =>
    intro h
    have hw := pfWrite_unstored (o := erqOff 4) rfl v.isLt rfl h
    exact next_finish hw
  case burn =>
    intro h
    have hw := pfWrite_unstored (o := mcOff 0x34) rfl v.isLt rfl h
    exact next_finish hw
  case commit =>
    intro h
    have hw := pfWrite_unstored (o := mcOff 0x40) rfl v.isLt rfl h
    exact ⟨fun hb => next_finish (hw.trans (if_pos hb)), fun hb => next_finish (hw.trans (if_neg (by simp [hb])))⟩
  case restart =>
    intro h
    have hw := pfWrite_unstored (o := startOff 4) rfl (v ||| 1).isLt rfl h
    have hc := hw.trans (startControl_restart s (bitOf_zero_set v))
    rw [bitOf_above_set] at hc
    exact ⟨fun hb => next_finish (hc.trans (if_neg (by simp [hb]))), fun hb => next_finish (hc.trans (if_pos hb))⟩
  case unmask =>
    refine fun fn vec => ⟨fun hlt hn => next_finish ((if_pos hlt).trans (unmask_quiet hn)), ?_,
      fun hle => next_finish (if_neg (Nat.not_lt.mpr hle))⟩
    rintro _ hlt hp rfl
    exact next_finish ((if_pos hlt).trans (unmask_pending hp))
  case popDiag => exact next_finish (hostRead_linked hp ((spaceRead_pop hp hr).trans (if_pos hd)))
  case popNot => exact next_finish (hostRead_linked hp ((spaceRead_pop hp hr).trans (if_neg (by simp [hd]))))

end Sys2Proof.Machine
end

section
/-! The DOE mailbox (R342): the tests that every SPDM row makes, in their order, and then the response of each row. -/

namespace Sys2Proof.Machine

@[simp] theorem slice_length (bs : List Byte) (lo n : Nat) : (slice bs lo n).length = n := by simp [slice]

/-! ### The tests of a row -/

section

variable {s : State} {req : List Byte} {code version : Nat} {need : Bool} {f : State → State × List Byte}

theorem spdm_unlinked (h : s.pcieUp = false) : s.spdm_ req code version need f = s := if_pos (by simp [h])

variable (hp : s.pcieUp = true)
include hp

theorem spdm_invalid (h : leAt req 1 1 ≠ code ∨ req.length < 4) :
    s.spdm_ req code version need f = Claims.spdmErr s 1 := by
  unfold State.spdm_
  rw [if_neg (by simp [hp]), if_pos h]
  rfl

variable (hc : leAt req 1 1 = code) (hl : 4 ≤ req.length)
include hc hl

theorem spdm_unexpected (h : need = false) : s.spdm_ req code version need f = Claims.spdmErr s 4 := by
  unfold State.spdm_
  rw [if_neg (by simp [hp]), if_neg (by omega), if_pos (by simp [h])]
  rfl

theorem spdm_otherVersion (hn : need = true) (h : leAt req 0 1 ≠ version) :
    s.spdm_ req code version need f = Claims.spdmErr s 0x41 := by
  unfold State.spdm_
  rw [if_neg (by simp [hp]), if_neg (by omega), if_neg (by simp [hn]), if_pos h]
  rfl

theorem spdm_served (hn : need = true) (h : leAt req 0 1 = version) :
    s.spdm_ req code version need f = (f s).1.doeAnswer 1 (f s).2 := by
  unfold State.spdm_
  rw [if_neg (by simp [hp]), if_neg (by omega), if_neg (by simp [hn]), if_neg (by simp [h])]

end

/-- What each row of SPDM answers when it serves. -/
def spdmResponse (k : Fin 7) (req : List Byte) : State → State × List Byte :=
  match k with
  | 0 => State.spdmVer
  | 1 => State.spdmCaps
  | 2 => fun t => t.spdmAlgs req
  | 3 => State.spdmDigests
  | 4 => fun t => t.spdmCert req
  | 5 => fun t => t.spdmChal req
  | 6 => fun t => t.spdmMeas req

/-- The seven rows are one: the tests, then the row's own response. -/
theorem exec_spdmRow (s : State) (k : Fin 7) (req : List Byte) : exec (Claims.spdmRow k req) s =
    .next (s.spdm_ req (Claims.spdmCode k) (Claims.spdmVer k) (Claims.spdmNeed s k) (spdmResponse k req)).finish :=
  match k with
  | 0 | 1 | 2 | 3 | 4 | 5 | 6 => rfl

theorem exec_spdmRow_served {s t : State} {k : Fin 7} {req bs : List Byte} (h : Claims.spdmServes s k req)
    (hr : spdmResponse k req s = (t, bs)) : exec (Claims.spdmRow k req) s = .next (t.doeAnswer 1 bs).finish := by
  obtain ⟨hp, hc, hl, hn, hv⟩ := h
  rw [exec_spdmRow, spdm_served hp hc hl hn hv, hr]

/-! ### The responses that have a refusal of their own -/

section

variable {s : State} {req : List Byte}

theorem spdmCert_invalid (h : leAt req 2 1 ≠ 0 ∨ certChain.length ≤ leAt req 4 2) :
    s.spdmCert req = (s, spdmError 1) := if_pos h

theorem spdmCert_part (h0 : leAt req 2 1 = 0) (h : leAt req 4 2 < certChain.length) : s.spdmCert req =
    (s, [0x12, 0x02, 0, 0] ++ leBytes 2 ((certChain.drop (leAt req 4 2)).take (leAt req 6 2)).length ++
      leBytes 2 (certChain.length - leAt req 4 2 - ((certChain.drop (leAt req 4 2)).take (leAt req 6 2)).length) ++
      (certChain.drop (leAt req 4 2)).take (leAt req 6 2)) := if_neg (by omega)

/-- A type of measurement summary that CHALLENGE knows. -/
theorem summaryType_iff (ty : Nat) : (!(ty == 0 || ty == 1 || ty == 0xFF)) = true ↔ ¬ (ty = 0 ∨ ty = 1 ∨ ty = 0xFF) := by
  simp [and_assoc]

theorem spdmChal_invalid (h : leAt req 2 1 ≠ 0 ∨ req.length < 36 ∨ ¬ (leAt req 3 1 = 0 ∨ leAt req 3 1 = 1 ∨ leAt req 3 1 = 0xFF)) :
    s.spdmChal req = (s, spdmError 1) := by
  rw [← summaryType_iff] at h
  exact if_pos h

theorem spdmChal_answers (h0 : leAt req 2 1 = 0) (hl : 36 ≤ req.length)
    (ht : leAt req 3 1 = 0 ∨ leAt req 3 1 = 1 ∨ leAt req 3 1 = 0xFF) : s.spdmChal req =
      (s.spdmDraw, [0x12, 0x03, 0, 1] ++ sha384 certChain ++ slice (Config.spdmNonce s.spdm.rnd) 0 32 ++
        s.measSummary (leAt req 3 1) ++ [0, 0] ++ slice (Config.spdmSign s.spdm.rnd) 0 96) := by
  refine if_neg ?_
  rw [summaryType_iff]
  rintro (h | h | h)
  · exact h h0
  · omega
  · exact h ht

/-- The test that GET_MEASUREMENTS makes of a signed request. -/
theorem signedBad_iff (sig : Bool) : (sig && (decide (req.length < 37) || leAt req 36 1 != 0)) = true ↔
    sig = true ∧ (req.length < 37 ∨ leAt req 36 1 ≠ 0) := by
  simp

theorem spdmMeas_invalid (h : (4 < leAt req 3 1 ∧ leAt req 3 1 ≠ 0xFF) ∨
    (bitOf (leAt req 2 1) 0 = true ∧ (req.length < 37 ∨ leAt req 36 1 ≠ 0))) : s.spdmMeas req = (s, spdmError 1) := by
  rw [← signedBad_iff] at h
  exact if_pos h

theorem spdmMeas_answers {r : List Byte} (ho : leAt req 3 1 ≤ 4 ∨ leAt req 3 1 = 0xFF)
    (hs : bitOf (leAt req 2 1) 0 = true → 37 ≤ req.length ∧ leAt req 36 1 = 0)
    (hr : r = s.measRecord (bitOf (leAt req 2 1) 1) (Claims.indices (leAt req 3 1))) : s.spdmMeas req =
      (s.spdmDraw, [0x12, 0x60, if leAt req 3 1 = 0 then 4 else 0, 0] ++
        leBytes 1 (Claims.indices (leAt req 3 1)).length ++ leBytes 3 r.length ++ r ++
        slice (Config.spdmNonce s.spdm.rnd) 0 32 ++ [0, 0] ++
        (if bitOf (leAt req 2 1) 0 = true then slice (Config.spdmSign s.spdm.rnd) 0 96 else [])) := by
  subst hr
  refine if_neg ?_
  rw [signedBad_iff]
  rintro (h | ⟨hb, h⟩)
  · omega
  · obtain ⟨hlen, hzero⟩ := hs hb
    rcases h with h | h
    · omega
    · exact h hzero

end

/-- Settles O37: the refusals once for the seven rows, then each row's response. -/
theorem spdm : Obligations.Spdm := by
  intro s req
  refine ⟨fun h => ⟨next_finish (if_neg (by simp [h])), fun k => ?_⟩, fun h => next_finish (if_pos h), fun k hp => ⟨fun h => ?_,
    fun hc hl => ⟨fun h => ?_, fun hn h => ?_⟩⟩, fun h => exec_spdmRow_served h rfl,
    fun h => ⟨exec_spdmRow_served h rfl, ?_⟩, fun h => ⟨exec_spdmRow_served h rfl, ?_⟩, fun h => exec_spdmRow_served h rfl,
    ?cert, ?challenge, ?measurements⟩
  · rw [exec_spdmRow, spdm_unlinked h]
  · rw [exec_spdmRow, spdm_invalid hp h]
  · rw [exec_spdmRow, spdm_unexpected hp hc hl h]
  · rw [exec_spdmRow, spdm_otherVersion hp hc hl hn h]
  · simp [State.spdmCaps]
  · simp [State.spdmAlgs]
  case cert =>
    rintro hs _ rfl
    refine ⟨fun h => exec_spdmRow_served hs (spdmCert_invalid h), ?_⟩
    rintro _ h0 hlt rfl
    exact exec_spdmRow_served hs (spdmCert_part h0 hlt)
  case challenge =>
    rintro hs _ rfl
    exact ⟨fun h => exec_spdmRow_served hs (spdmChal_invalid h),
      fun h0 hl ht => exec_spdmRow_served hs (spdmChal_answers h0 hl ht)⟩
  case measurements =>
    rintro hs _ _ rfl rfl
    exact ⟨fun h => exec_spdmRow_served hs (spdmMeas_invalid h),
      fun r ho hsig hr => exec_spdmRow_served hs (spdmMeas_answers ho hsig hr)⟩

end Sys2Proof.Machine
end

section
/-! The out-of-band endpoint (R410-R413): the tests that the rows of each message type make, then each row's answer. -/

namespace Sys2Proof.Machine

/-! ### The tests of the three message types -/

section

variable {s t : State} {eid : BitVec 8} {req bs : List Byte} {c ty : Nat} {f : State → State × List Byte}

theorem oobAnswer_powered (h : s.start.vstby = true) : s.oobAnswer eid bs = Claims.toward s eid bs := if_pos h

theorem control_unpowered (h : s.start.vstby = false) : s.control eid req c f = s := if_pos (by simp [h])

theorem pldm_unpowered (h : s.start.vstby = false) : s.pldm eid req ty c f = s := if_pos (by simp [h])

theorem vendor_unpowered (h : s.start.vstby = false) : s.vendor eid req c f = s := if_pos (by simp [h])

theorem pldm_ignored (h : Claims.notPldm req) : s.pldm eid req ty c f = s :=
  if_pos (by rw [bne_iff_ne.mpr h]; exact Bool.or_true _)

theorem vendor_ignored (h : Claims.notVendor req) : s.vendor eid req c f = s := by
  refine if_pos ?_
  rw [Bool.or_assoc, Bool.or_eq_true, Bool.or_eq_true, bne_iff_ne, bne_iff_ne]
  exact .inr h

variable (hs : s.start.vstby = true)
include hs

theorem control_unsupported (h : leAt req 0 1 ≠ 0 ∨ leAt req 2 1 ≠ c) :
    s.control eid req c f = Claims.toward s eid (Claims.ctlHead req ++ [5]) := by
  rw [← oobAnswer_powered hs]
  exact (if_neg (by simp [hs])).trans (if_pos h)

theorem control_served (h0 : leAt req 0 1 = 0) (hc : leAt req 2 1 = c) (hf : f s = (t, bs)) (ht : t.start.vstby = true) :
    s.control eid req c f = Claims.toward t eid (Claims.ctlHead req ++ bs) := by
  rw [← oobAnswer_powered ht]
  refine (if_neg (by simp [hs])).trans ((if_neg (by omega)).trans ?_)
  rw [hf]
  rfl

/-- The first test of a PLDM row fails for a PLDM message while VSTBY is good. -/
theorem pldm_reached (h : ¬ Claims.notPldm req) : (!s.start.vstby || leAt req 0 1 != 1) = false := by
  rw [hs, Decidable.of_not_not h]; rfl

theorem pldm_invalidType (h : ¬ Claims.notPldm req) (h0 : leAt req 2 1 % 64 ≠ 0) (h2 : leAt req 2 1 % 64 ≠ 2) :
    s.pldm eid req ty c f = Claims.toward s eid (Claims.pldmHead req ++ [0x20]) := by
  rw [← oobAnswer_powered hs]
  exact (if_neg (Bool.eq_false_iff.mp (pldm_reached hs h))).trans (if_pos ⟨h0, h2⟩)

theorem pldm_unsupported (h : ¬ Claims.notPldm req) (hty : leAt req 2 1 % 64 = 0 ∨ leAt req 2 1 % 64 = 2)
    (hc : leAt req 2 1 % 64 ≠ ty ∨ leAt req 3 1 ≠ c) :
    s.pldm eid req ty c f = Claims.toward s eid (Claims.pldmHead req ++ [5]) := by
  rw [← oobAnswer_powered hs]
  exact (if_neg (Bool.eq_false_iff.mp (pldm_reached hs h))).trans ((if_neg (by omega)).trans (if_pos hc))

theorem pldm_served (h : ¬ Claims.notPldm req) (hty : ty = 0 ∨ ty = 2) (ht : leAt req 2 1 % 64 = ty) (hc : leAt req 3 1 = c)
    (hf : f s = (t, bs)) (hv : t.start.vstby = true) :
    s.pldm eid req ty c f = Claims.toward t eid (Claims.pldmHead req ++ bs) := by
  rw [← oobAnswer_powered hv]
  refine (if_neg (Bool.eq_false_iff.mp (pldm_reached hs h))).trans ((if_neg (by omega)).trans ((if_neg (by omega)).trans ?_))
  rw [hf]
  rfl

theorem vendor_reached (h : ¬ Claims.notVendor req) :
    (!s.start.vstby || leAt req 0 1 != 0x7E || leAt req 1 2 != 0x3C1F) = false := by
  obtain ⟨h1, h2⟩ := not_or.mp h
  rw [hs, Decidable.of_not_not h1, Decidable.of_not_not h2]; rfl

theorem vendor_unsupported (h : ¬ Claims.notVendor req) (hc : leAt req 3 1 ≠ c) :
    s.vendor eid req c f = Claims.toward s eid (Claims.vdmHead req ++ [5]) := by
  rw [← oobAnswer_powered hs]
  exact (if_neg (Bool.eq_false_iff.mp (vendor_reached hs h))).trans (if_pos hc)

theorem vendor_served (h : ¬ Claims.notVendor req) (hc : leAt req 3 1 = c) (hf : f s = (t, bs)) (ht : t.start.vstby = true) :
    s.vendor eid req c f = Claims.toward t eid (Claims.vdmHead req ++ bs) := by
  rw [← oobAnswer_powered ht]
  refine (if_neg (Bool.eq_false_iff.mp (vendor_reached hs h))).trans ((if_neg (by simp [hc])).trans ?_)
  rw [hf]
  rfl

end

/-! ### SET_ENDPOINT_ID and SET_EVENT_RECEIVER -/

section

variable {s : State} {req : List Byte}

theorem setEid_cases (s : State) (req : List Byte) :
    (req.length = 5 → leAt req 3 1 % 4 ≤ 1 → leAt req 4 1 ≠ 0 → leAt req 4 1 ≠ 0xFF →
      (s.setEid req).1 = { s with oob := { s.oob with eid := BitVec.ofNat 8 (leAt req 4 1) } }) ∧
    ((req.length ≠ 5 ∨ 1 < leAt req 3 1 % 4 ∨ leAt req 4 1 = 0 ∨ leAt req 4 1 = 0xFF) → (s.setEid req).1 = s) := by
  unfold State.setEid
  refine ⟨fun h5 ho h0 hF => ?_, fun h => ?_⟩
  · rw [if_neg (by omega), if_neg (by omega)]
  · by_cases h5 : req.length = 5
    · rw [if_neg (by omega), if_pos (by omega)]
    · rw [if_pos h5]

theorem setReceiver_cases (s : State) (req : List Byte) :
    (leAt req 4 1 = 0 → (s.setReceiver req).1 = { s with oob := { s.oob with receiver := none } }) ∧
    (leAt req 4 1 = 1 → leAt req 5 1 = 0 →
      (s.setReceiver req).1 = { s with oob := { s.oob with receiver := some (BitVec.ofNat 8 (leAt req 6 1)) } }) ∧
    (leAt req 4 1 ≠ 0 → (leAt req 4 1 ≠ 1 ∨ leAt req 5 1 ≠ 0) → (s.setReceiver req).1 = s) := by
  unfold State.setReceiver
  refine ⟨fun h => ?_, fun h1 h5 => ?_, fun h0 h => ?_⟩
  · rw [if_pos h]
  · rw [if_neg (by omega), if_neg (by omega), if_neg (by omega)]
  · rw [if_neg h0]
    by_cases h1 : leAt req 4 1 = 1
    · rw [if_neg (by omega), if_pos (by omega)]
    · rw [if_pos h1]

theorem setEid_start (s : State) (req : List Byte) : (s.setEid req).1.start = s.start := by
  unfold State.setEid
  simp only []
  split_ifs <;> rfl

theorem setReceiver_start (s : State) (req : List Byte) : (s.setReceiver req).1.start = s.start := by
  unfold State.setReceiver
  simp only []
  split_ifs <;> rfl

end

/-! ### The rows -/

section

variable {s t : State} {eid : BitVec 8} {req bs : List Byte} {i : Instr} {c ty : Nat}

/-- The rows of each message type are one: the tests, then the row's own answer, which keeps VSTBY. -/
theorem exec_control (h : Claims.control s eid req i c t bs) :
    ∃ f, exec i s = .next (s.control eid req c f).finish ∧ f s = (t, bs) ∧ t.start.vstby = s.start.vstby := by
  rcases h with ⟨rfl, rfl, h⟩ | ⟨rfl, rfl, rfl, rfl⟩ | ⟨rfl, rfl, rfl, rfl⟩ | ⟨rfl, rfl, rfl, rfl⟩
  · refine ⟨_, rfl, h, ?_⟩
    have hst := setEid_start s req
    rw [h] at hst
    exact congrArg Start.vstby hst
  all_goals exact ⟨_, rfl, rfl, rfl⟩

theorem exec_pldm (h : Claims.pldm s eid req i ty c t bs) : (ty = 0 ∨ ty = 2) ∧
    ∃ f, exec i s = .next (s.pldm eid req ty c f).finish ∧ f s = (t, bs) ∧ t.start.vstby = s.start.vstby := by
  rcases h with ⟨rfl, rfl, rfl, h⟩ | ⟨rfl, h⟩
  · refine ⟨.inr rfl, _, rfl, h, ?_⟩
    have hst := setReceiver_start s req
    rw [h] at hst
    exact congrArg Start.vstby hst
  · rcases h with ⟨rfl, rfl, rfl, rfl⟩ | ⟨rfl, rfl, rfl, rfl⟩ | ⟨rfl, rfl, rfl, rfl⟩ | ⟨rfl, rfl, rfl, rfl⟩ |
      ⟨rfl, rfl, rfl, rfl⟩ | ⟨rfl, rfl, rfl, rfl⟩ | ⟨rfl, rfl, rfl, rfl⟩ | ⟨rfl, rfl, rfl, rfl⟩
    all_goals exact ⟨by decide, _, rfl, rfl, rfl⟩

theorem oobLedger_eq (s : State) (req : List Byte) : s.oobLedger req = 0 :: Claims.backEntry s (leAt req 4 1) := by
  unfold State.oobLedger Claims.backEntry
  cases s.start.ledger[leAt req 4 1]? <;> rfl

theorem exec_vendor (h : Claims.vendor s eid req i c t bs) :
    ∃ f, exec i s = .next (s.vendor eid req c f).finish ∧ f s = (t, bs) ∧ t.start.vstby = s.start.vstby := by
  rcases h with ⟨rfl, rfl, rfl, rfl⟩ | ⟨rfl, rfl, rfl, rfl⟩ | ⟨rfl, rfl, rfl, rfl⟩ | ⟨rfl, rfl, rfl, rfl⟩
  · exact ⟨_, rfl, rfl, rfl⟩
  · exact ⟨_, rfl, congrArg (Prod.mk t) (oobLedger_eq t req), rfl⟩
  · exact ⟨_, rfl, rfl, rfl⟩
  · exact ⟨_, rfl, rfl, rfl⟩

end

/-- Settles O43: the tests once per message type, then the answer of each row. -/
theorem outOfBand : Obligations.OutOfBand := by
  intro s eid req
  refine ⟨fun h => ⟨fun i c t bs hr => ?_, fun i ty c t bs hr => ?_, fun i c t bs hr => ?_⟩,
    fun hv => ⟨fun i c t bs hr => ?control, fun i ty c t bs hr => ?pldm, fun i c t bs hr => ?vendor⟩,
    fun t bs h => ?_, fun t bs h => ?_, ?readings⟩
  · obtain ⟨f, hi, -⟩ := exec_control hr
    rw [hi, control_unpowered h]
  · obtain ⟨-, f, hi, -⟩ := exec_pldm hr
    rw [hi, pldm_unpowered h]
  · obtain ⟨f, hi, -⟩ := exec_vendor hr
    rw [hi, vendor_unpowered h]
  case control =>
    obtain ⟨f, hi, hf, ht⟩ := exec_control hr
    rw [hi]
    exact ⟨fun h => next_finish (control_unsupported hv h),
      fun h0 hc => next_finish (control_served hv h0 hc hf (ht.trans hv))⟩
  case pldm =>
    obtain ⟨hty, f, hi, hf, ht⟩ := exec_pldm hr
    rw [hi]
    exact ⟨fun h => next_finish (pldm_ignored h),
      fun h => ⟨fun h0 h2 => next_finish (pldm_invalidType hv h h0 h2),
        fun ht hc => next_finish (pldm_unsupported hv h ht hc),
        fun h2 hc => next_finish (pldm_served hv h hty h2 hc hf (ht.trans hv))⟩⟩
  case vendor =>
    obtain ⟨f, hi, hf, ht⟩ := exec_vendor hr
    rw [hi]
    exact ⟨fun h => next_finish (vendor_ignored h), fun h => ⟨fun hc => next_finish (vendor_unsupported hv h hc),
      fun hc => next_finish (vendor_served hv h hc hf (ht.trans hv))⟩⟩
  · simpa only [h] using setEid_cases s req
  · simpa only [h] using setReceiver_cases s req
  case readings =>
    rintro _ rfl
    refine ⟨fun h => ⟨if_pos h, if_pos h⟩, fun h1 h2 => ⟨?_, ?_⟩⟩
    · rw [State.sensorReading, if_neg (by omega)]
      simp
    · rw [State.sensorThresholds, if_neg (by omega)]
      simp

end Sys2Proof.Machine
end

section
/-! Sensors (R408, R412): what a sample keeps, the threshold state with its hysteresis, and the diodes' faults. -/

namespace Sys2Proof.Machine

/-! ### A sample -/

section

variable {s : State} {id : Nat} {r : Reading}

theorem noSensor_iff (s : State) (id : Nat) : (id = 0 ∨ 185 < id ∨ (!s.start.vstby) = true) ↔ Claims.noSensor s id := by
  simp [Claims.noSensor]

theorem sample_none (h : Claims.noSensor s id) : s.sample id r = s := if_pos ((noSensor_iff s id).mpr h)

theorem sample_val (h : ¬ Claims.noSensor s id) (v : Int) : s.sample id (.val v) = (s.keepReading id v).sensorEvents id v :=
  if_neg (mt (noSensor_iff s id).mp h)

theorem sample_fault (h : ¬ Claims.noSensor s id) :
    s.sample id .fault = if id ≤ 22 then s.diodeFault (id - 1) else s := if_neg (mt (noSensor_iff s id).mp h)

end

/-! ### Thresholds (R412) -/

/-- The new threshold state is the one that the hysteresis gives. -/
theorem sensorLevel_level (sc warn crit hyst : Int) (old : Nat) (v : Int) :
    Claims.level sc warn crit hyst old v (sensorLevel sc (warn, crit, hyst) old v) := by
  unfold sensorLevel Claims.level
  simp only [Bool.or_eq_true, Bool.and_eq_true, decide_eq_true_eq, beq_iff_eq]
  split_ifs with h2 h1
  · simp [h2]
  · simp [h2, h1]
  · simp [h2, h1]

section

variable {u : State} {id : Nat} {v : Int}

theorem sensorEvents_unwatched (h : u.sensorPolicy id = none) : u.sensorEvents id v = u := by
  simp only [State.sensorEvents, h]

variable {p : Int × Int × Int} {old new : Nat} (h : u.sensorPolicy id = some p) (ho : old = tget 0 u.gov.events id % 4)
  (hn : new = sensorLevel (sensorScale id) p old v)
include h ho hn

theorem sensorEvents_same (he : new = old) : u.sensorEvents id v = u := by
  subst hn ho
  simp only [State.sensorEvents, h, he, if_true]

theorem sensorEvents_crossed (hne : new ≠ old) : u.sensorEvents id v = match u.oob.receiver with
    | none => Claims.crossed u id old new v
    | some e => Claims.told (Claims.crossed u id old new v) e id old new v := by
  subst hn ho
  simp only [State.sensorEvents, h, hne, if_false]
  rfl

end

/-! ### Diodes (R408) -/

section

variable {s u : State} {k : Nat}

theorem diodeFault_known (h : bitOf s.gov.faults k = true) : s.diodeFault k = s := if_pos h

/-- A diode that newly reads open or short, by what is left on its die. -/
theorem diodeFault_new (h : bitOf s.gov.faults k = false) (hu : u = Claims.faulty s k) : s.diodeFault k =
    if !(diodeMates k).all (fun j => bitOf u.gov.faults j) then u.event 1 6 (mcOff (0x100 + 4 * k)) 16 k 0
    else if k < 18 then u.event 3 (k / 3) (mcOff (0x100 + 4 * k)) 16 k 0
    else u.event 4 6 (mcOff (0x100 + 4 * k)) 16 k 0 := by
  subst hu
  exact if_neg (by simp [h])

end

/-! ### Readings -/

section

variable {s : State} {id j : Nat} {v : Int}

/-- A bit that is set and subtracted is clear. -/
theorem bitOf_sub_two_pow {x i : Nat} (h : bitOf x i = true) : bitOf (x - 2 ^ i) i = false := by
  have hle : 2 ^ i ≤ x := Nat.ge_two_pow_of_testBit h
  have hadd := Nat.testBit_two_pow_add_eq (x - 2 ^ i) i
  rw [Nat.add_sub_cancel' hle] at hadd
  unfold bitOf at *
  rw [h] at hadd
  exact Bool.not_eq_true' _ ▸ hadd.symm

/-- The sensor reads the sample: a diode any value, another sensor a value of 12 bits. -/
theorem reading_keepReading_same (h : id ≤ 22 ∨ (id ≤ 185 ∧ 0 ≤ v ∧ v < 4096)) : (s.keepReading id v).reading id = v := by
  unfold State.keepReading State.reading
  split_ifs
  · exact tget_tput_same ..
  · show ((v.toNat % 2 ^ 16 : Nat) : Int) = v; omega
  · show ((v.toNat % 2 ^ 12 : Nat) : Int) = v; omega
  · show (v.toNat : Int) = v; omega
  · show ((tget 0 (tput 0 _ _ _) _ : Nat) : Int) = v; rw [tget_tput_same]; omega
  · show ((tget 0 (tput 0 _ _ _) _ : Nat) : Int) = v; rw [tget_tput_same]; omega

/-- What a reading depends on, by the sensor's number. -/
theorem reading_congr {t : State} (htemp : j ≤ 22 → tget 0 t.gov.temps (j - 1) = tget 0 s.gov.temps (j - 1))
    (hvin : j = 23 → t.gov.vin = s.gov.vin) (hiin : j = 24 → t.gov.iin = s.gov.iin)
    (hpkg : j = 25 → t.gov.pkgW = s.gov.pkgW)
    (hvolt : 25 < j → tget 0 t.gov.volts (j - 26) = tget 0 s.gov.volts (j - 26))
    (hcur : 105 < j → tget 0 t.gov.currents (j - 106) = tget 0 s.gov.currents (j - 106)) : t.reading j = s.reading j := by
  unfold State.reading
  split_ifs with h22 h23 h24 h25 h105
  · exact htemp h22
  · exact congrArg Nat.cast (hvin h23)
  · exact congrArg Nat.cast (hiin h24)
  · exact congrArg Nat.cast (hpkg h25)
  · exact congrArg Nat.cast (hvolt (by omega))
  · exact congrArg Nat.cast (hcur (by omega))

/-- The other sensors read what they read. -/
theorem reading_keepReading_other (h1 : 1 ≤ id) (hj : 1 ≤ j) (hne : j ≠ id) :
    (s.keepReading id v).reading j = s.reading j := by
  unfold State.keepReading
  split_ifs with h22 h23 h24 h25 h105
  · exact reading_congr (fun _ => tget_tput_other _ _ (by omega)) (fun _ => rfl) (fun _ => rfl) (fun _ => rfl) (fun _ => rfl)
      (fun _ => rfl)
  · exact reading_congr (fun _ => rfl) (fun h => absurd (h.trans h23.symm) hne) (fun _ => rfl) (fun _ => rfl) (fun _ => rfl)
      (fun _ => rfl)
  · exact reading_congr (fun _ => rfl) (fun _ => rfl) (fun h => absurd (h.trans h24.symm) hne) (fun _ => rfl) (fun _ => rfl)
      (fun _ => rfl)
  · exact reading_congr (fun _ => rfl) (fun _ => rfl) (fun _ => rfl) (fun h => absurd (h.trans h25.symm) hne) (fun _ => rfl)
      (fun _ => rfl)
  · exact reading_congr (fun _ => rfl) (fun _ => rfl) (fun _ => rfl) (fun _ => rfl)
      (fun h => tget_tput_other _ _ (by omega)) (fun _ => rfl)
  · exact reading_congr (fun _ => rfl) (fun _ => rfl) (fun _ => rfl) (fun _ => rfl) (fun _ => rfl)
      (fun h => tget_tput_other _ _ (by omega))

/-- A diode's value clears its fault. -/
theorem faults_keepReading (h : id ≤ 22) (hf : bitOf s.gov.faults (id - 1) = true) :
    bitOf (s.keepReading id v).gov.faults (id - 1) = false := by
  simp only [State.keepReading, h, if_true, hf]
  exact bitOf_sub_two_pow hf

end

/-- Settles O42: a value by what the sensor's policy makes of it, a fault by what is left on the diode's die. -/
theorem sensors : Obligations.Sensors := by
  intro s u id
  refine ⟨fun r h => next_finish (sample_none h), fun h => ⟨?value, fun h22 => ?_, ?fault⟩, fun v h1 h22 => ?_,
    fun v h23 h185 h0 hlt => ?_⟩
  case value =>
    rintro v hu
    have hx : exec (.sensorSample id (.val v)) s = .next (u.sensorEvents id v).finish := hu ▸ next_finish (sample_val h v)
    rw [hx]
    refine ⟨fun hp => next_finish (sensorEvents_unwatched hp), fun warn crit hyst hp old ho =>
      ⟨_, sensorLevel_level (sensorScale id) warn crit hyst old v, fun he => next_finish (sensorEvents_same hp ho rfl he),
        fun hne => ⟨fun hr => next_finish ?_, fun e hr => next_finish ?_⟩⟩⟩
    all_goals rw [sensorEvents_crossed hp ho rfl hne, hr]
  · refine next_finish ((sample_fault h).trans (if_neg (by omega)))
  case fault =>
    rintro _ h22 rfl
    have hx : exec (.sensorSample id .fault) s = .next (s.diodeFault (id - 1)).finish :=
      next_finish ((sample_fault h).trans (if_pos h22))
    rw [hx]
    refine ⟨fun hk => next_finish (diodeFault_known hk), fun hk hu => ⟨?_, fun hall => ?_⟩⟩
    · rintro ⟨j, hj, hb⟩
      refine next_finish ((diodeFault_new hk hu).trans (if_pos ?_))
      rw [Bool.not_eq_true', List.all_eq_false]
      exact ⟨j, hj, by simp [hb]⟩
    · have hdead : ¬ (!(diodeMates (id - 1)).all (fun j => bitOf u.gov.faults j)) = true := by
        rw [Bool.not_eq_true', Bool.not_eq_false, List.all_eq_true]
        exact hall
      exact ⟨fun hlt => next_finish ((diodeFault_new hk hu).trans ((if_neg hdead).trans (if_pos hlt))),
        fun hge => next_finish ((diodeFault_new hk hu).trans ((if_neg hdead).trans (if_neg (by omega))))⟩
  · exact ⟨reading_keepReading_same (.inl h22), faults_keepReading h22, fun j hj hne => reading_keepReading_other h1 hj hne⟩
  · exact ⟨reading_keepReading_same (.inr ⟨h185, h0, hlt⟩),
      fun j hj _ hne => reading_keepReading_other (by omega) hj hne⟩

end Sys2Proof.Machine
end

section
/-! The supplies, the thermal trip, the loss of REFCLK and the causes of a start (R370, R382, R390, R399, R433, R434,
R442). -/

namespace Sys2Proof.Machine

/-- A table filtered by its keys holds a key that passes, and no other. -/
theorem tfind_filter_key {α : Type} (f : Nat → Bool) (t : Tab α) (k : Nat) :
    tfind (t.filter (fun p => f p.1)) k = if f k = true then tfind t k else none := by
  induction t with
  | nil => simp [tfind]
  | cons p t ih =>
    by_cases hp : f p.1 = true
    · simp only [List.filter_cons, hp, if_true]
      by_cases hk : p.1 = k
      · subst hk; simp [tfind, hp]
      · simp [tfind, hk, ih]
    · simp only [List.filter_cons, hp, Bool.false_eq_true, if_false, ih]
      by_cases hk : p.1 = k
      · subst hk; simp [hp]
      · simp [tfind, hk]

section

variable {s : State}

/-! ### A start of cause 1 (R433) -/

theorem powered_iff (s : State) : (s.start.vin && s.start.vio && s.start.vstby && s.start.perstHigh) = true ↔
    Claims.powered s := by
  simp [Claims.powered, and_assoc]

theorem powerOn_powerCheck (s : State) : Claims.powerOn s (s.powerCheck false) := by
  refine ⟨fun hp hn => ?_, fun h => ?_⟩
  · exact (if_pos ((powered_iff s).mpr hp)).trans (if_pos (by simp [hn]))
  · by_cases hp : Claims.powered s
    · have hon := h.resolve_left (fun hn => hn hp)
      exact (if_pos ((powered_iff s).mpr hp)).trans ((if_neg (by simp [hon])).trans (if_neg Bool.false_ne_true))
    · exact if_neg (mt (powered_iff s).mp hp)

/-! ### Losses (R434) -/

/-- What the loss of VIN or of VIO does to the state with the supply marked bad. -/
theorem supplyLost_eq (s : State) (w : SupplyLoss) : s.supplyLost w =
    Claims.afterLoss s (Claims.lostSupply s (s.start.vin && w == .vio) (s.start.vio && w != .vio)) := by
  unfold State.supplyLost Claims.afterLoss
  exact apply_ite State.domainsOff ..

theorem supplyLost_vin {w : SupplyLoss} (h : w ≠ .vio) :
    s.supplyLost w = Claims.afterLoss s (Claims.lostSupply s false s.start.vio) := by
  rw [supplyLost_eq, beq_false_of_ne h, bne_iff_ne.mpr h, Bool.and_false, Bool.and_true]

theorem supplyLost_vio : s.supplyLost .vio = Claims.afterLoss s (Claims.lostSupply s s.start.vin false) := by
  rw [supplyLost_eq, show (SupplyLoss.vio == .vio) = true from rfl, show (SupplyLoss.vio != .vio) = false from rfl,
    Bool.and_true, Bool.and_false]

/-- Without its supplies the device is off but for PD60 and Kaolin (R390, R434). -/
theorem domainsOff_isOff (s : State) : Claims.isOff s.domainsOff := by
  refine ⟨rfl, rfl, rfl, fun d h60 h75 => ?_, fun x hx => ?_, fun x hx => ?_⟩
  · have hkeep : keepsPower d = false := by simp [keepsPower, h60, h75]
    have hnone : tfind (s.doms.filter (fun p => keepsPower p.1)) d = none := by
      rw [tfind_filter_key, if_neg (by simp [hkeep])]
    show ((tfind (s.doms.filter (fun p => keepsPower p.1)) d).getD Dom.reset).state = 0
    rw [hnone]
    rfl
  · obtain ⟨p, -, rfl⟩ := List.mem_map.mp hx
    rfl
  · exact List.eq_of_mem_replicate hx

/-! ### Causes of a start -/

theorem recover_iff (s : State) :
    (s.start.tripped && s.start.perstHigh && s.gov.temps.all (fun t => decide (t.2 < 800))) = true ↔
      s.start.tripped = true ∧ s.start.perstHigh = true ∧ ∀ p ∈ s.gov.temps, p.2 < 800 := by
  rw [Bool.and_eq_true, Bool.and_eq_true, List.all_eq_true, and_assoc]
  simp only [decide_eq_true_eq]

end

/-- Settles O40: each row by the supply it marks, the loss it records, or the cause it makes due. -/
theorem supplies : Obligations.Supplies := by
  intro s
  refine ⟨⟨_, powerOn_powerCheck _, rfl⟩, ⟨_, powerOn_powerCheck _, rfl⟩, fun sel addr => ⟨_, powerOn_powerCheck _, rfl⟩,
    fun w hw => next_finish (supplyLost_vin hw), next_finish supplyLost_vio, rfl, fun d => rfl, domainsOff_isOff s, rfl,
    fun h => next_finish (if_pos ((recover_iff s).mpr h)), fun h => next_finish (if_neg (mt (recover_iff s).mp h)),
    fun h => next_finish (if_pos h), fun h => next_finish (if_neg (by simp [h]))⟩

end Sys2Proof.Machine
end

section
/-! RESET_SCOPE of each kind (R403, R404), FLR and Hot Reset (R343), and PERST_N (R433). -/

namespace Sys2Proof.Machine

section

variable {t : State} {c : Cmd} {env : BringUp}

/-! ### RESET_SCOPE -/

theorem bringUpFails_iff (env : BringUp) : bringUpFails env = true ↔ Claims.bringUpStep env := by
  unfold bringUpFails Claims.bringUpStep
  cases env.failStep <;> simp

theorem resetDie_fails (h : Claims.bringUpStep env) : t.resetDie c env =
    (((t.countPartials c.index).dieDown c.index).postFail (2 ^ c.index)).reply c 0 1 0 0 :=
  if_pos ((bringUpFails_iff env).mpr h)

theorem resetDie_passes (h : ¬ Claims.bringUpStep env) : t.resetDie c env =
    (((t.countPartials c.index).dieDown c.index).bringUp c.index env).reply c 0 0 0 0 :=
  if_neg (mt (bringUpFails_iff env).mp h)

/-- Kind 2 runs while nothing uses DDR (R404). -/
theorem ddrBusy_iff (t : State) : t.ddrBusy = false ↔ Claims.ddrIdle t := by
  simp [State.ddrBusy, State.anyQueued, Claims.ddrIdle, List.any_eq_false, and_assoc, imp_and, not_or]

theorem resetDdr_busy (h : ¬ Claims.ddrIdle t) : t.resetDdr c env = t.reply c 0x30 0 0 0 :=
  if_pos (by simpa using mt (ddrBusy_iff t).mp h)

theorem resetDdr_fails (h : Claims.ddrIdle t) (hf : env.failStep.isSome = true) : t.resetDdr c env =
    ((t.postFail (2 ^ (6 + c.index))).reply c 0 1 0 0).event 4 6 (startOff 0) 0 c.index 0 :=
  (if_neg (by simp [(ddrBusy_iff t).mpr h])).trans (if_pos hf)

theorem resetDdr_scrubs (h : Claims.ddrIdle t) (hf : env.failStep = none) :
    t.resetDdr c env = (Claims.scrubbed t c.index).reply c 0 0 0 0 :=
  (if_neg (by simp [(ddrBusy_iff t).mpr h])).trans (if_neg (by simp [hf]))

/-- The words of the channel read zero, the others as before (R403). -/
theorem rd_scrubbed (t : State) (m a : Nat) :
    (Claims.scrubbed t m).rd a = if a < t.ddrWords ∧ t.ddrChannel a = some m then PWord.zero else t.rd a := by
  show (tfind (t.mem.filter _) a).getD PWord.zero = _
  rw [tfind_filter_key (fun k => !(decide (k < t.ddrWords) && t.ddrChannel k == some m))]
  by_cases h : a < t.ddrWords ∧ t.ddrChannel a = some m
  · rw [if_pos h, if_neg (by simp [h])]
    rfl
  · rw [if_neg h, if_pos (by simpa [imp_iff_not_or] using h)]
    rfl

theorem resetScope_die (h : c.kind = 1) : State.resetScope env t c = t.resetDie c env := if_pos h

theorem resetScope_ddr (h : c.kind = 2) : State.resetScope env t c = t.resetDdr c env := by simp [State.resetScope, h]

theorem resetScope_port (h : c.kind = 3) : State.resetScope env t c = (t.resetPort c.index).reply c 0 0 0 0 := by
  simp [State.resetScope, h]

theorem resetScope_twikel (h : c.kind = 4) : State.resetScope env t c = (t.resetTwk c.index).reply c 0 0 0 0 := by
  simp [State.resetScope, h]

/-! ### FLR -/

theorem flr_vf {f : Nat} (h : f ≠ 0) : t.flr f = t.flrOne f := if_neg h

/-! ### PERST_N -/

section

variable (hl : t.start.perstHigh = false)
include hl

/-- The release of PERST_N, in the state in which it is high (R433). -/
theorem perst_released : t.perst true = State.powerCheck { t with start := { t.start with perstHigh := true } } true :=
  (if_pos rfl).trans (if_neg (by simp [hl]))

end

theorem powerCheck_unpowered {b : Bool} (h : ¬ Claims.powered t) : t.powerCheck b = t := if_neg (mt (powered_iff t).mp h)

theorem powerCheck_released (h : Claims.powered t) (ho : t.start.poweredOn = true) :
    t.powerCheck true = Claims.startDue t 2 :=
  (if_pos ((powered_iff t).mpr h)).trans ((if_neg (by simp [ho])).trans (if_pos rfl))

end

/-- Settles O36: RESET_SCOPE kind by kind, FLR by the function, PERST_N by its level and the supplies. -/
theorem resets : Obligations.Resets := by
  intro s t c
  refine ⟨fun env n ht hn => ?scope, fun h => ⟨fun fn => next_finish (if_neg (by simp [h])), next_finish (if_neg (by simp [h]))⟩,
    fun h u hu => ?flr, rfl, fun h => next_finish ((if_pos rfl).trans (if_pos h)), fun h hr => ?perst⟩
  case scope =>
    subst hn
    refine ⟨fun hk => ⟨fun hs => row_of_turn ht rfl ?_, fun hs => row_of_turn ht rfl ?_⟩,
      fun hk => ⟨fun hb => row_of_turn ht rfl ?_, fun hb => ⟨fun hf => row_of_turn ht rfl ?_,
        fun hf => ⟨row_of_turn ht rfl ?_, rd_scrubbed t c.index⟩⟩⟩,
      fun hk => ⟨fun ho => row_of_turn ht rfl ?_, fun ho => row_of_turn ht rfl ?_⟩, fun hk u hu => ?twikel,
      fun hk => row_of_turn ht rfl ?_, fun hk => row_of_turn ht rfl ?_, fun hk => row_of_turn ht rfl ?_⟩
    · rw [resetScope_die hk, resetDie_fails hs]
    · rw [resetScope_die hk, resetDie_passes hs]
    · rw [resetScope_ddr hk, resetDdr_busy hb]
    · rw [resetScope_ddr hk, resetDdr_fails hb hf]
    · rw [resetScope_ddr hk, resetDdr_scrubs hb hf]
    · rw [resetScope_port hk, State.resetPort, if_pos ho]
    · rw [resetScope_port hk, State.resetPort, if_neg (by simp [ho])]
    case twikel =>
      subst hu
      refine ⟨fun ho => row_of_turn ht rfl ?_, fun ho => row_of_turn ht rfl ?_⟩
      · rw [resetScope_twikel hk]
        exact congrArg (fun v : State => v.reply c 0 0 0 0) (if_pos ho)
      · rw [resetScope_twikel hk]
        exact congrArg (fun v : State => v.reply c 0 0 0 0) (if_neg (ne_true_of_eq_false ho))
    · simp [State.resetScope, hk]
    · simp [State.resetScope, hk]
    · simp [State.resetScope, hk, Claims.startDue]
  case flr =>
    subst hu
    exact ⟨next_finish (if_pos h), next_finish (if_pos h), fun fn hne => next_finish ((if_pos h).trans (flr_vf (by omega)))⟩
  case perst =>
    subst hr
    have hrel : exec (.perstN true) s = _ := next_finish (perst_released h)
    rw [hrel]
    refine ⟨fun hno => next_finish (powerCheck_unpowered ?_), fun hall => ⟨fun hon => next_finish (powerCheck_released ?_ hon),
      fun hoff => next_finish ((if_pos ((powered_iff _).mpr ?_)).trans (if_pos (by simp [hoff])))⟩⟩
    · rw [← powered_iff]
      simp [hno]
    all_goals
      rw [← powered_iff]
      simp [hall]

end Sys2Proof.Machine
end

section
/-! The start sequence (R395-R402): what a start runs, the entry it leaves, and the decisions of the ledger. -/

namespace Sys2Proof.Machine

/-! ### A start that may not begin -/

theorem startRun_idle {s : State} (h : s.canStart = false) (env : StartEnv) : s.startRun env = s := by
  unfold State.startRun
  split
  case h_1 => rfl
  case h_2 => exact if_pos (by simp [h])

/-! ### A start that begins -/

/-- Step 4 of a start: the Blend, unless the environment ends the start before it. -/
def blendAt4 (s2 : State) (env : StartEnv) : Option State := if Claims.cutAt env 4 then none else s2.startBlend

/-- Step 5: the settings, when a Blend verified. -/
def settingsAt5 (s2 : State) (env : StartEnv) (b : Option State) : State × List RegRec :=
  if b.isSome && !Claims.cutAt env 5 then (b.getD s2).startSettings else (b.getD s2, [])

/-- Step 6: CK_TB runs. -/
def clockAt6 (s : State) : State := { s with clk := { Clk.reset with run := true } }

theorem startRun_begins {s s2 s3 s4 : State} {env : StartEnv} {cause inUse : Nat} {p : Plan} {b : Option State}
    {recs : List RegRec} {f : Found} (hcan : s.canStart = true) (hdue : s.start.due = some cause)
    (h2 : s2 = Claims.numbered s env (cause == 3)) (hp : p = s2.start.plan) (hb : blendAt4 s2 env = b)
    (h3 : s3 = b.getD s2) (h4 : s4 = clockAt6 (settingsAt5 s2 env b).1) (hrecs : recs = (settingsAt5 s2 env b).2)
    (hu : inUse = Claims.linksInUse s4 recs) (hf : f = Claims.foundIn p env cause inUse b.isSome) :
    s.startRun env = match f.ess with
      | some (k, _) => (Claims.reached k s2 s3 s4).startFails p f env cause k inUse s.start.cleared
      | none => ((((Claims.coreOn s4 p env cause).startDies p f (Claims.halfOf s env cause)).startStores p f env recs).startLinks
          p f).startEnds p f cause inUse s.start.cleared := by
  have hhalf : Claims.halfOf s env cause = fun l => bitOf env.halves.toNat l ||
      (if cause = 1 ∨ cause = 2 ∨ cause = 7 then false else s.flag (lnkOff l 4) 0) := by
    funext l
    unfold Claims.halfOf
    by_cases h : cause = 1 ∨ cause = 2 ∨ cause = 7
    · rw [if_pos h]
      rcases h with rfl | rfl | rfl <;> rfl
    · rw [if_neg h]
      have hc : (cause == 1 || cause == 2 || cause == 7) = false := by simpa [and_assoc] using h
      rw [hc]
      rfl
  have hown : ∀ b : Option State, (if b.isNone = true then [((4 : Nat), false)] else []) =
      if b.isSome = true then [] else [(4, false)] := fun b => by cases b <;> rfl
  subst h2 hp h3 hb h4 hrecs hu hf
  rw [hhalf]
  unfold State.startRun
  simp only [hdue, hcan, hown, Bool.not_true, Bool.false_eq_true, if_false]
  rfl

/-! ### The steps up to 5 -/

section

variable {s2 s3 s4 : State} {env : StartEnv} {ok : Bool} {recs : List RegRec}

theorem blendAt4_blended (h : Claims.blended s2 env ok s3) :
    (blendAt4 s2 env).isSome = ok ∧ s3 = (blendAt4 s2 env).getD s2 := by
  unfold Claims.blended at h
  unfold blendAt4
  by_cases hc : Claims.cutAt env 4 = true
  · rw [if_pos hc] at h ⊢
    exact ⟨h.1.symm, h.2⟩
  · rw [if_neg hc] at h ⊢
    cases hb : s2.startBlend <;> rw [hb] at h <;> exact ⟨h.1.symm, h.2⟩

theorem settingsAt5_setUp (hb : Claims.blended s2 env ok s3) (h : Claims.setUp env ok s3 s4 recs) :
    s4 = clockAt6 (settingsAt5 s2 env (blendAt4 s2 env)).1 ∧ recs = (settingsAt5 s2 env (blendAt4 s2 env)).2 := by
  obtain ⟨hok, h3⟩ := blendAt4_blended hb
  unfold Claims.setUp at h
  unfold settingsAt5
  rw [hok, ← h3]
  by_cases hc : (ok && !Claims.cutAt env 5) = true
  · rw [if_pos hc] at h ⊢
    exact ⟨h.2, h.1⟩
  · rw [if_neg hc] at h ⊢
    exact ⟨h.2, h.1⟩

end

/-! ### The entry of a start -/

section

variable {s : State} {p : Plan} {f : Found} {cause consec inUse : Nat} {cl : Bool}

/-- The Advisory records of failed steps are raised, and nothing else changes (R391). -/
theorem stepRecords_raised (s : State) (f : Found) : ∃ r, s.stepRecords f = { s with raised := r } := by
  have hfold : ∀ xs : List (Nat × Nat), ∃ r, xs.foldl (fun (t : State) x =>
      if x.2 = 0 then t else t.err 0 4 6 (startOff 0) 2 0 0x1F x.1 x.2) s = { s with raised := r } := by
    intro xs
    refine List.foldlRecOn (motive := fun (t : State) => ∃ r, t = { s with raised := r }) xs _ ⟨s.raised, rfl⟩ ?_
    rintro _ ⟨r, rfl⟩ x -
    split
    · exact ⟨r, rfl⟩
    · exact ⟨_, rfl⟩
  obtain ⟨r, hr⟩ := hfold [(9, f.die9), (10, f.hub), (11, f.die11), (12, f.ring), (14, f.ddr), (20, f.groups), (21, f.twikel)]
  unfold State.stepRecords
  simp only [hr]
  split
  · exact ⟨_, rfl⟩
  · exact ⟨r, rfl⟩

theorem stepRecords_start (s : State) (f : Found) : (s.stepRecords f).start = s.start := by
  obtain ⟨r, hr⟩ := stepRecords_raised s f
  rw [hr]

theorem stepRecords_erq (s : State) (f : Found) : (s.stepRecords f).erq = s.erq := by
  obtain ⟨r, hr⟩ := stepRecords_raised s f
  rw [hr]

theorem domsOn_start (s : State) (ds : List Nat) : (s.domsOn ds).start = s.start :=
  List.foldlRecOn (motive := fun (t : State) => t.start = s.start) ds _ rfl (fun _ ht _ _ => ht)

/-- With no record held before step 23, step 23 only opens the queue (R395). -/
theorem queueHeld_of_nil {s : State} (h : s.erq.heldR = []) :
    s.queueHeld = { s with erq := { s.erq with heldR := [], started := true } } := by
  unfold State.queueHeld
  rw [h]
  rfl

/-- What a start that reaches step 24 leaves of the start's facts and the queue. -/
theorem startEnds_facts (h : s.erq.heldR = []) :
    (s.startEnds p f cause inUse cl).start =
      { (s.start.enter (entryOf s p f cause 0 inUse cl)) with
        state := 1, step := 24, degraded := (entryOf s p f cause 0 inUse cl).outcome == 2, tripped := false } ∧
    (s.startEnds p f cause inUse cl).erq.started = true := by
  unfold State.startEnds
  simp only []
  rw [queueHeld_of_nil (by rw [stepRecords_erq]; exact h)]
  exact ⟨stepRecords_start _ f, rfl⟩

/-- What a start that an essential step ends leaves of the start's facts. -/
theorem startFails_start (env : StartEnv) (k : Nat) : (s.startFails p f env cause k inUse cl).start =
    { (s.start.enter (entryOf s p f cause s.start.count inUse cl)) with
      state := if decide (3 ≤ s.start.count) then 2 else 0, step := k, retry := !decide (3 ≤ s.start.count) } := by
  unfold State.startFails
  simp only []
  rw [stepRecords_start]
  show State.start (if 7 < k then _ else _) = _
  split
  · exact domsOn_start ..
  · rfl

theorem entered16_enter (s t : State) (e : LedgerEntry) (x : Start) (ht : t.start = x)
    (hx : x.ledger = (s.start.enter e).ledger) : Claims.entered16 s t e := by
  unfold Claims.entered16
  rw [ht, hx]
  rfl

/-- The masks that make a start a full one are all empty. -/
theorem full_iff (p : Plan) (f : Found) : (p.dies ||| p.hubCons ||| p.ring ||| p.ringCons ||| p.ddr ||| p.ddrCons |||
    p.groups ||| p.twikel ||| f.dies ||| f.ring ||| f.ddr ||| f.groups ||| f.twikel) = 0 ↔
      p = Plan.full ∧ f.dies = 0 ∧ f.ring = 0 ∧ f.ddr = 0 ∧ f.groups = 0 ∧ f.twikel = 0 := by
  cases p
  simp only [Nat.or_eq_zero_iff, Plan.full, Plan.mk.injEq, and_assoc]

/-- The outcome of a start that no essential step ends (R401). -/
theorem entryOf_outcome_ended (hf : f.ess = none) :
    ((entryOf s p f cause 0 inUse cl).outcome = 1 ∨ (entryOf s p f cause 0 inUse cl).outcome = 2) ∧
    ((entryOf s p f cause 0 inUse cl).outcome = 1 ↔
      p = Plan.full ∧ f.dies = 0 ∧ f.ring = 0 ∧ f.ddr = 0 ∧ f.groups = 0 ∧ f.twikel = 0) := by
  rw [← full_iff]
  unfold entryOf
  simp only [hf, Option.isSome_none, Bool.false_eq_true, if_false]
  split_ifs with h
  · exact ⟨.inl rfl, by simp [h]⟩
  · exact ⟨.inr rfl, by simp [h]⟩

end

/-! ### Decisions (R398) -/

theorem maskOf_succ (w : Nat) (q : Nat → Bool) : maskOf (w + 1) q = if q w then maskOf w q + 2 ^ w else maskOf w q := by
  unfold maskOf
  rw [List.range_succ, List.foldl_append]
  rfl

theorem maskOf_lt (w : Nat) (q : Nat → Bool) : maskOf w q < 2 ^ w := by
  induction w with
  | zero => simp [maskOf]
  | succ w ih => rw [maskOf_succ, Nat.pow_succ]; split <;> omega

/-- The bits of a mask are its test, within its width. -/
theorem bitOf_maskOf (w : Nat) (q : Nat → Bool) (i : Nat) : bitOf (maskOf w q) i = (decide (i < w) && q i) := by
  unfold bitOf
  induction w with
  | zero => simp [maskOf]
  | succ w ih =>
    rw [maskOf_succ]
    rcases Nat.lt_trichotomy i w with h | rfl | h
    · rw [apply_ite (fun x => Nat.testBit x i), Nat.add_comm, Nat.testBit_two_pow_add_gt h, ite_self, ih]
      simp [h, Nat.lt_succ_of_lt h]
    · have hlow : (maskOf i q).testBit i = false := Nat.testBit_lt_two_pow (maskOf_lt i q)
      cases hq : q i
      · simpa [hq] using hlow
      · simp [Nat.add_comm, Nat.testBit_two_pow_add_eq, hlow]
    · have hlt : maskOf (w + 1) q < 2 ^ i := Nat.lt_of_lt_of_le (maskOf_lt _ q) (Nat.pow_le_pow_right (by decide) h)
      rw [← maskOf_succ, Nat.testBit_lt_two_pow hlt]
      simp [Nat.not_lt.mpr h]

theorem bitOf_without (w a b i : Nat) : bitOf (without w a b) i = (decide (i < w) && (bitOf a i && !bitOf b i)) :=
  bitOf_maskOf ..

theorem bitOf_or (a b i : Nat) : bitOf (a ||| b) i = (bitOf a i || bitOf b i) := Nat.testBit_or ..

theorem bitOf_and (a b i : Nat) : bitOf (a &&& b) i = (bitOf a i && bitOf b i) := Nat.testBit_and ..

theorem bitOf_bitsOf (x lo w i : Nat) : bitOf (bitsOf x lo w) i = (decide (i < w) && bitOf x (lo + i)) := by
  unfold bitOf bitsOf
  rw [Nat.testBit_mod_two_pow, Nat.testBit_shiftRight]

/-- A Loam die is fenced by its own failure, or by its hub's failure with the conservative set (R398). -/
theorem plan_after_dies (q : LedgerEntry) {i : Nat} (hi : i < 6) :
    bitOf (Plan.after q).dies i = (bitOf q.dieFen i || (bitOf q.dieFail i && !bitOf q.hubFail i) ||
      (bitOf q.hubFail i && bitOf q.cons i) || bitOf q.post i) := by
  simp [Plan.after, bitOf_or, bitOf_and, bitOf_without, bitOf_bitsOf, hi]

theorem plan_after_hubCons (q : LedgerEntry) {i : Nat} (hi : i < 6) :
    bitOf (Plan.after q).hubCons i = ((bitOf q.hubFail i || bitOf q.cons i) && !bitOf (Plan.after q).dies i) := by
  rw [plan_after_dies q hi]
  simp [Plan.after, bitOf_or, bitOf_and, bitOf_without, bitOf_bitsOf, hi]

theorem plan_after_ring (q : LedgerEntry) {i : Nat} (hi : i < 6) :
    bitOf (Plan.after q).ring i = (bitOf q.ringFen i || (bitOf q.ringFail i && bitOf q.cons (6 + i))) := by
  simp [Plan.after, bitOf_or, bitOf_and, bitOf_bitsOf, hi]

theorem plan_after_ringCons (q : LedgerEntry) {i : Nat} (hi : i < 6) :
    bitOf (Plan.after q).ringCons i = ((bitOf q.ringFail i || bitOf q.cons (6 + i)) && !bitOf (Plan.after q).ring i) := by
  rw [plan_after_ring q hi]
  simp [Plan.after, bitOf_or, bitOf_and, bitOf_without, bitOf_bitsOf, hi]

theorem plan_after_ddr (q : LedgerEntry) {i : Nat} (hi : i < 8) :
    bitOf (Plan.after q).ddr i =
      (bitOf q.ddrFen i || (bitOf q.ddrFail i && bitOf q.cons (12 + i)) || bitOf q.post (6 + i)) := by
  simp [Plan.after, bitOf_or, bitOf_and, bitOf_bitsOf, hi]

theorem plan_after_ddrCons (q : LedgerEntry) {i : Nat} (hi : i < 8) :
    bitOf (Plan.after q).ddrCons i = ((bitOf q.ddrFail i || bitOf q.cons (12 + i)) && !bitOf (Plan.after q).ddr i) := by
  rw [plan_after_ddr q hi]
  simp [Plan.after, bitOf_or, bitOf_and, bitOf_without, bitOf_bitsOf, hi]

/-- A fenceable resource stays fenced, or is fenced once it failed (R398). -/
theorem bitOf_or_fences (i fen fail : Nat) : bitOf (fen ||| fail) i = Claims.fences i fen fail 0 := by
  simp [Claims.fences, bitOf]

/-- The previous entry decides the plan and the count (R398, R399). -/
theorem plan_count_of_previous (x : Start) : (x.previous = none → x.plan = Plan.full ∧ x.count = 1) ∧
    (∀ q, x.previous = some q → x.plan = Plan.after q ∧
      x.count = if q.outcome = 3 ∨ q.outcome = 4 then q.consec + 1 else 1) := by
  unfold Start.plan Start.count
  exact ⟨fun h => by rw [h]; exact ⟨rfl, rfl⟩, fun q h => by rw [h]; exact ⟨rfl, rfl⟩⟩

/-! ### The obligation -/

/-- A start that ends its last step (R396, R401). -/
theorem startEnds_ledger {s t : State} {p : Plan} {f : Found} {cause inUse : Nat} {cl : Bool} (hq : s.erq.heldR = [])
    (hf : f.ess = none) (ht : t = s.startEnds p f cause inUse cl) :
    t.start.state = 1 ∧ t.start.step = 24 ∧ t.start.cleared = false ∧ t.erq.started = true ∧
    ∃ e, Claims.entered16 s t e ∧ e.number = s.start.number ∧ e.cause = cause ∧ e.consec = 0 ∧
      (e.outcome = 1 ∨ e.outcome = 2) ∧ (t.start.degraded = true ↔ e.outcome = 2) ∧
      (e.outcome = 1 ↔ p = Plan.full ∧ f.dies = 0 ∧ f.ring = 0 ∧ f.ddr = 0 ∧ f.groups = 0 ∧ f.twikel = 0) := by
  subst ht
  obtain ⟨hstart, hopen⟩ := startEnds_facts (s := s) (p := p) (f := f) (cause := cause) (inUse := inUse) (cl := cl) hq
  obtain ⟨hout, hfull⟩ := entryOf_outcome_ended (s := s) (p := p) (f := f) (cause := cause) (inUse := inUse) (cl := cl) hf
  have hconsec : (entryOf s p f cause 0 inUse cl).consec = 0 := ite_self _
  refine ⟨by rw [hstart], by rw [hstart], by rw [hstart]; rfl, hopen, entryOf s p f cause 0 inUse cl,
    entered16_enter s _ _ _ hstart rfl, rfl, rfl, hconsec, hout, ?_, hfull⟩
  rw [hstart]
  exact beq_iff_eq

/-- A start that an essential step ends (R399, R400). -/
theorem startFails_ledger {s t : State} {p : Plan} {f : Found} {env : StartEnv} {cause k inUse : Nat} {cl late : Bool}
    (hf : f.ess = some (k, late)) (ht : t = s.startFails p f env cause k inUse cl) :
    t.start.step = k ∧ t.start.state = (if 3 ≤ s.start.count then 2 else 0) ∧
    (t.start.retry = true ↔ s.start.count < 3) ∧
    ∃ e, Claims.entered16 s t e ∧ e.number = s.start.number ∧ e.cause = cause ∧ e.firstFail = k ∧
      e.consec = s.start.count ∧ e.outcome = (if 3 ≤ s.start.count then 4 else 3) := by
  subst ht
  have hstart := startFails_start (s := s) (p := p) (f := f) (cause := cause) (inUse := inUse) (cl := cl) env k
  refine ⟨by rw [hstart], by simp [hstart], by simp [hstart], entryOf s p f cause s.start.count inUse cl,
    entered16_enter s _ _ _ hstart rfl, rfl, rfl, ?_, ?_, ?_⟩
  all_goals simp [entryOf, hf]

/-- Settles O41: an idle start by its guard, a start that begins by the steps up to 5 and the entry that its end leaves, and
R398's decisions bit by bit. -/
theorem startSequence : Obligations.StartSequence := by
  unfold Obligations.StartSequence
  refine ⟨fun s env h => next_finish (startRun_idle h env), ?_, ?_, ?_, ?_, ?_, ?_, ?_⟩
  case refine_1 =>
    intro s s2 s3 s4 env cause inUse p ok recs f hcan hdue h2 hp hbl hset hu hf
    obtain ⟨hok, h3⟩ := blendAt4_blended hbl
    obtain ⟨h4, hrecs⟩ := settingsAt5_setUp hbl hset
    rw [← hok] at hf
    have hrun := startRun_begins hcan hdue h2 hp rfl h3 h4 hrecs hu hf
    refine ⟨fun k late hess => next_finish ?_, fun hess => next_finish ?_⟩
    all_goals rw [hrun, hess]
  case refine_2 => exact fun s p f cause inUse cl hq hf t ht => startEnds_ledger hq hf ht
  case refine_3 => exact fun s p f env cause k inUse cl late hf t ht => startFails_ledger hf ht
  case refine_4 =>
    intro x
    obtain ⟨hnone, hsome⟩ := plan_count_of_previous x
    exact ⟨hnone, hsome, fun h => if_pos h, fun h => if_neg h⟩
  case refine_5 =>
    exact fun q i hi => ⟨plan_after_dies q hi, plan_after_hubCons q hi, plan_after_ring q hi, plan_after_ringCons q hi⟩
  case refine_6 => exact fun q i hi => ⟨plan_after_ddr q hi, plan_after_ddrCons q hi⟩
  case refine_7 => exact fun q i => ⟨bitOf_or_fences i q.grpFen q.grpFail, bitOf_or_fences i q.twkFen q.twkFail⟩

end Sys2Proof.Machine
end

section
/-! Epoch boundaries and the timebase load (R370-R377): the instants that come, their events, and what a boundary leaves of
Bedrock's clock. -/

namespace Sys2Proof.Machine

/-! ### What leaves Bedrock's clock alone -/

/-- A fold of steps that leave the clock alone leaves it alone. -/
theorem foldl_clk {α : Type} {f : State → α → State} (hf : ∀ t a, (f t a).clk = t.clk) (xs : List α) (s : State) :
    (xs.foldl f s).clk = s.clk :=
  List.foldlRecOn (motive := fun (t : State) => t.clk = s.clk) xs f rfl (fun t ht a _ => (hf t a).trans ht)

theorem ite_clk {p : Prop} [Decidable p] {a b : State} {c : Clk} (ha : a.clk = c) (hb : b.clk = c) :
    (if p then a else b).clk = c := by
  split
  · exact ha
  · exact hb

@[simp] theorem State.applyShadow_clk (s : State) (off key : Nat) : (s.applyShadow off key).clk = s.clk := by
  unfold State.applyShadow
  split <;> rfl

@[simp] theorem State.govern_clk (s : State) (n : Nat) : (s.govern n).clk = s.clk := by
  unfold State.govern
  split <;> rfl

@[simp] theorem State.governAll_clk (s : State) : s.governAll.clk = s.clk := foldl_clk State.govern_clk _ s

@[simp] theorem State.govShadows_clk (s : State) : s.govShadows.clk = s.clk :=
  (State.governAll_clk _).trans (foldl_clk (fun t _ => State.applyShadow_clk t _ _) _ s)

/-- The handler shadows of a port at a boundary (R303, R304). -/
def handlersAt (s : State) (p : Nat) : State :=
  State.applyShadow (if (tfind s.shadows (pfpOff p 0x18)).isSome then
    (s.applyShadow (pfpOff p 0x18) (pfpOff p 0x18)).updPort p (fun x => { x with recSeq := 0 }) else s)
    (pfpOff p 0x1C) (pfpOff p 0x1C)

@[simp] theorem handlersAt_clk (s : State) (p : Nat) : (handlersAt s p).clk = s.clk := by
  unfold handlersAt
  split <;> simp

@[simp] theorem State.portBoundary_clk (s : State) (p i : Nat) : (s.portBoundary p i).clk = s.clk := by
  have hend : ∀ off key, ((handlersAt s p).applyShadow off key).clk = s.clk := fun off key => by simp
  unfold State.portBoundary
  change State.clk (if ((handlersAt s p).port p).state = .running then _ else _) = _
  refine ite_clk ?_ (ite_clk ((rfl : (State.fixStart _ p _).clk = _).trans (hend ..)) (hend ..))
  rw [State.updPort_clk]
  split <;> exact handlersAt_clk s p

@[simp] theorem State.setCompat_clk (s : State) (n : Nat) (c : Bool) : (s.setCompat n c).clk = s.clk := by
  unfold State.setCompat
  exact ite_clk rfl rfl

@[simp] theorem State.sendVersion_clk (s : State) (n : Nat) : (s.sendVersion n).clk = s.clk := by
  unfold State.sendVersion
  split <;> rfl

@[simp] theorem State.sendEpoch_clk (s : State) (n i : Nat) : (s.sendEpoch n i).clk = s.clk := by
  unfold State.sendEpoch
  split <;> rfl

@[simp] theorem State.switchSlot_clk (s : State) : s.switchSlot.clk = s.clk := by
  unfold State.switchSlot
  refine (foldl_clk (fun t n => ?_) _ _).trans rfl
  exact (State.sendVersion_clk _ n).trans (ite_clk (State.setCompat_clk ..) rfl)

@[simp] theorem State.blendBoundary_clk (s : State) (i : Nat) : (s.blendBoundary i).clk = s.clk := by
  unfold State.blendBoundary
  split
  case h_1 =>
    split
    · exact State.switchSlot_clk _
    · rfl
  case h_2 =>
    split
    case h_1 => rfl
    case h_2 =>
      simp only []
      split
      · rfl
      · split
        · rfl
        · exact State.switchSlot_clk _

/-! ### A boundary -/

/-- A boundary's own fields (R372, R375). -/
theorem makeBoundary_bounded (u : State) (i src : Nat) : Claims.bounded u (u.makeBoundary i src) i src := by
  have hout : ∀ (t : State), (t.epochOut i).clk = 
      { t.clk with outHigh := (t.epochOut i).clk.outHigh, outFall := (t.epochOut i).clk.outFall } := by
    intro t
    unfold State.epochOut
    split <;> rfl
  unfold State.makeBoundary Claims.bounded
  simp only [foldl_clk (fun t n => State.sendEpoch_clk t n i), State.blendBoundary_clk,
    foldl_clk (fun (t : State) n => State.updDie_clk t n _), foldl_clk (fun t p => State.portBoundary_clk t p i),
    State.govShadows_clk]
  rw [hout]
  exact ⟨rfl, rfl, rfl, rfl, rfl, rfl⟩

/-! ### An event (R374) -/

theorem boundary_at_last {u : State} {i : Nat} (src : Nat) (hb : u.clk.anyB = true)
    (he : Claims.edgeAt u i = u.clk.lastEdge) : u.boundary i src =
      Claims.clkIs u { u.clk with src := u.clk.src ||| BitVec.ofNat 3 (2 ^ src) } := if_pos ⟨hb, he⟩

theorem boundary_tooNear {u : State} {i : Nat} (src : Nat) (h : Claims.tooNear u i) :
    u.boundary i src = Claims.mergedEvent u src := by
  obtain ⟨hb, hne, hafter, hbefore⟩ := h
  exact (if_neg fun h => hne h.2).trans (if_pos ⟨hb, hafter, hbefore⟩)

theorem boundary_makes {u : State} {i : Nat} (src : Nat) (hfar : ¬ Claims.tooNear u i)
    (hne : u.clk.anyB = true → Claims.edgeAt u i ≠ u.clk.lastEdge) : u.boundary i src = u.makeBoundary i src :=
  (if_neg fun h => hne h.1 h.2).trans (if_neg fun h => hfar ⟨h.1, hne h.1, h.2⟩)

/-! ### What waits on the timebase -/

section

variable {s : State} {x : BitVec 64} {n : Nat}

theorem schedDue_of_awaited (h : Claims.awaited s x) : s.clk.schedDue = some x.toNat := by
  obtain ⟨hs, hj⟩ := h
  simp [Clk.schedDue, hs, hj]

/-- A value that waits on this timebase is the scheduled one, unless a load has jumped over it. -/
theorem schedDue_eq_some_iff : s.clk.schedDue = some n ↔ ∃ x, Claims.awaited s x ∧ x.toNat = n := by
  unfold Clk.schedDue Claims.awaited
  cases s.clk.jumped <;> simp

theorem schedDue_of_idle (h : s.clk.sched = none ∨ s.clk.jumped = true) : s.clk.schedDue = none := by
  unfold Clk.schedDue
  rcases h with h | h <;> simp [h]

theorem loadDue_ahead (h : ∀ x, s.clk.loadAt = some x → s.clk.tb.toNat < x.toNat) : s.loadDue = s := by
  unfold State.loadDue
  split
  case h_1 x hx => exact if_neg (Nat.not_le.mpr (h x hx))
  case h_2 => rfl

theorem loadDue_come (hx : s.clk.loadAt = some x) (h : x.toNat ≤ s.clk.tb.toNat) : s.loadDue = s.tbLoad := by
  unfold State.loadDue
  rw [hx]
  exact if_pos h

theorem pinned_ahead (h : ∀ i, s.clk.pins.head? = some i → s.clk.tb.toNat < i.toNat) : s.pinned = s := by
  unfold State.pinned
  cases hp : s.clk.pins with
  | nil => rfl
  | cons i rest =>
    have hi : s.now < i.toNat := h i (by rw [hp]; rfl)
    simp [State.pinsDue, hp, hi]

theorem goUntil_without_pins (h : ∀ i ∈ s.clk.pins, n < i.toNat) : s.goUntil n = s.passUntil n := by
  have hnone : s.clk.pins.filter (fun i => decide (i.toNat ≤ n)) = [] :=
    List.filter_eq_nil_iff.mpr fun i hi => by simpa using h i hi
  unfold State.goUntil
  rw [hnone]
  rfl

end

/-! ### An EPOCH_IN instant that has come -/

section

variable {s t : State} {i : BitVec 64} {rest : List (BitVec 64)}

theorem pinsDue_step (hp : s.clk.pins = i :: rest) (hi : i.toNat ≤ s.clk.tb.toNat)
    (ht : t = Claims.clkIs s { s.clk with pins := rest }) (k : Nat) :
    State.pinsDue (k + 1) s = State.pinsDue k ((match s.clk.schedDue with
      | some x => if x ≤ i.toNat then t.takeSched x else t
      | none => t).boundary i.toNat 0) := by
  subst ht
  rw [State.pinsDue, hp]
  exact if_neg (Nat.not_lt.mpr hi)

theorem pinsDue_alone (hp : s.clk.pins = i :: rest) (hi : i.toNat ≤ s.clk.tb.toNat)
    (ht : t = Claims.clkIs s { s.clk with pins := rest }) (k : Nat)
    (h : ∀ x, Claims.awaited s x → i.toNat < x.toNat) :
    State.pinsDue (k + 1) s = State.pinsDue k (t.boundary i.toNat 0) := by
  rw [pinsDue_step hp hi ht]
  cases hd : s.clk.schedDue with
  | none => rfl
  | some n =>
    obtain ⟨x, hx, rfl⟩ := schedDue_eq_some_iff.mp hd
    simp only [if_neg (Nat.not_le.mpr (h x hx))]

theorem pinsDue_after_sched (hp : s.clk.pins = i :: rest) (hi : i.toNat ≤ s.clk.tb.toNat)
    (ht : t = Claims.clkIs s { s.clk with pins := rest }) (k : Nat) {x : BitVec 64} (hx : Claims.awaited s x)
    (hle : x.toNat ≤ i.toNat) :
    State.pinsDue (k + 1) s = State.pinsDue k ((Claims.schedEvent t x).boundary i.toNat 0) := by
  rw [pinsDue_step hp hi ht, schedDue_of_awaited hx]
  simp only [if_pos hle]
  rfl

end

/-! ### The rows -/

section

variable {s u : State}

theorem scheduled_idle (h : s.clk.sched = none ∨ s.clk.jumped = true) : s.scheduled = s := by
  unfold State.scheduled
  rw [schedDue_of_idle h]

theorem scheduled_awaited {x : BitVec 64} (hx : Claims.awaited s x) : s.scheduled =
    if (s.goUntil x.toNat).clk.sched.isSome then Claims.schedEvent (s.goUntil x.toNat) x else s.goUntil x.toNat := by
  unfold State.scheduled
  rw [schedDue_of_awaited hx]
  rfl

theorem epochEdge_run {later : Bool} (hr : s.clk.run = true) (hu : u = Claims.atEdge s later) : s.epochEdge later =
    if u.flag (epochOff 0) 2 then Claims.loadArmed u (BitVec.ofNat 64 (u.clk.tb.toNat + 64))
    else if u.clk.loadAt.isSome then Claims.mergedEvent u 0
    else if u.flag (epochOff 0) 0 then
      Claims.clkIs u { u.clk with pins := u.clk.pins ++ [BitVec.ofNat 64 (u.clk.tb.toNat + 64)] }
    else u := by
  subst hu
  unfold State.epochEdge
  rw [hr]
  rfl

theorem dieBoundary_idle {n : Nat} (h : (s.die n).boundaryAt = none) : s.dieBoundary n = s := by
  unfold State.dieBoundary
  rw [h]

theorem dieBoundary_at {n : Nat} {x : BitVec 64} (h : (s.die n).boundaryAt = some x) : s.dieBoundary n =
    (s.goUntil x.toNat).updDie n (fun y => { y with boundaryAt := none }) := by
  unfold State.dieBoundary
  rw [h]

/-- A load jumps over a value that this timebase would have reached, and one jumped over before stays so (R371). -/
theorem loadTaken_eq (u : State) (v : BitVec 64) : Claims.loadTaken u v = State.timesLoad (Claims.clkIs u { u.clk with
    loadAt := none, tb := v,
    jumped := match u.clk.schedDue with | some x => decide (x < v.toNat) | none => u.clk.jumped }) u.clk.tb.toNat v.toNat := by
  unfold Claims.loadTaken Clk.schedDue
  cases u.clk.jumped <;> cases u.clk.sched <;> rfl

/-- The scheduled value that a load finds due is taken before the load (R371). -/
theorem tbLoad_at {n : BitVec 64} (hn : s.clk.loadAt = some n)
    (hlate : (∀ x, Claims.awaited (s.goUntil n.toNat) x → n.toNat ≤ x.toNat) → u = s.goUntil n.toNat)
    (hdue : ∀ x, Claims.awaited (s.goUntil n.toNat) x → x.toNat < n.toNat → u = Claims.schedEvent (s.goUntil n.toNat) x) :
    s.tbLoad = Claims.loadTaken u (BitVec.ofNat 64 (Claims.tbLoadValue u + (u.clk.tb.toNat - n.toNat))) := by
  have hu : (match (s.goUntil n.toNat).clk.schedDue with
      | some x => if x < n.toNat then (s.goUntil n.toNat).takeSched x else s.goUntil n.toNat
      | none => s.goUntil n.toNat) = u := by
    cases hd : (s.goUntil n.toNat).clk.schedDue with
    | none =>
      refine (hlate fun x hx => ?_).symm
      rw [schedDue_of_awaited hx] at hd
      cases hd
    | some m =>
      obtain ⟨x, hx, rfl⟩ := schedDue_eq_some_iff.mp hd
      by_cases hlt : x.toNat < n.toNat
      · exact (if_pos hlt).trans (hdue x hx hlt).symm
      · refine (if_neg hlt).trans (hlate fun y hy => ?_).symm
        have hyx : y = x := Option.some.inj (hy.1.symm.trans hx.1)
        exact hyx ▸ Nat.not_lt.mp hlt
  unfold State.tbLoad
  rw [hn, loadTaken_eq, ← hu]
  rfl

end

/-- Settles O38: the instants that come, their events by their distance from the last boundary, and a load with the scheduled
value that it finds or jumps over. -/
theorem epochBoundaries : Obligations.EpochBoundaries := by
  unfold Obligations.EpochBoundaries
  intro s u later
  refine ⟨fun h => next_finish (if_pos (by rw [h]; rfl)), ?edge, loadDue_ahead, fun x hx hle => loadDue_come hx hle,
    pinned_ahead, ?pins, fun n h => goUntil_without_pins h, fun h => next_finish (scheduled_idle h), ?sched, ?event, ?die,
    ?low, ?fall, ?noLoad, ?load⟩
  case edge =>
    intro hr hu i hi
    subst hi
    have hrow := epochEdge_run hr hu
    refine ⟨fun harm => next_finish (hrow.trans (if_pos harm)), fun harm => ?_⟩
    rw [if_neg (by simp [harm])] at hrow
    refine ⟨fun hl => next_finish (hrow.trans (if_pos hl)), fun hl => ?_⟩
    rw [if_neg (by simp [hl])] at hrow
    exact ⟨fun hen => next_finish (hrow.trans (if_neg (by simp [hen]))), fun hen => next_finish (hrow.trans (if_pos hen))⟩
  case pins =>
    exact fun i rest t k hp hi ht => ⟨pinsDue_alone hp hi ht k, fun x hx hle => pinsDue_after_sched hp hi ht k hx hle⟩
  case sched =>
    rintro x hx rfl
    exact ⟨fun h => next_finish ((scheduled_awaited hx).trans (if_pos h)),
      fun h => next_finish ((scheduled_awaited hx).trans (if_neg (by simp [h])))⟩
  case event =>
    refine fun i src => ⟨boundary_at_last src, boundary_tooNear src, fun hfar hne => ?_⟩
    have hmake := boundary_makes src hfar hne
    exact ⟨hmake, hmake ▸ makeBoundary_bounded u i src⟩
  case die => exact fun d => ⟨fun h => next_finish (dieBoundary_idle h), fun x h => next_finish (dieBoundary_at h)⟩
  case low => exact fun h => next_finish (if_neg (by simp [h]))
  case fall =>
    rintro h rfl
    exact next_finish (if_pos h)
  case noLoad =>
    intro h
    refine next_finish ?_
    unfold State.tbLoad
    rw [h]
  case load =>
    rintro n t hn rfl hlate hdue
    exact next_finish (tbLoad_at hn hlate hdue)

end Sys2Proof.Machine
end

section
/-! The governor and the power domains (R381-R385): a loop's step, the dies' limits and frequencies, the CK_FAB change and the
switch of a domain. -/

namespace Sys2Proof.Machine

/-! ### A loop's step (R384) -/

theorem loopStep_loops {down good : Bool} {above under : Prop} (ha : down = true ↔ above) (hu : good = true ↔ under)
    (need top cur ok : Nat) : Claims.loops above under need top cur ok (loopStep down good need top cur ok).1
      (loopStep down good need top cur ok).2 := by
  unfold loopStep Claims.loops
  rw [← ha, ← hu]
  cases down with
  | true => simp
  | false =>
    cases good with
    | false => simp
    | true =>
      by_cases hn : need ≤ ok + 1
      · simp [hn, Nat.not_lt.mpr hn]
      · simp [hn]

theorem currentOver_iff (s : State) : (decide (3420 < s.gov.iin) || decide (s.gov.vin * 3240 < s.gov.vin * s.gov.iin)) =
    true ↔ Claims.currentOver s := by simp [Claims.currentOver]

theorem currentUnder_iff (s : State) : (decide (s.gov.iin * 100 ≤ 3420 * 95) &&
    decide (s.gov.vin * s.gov.iin * 100 ≤ s.gov.vin * 3240 * 95)) = true ↔ Claims.currentUnder s := by
  simp [Claims.currentUnder]

/-! ### The thermal loop (R384) -/

/-- A die's thermal limit after an evaluation, with the diodes as s holds them. -/
def thermStep (s : State) (n : Nat) (d : Die) : Die :=
  let t : Int := 8 * (s.fld (pwrOff 0x48) 0 7 : Int)
  let h := max (s.hottest n) (s.hottest 6)
  let r := loopStep (decide (t ≤ h)) (decide (h < t - 24)) 10 d.therm d.therm d.thermOk
  Claims.thermSet d r.1 r.2

/-- The dies after the evaluation of each unfenced one. -/
def thermAll (s : State) : State := s.unfenced.foldl (fun u n => u.updDie n (thermStep s n)) s

theorem thermalLoop_eq (s : State) : s.thermalLoop = (thermAll s).governAll := rfl

/-- A fold of updates of dies updates the dies of its list, each once. -/
theorem die_foldl_updDie (g : Nat → Die → Die) {xs : List Nat} (hx : xs.Nodup) (s : State) {n : Nat}
    (hn : n < s.dies.length) : (xs.foldl (fun u k => u.updDie k (g k)) s).die n =
      if n ∈ xs then g n (s.die n) else s.die n := by
  induction xs generalizing s with
  | nil => rfl
  | cons k xs ih =>
    obtain ⟨hk, hxs⟩ := List.nodup_cons.mp hx
    have hlen : n < (s.updDie k (g k)).dies.length := by simpa [State.updDie, State.setDie, lset] using hn
    rw [List.foldl_cons, ih hxs _ hlen]
    by_cases hnk : n = k
    · subst hnk
      rw [if_neg hk, if_pos (List.mem_cons_self ..)]
      exact die_setDie s n _ hn
    · have hother : (s.updDie k (g k)).die n = s.die n := die_setDie_other s _ hnk
      simp [hother, hnk]

theorem unfenced_nodup (s : State) : s.unfenced.Nodup := List.nodup_range.filter _

theorem thermAll_gov (s : State) : (thermAll s).gov = s.gov :=
  List.foldlRecOn (motive := fun (t : State) => t.gov = s.gov) s.unfenced _ rfl (fun _ ht _ _ => ht)

theorem thermAll_regs (s : State) : (thermAll s).regs = s.regs :=
  List.foldlRecOn (motive := fun (t : State) => t.regs = s.regs) s.unfenced _ rfl (fun _ ht _ _ => ht)

/-! ### The frequency of a die (R384, R381) -/

theorem changeAt_spec (now : Nat) : changeAt now % 10 = 0 ∧ now + 10 ≤ changeAt now ∧ changeAt now < now + 20 := by
  unfold changeAt
  omega

section

variable {s : State} {n : Nat}

/-- A die that is unfenced and up: its change, as its target is f_n or not. -/
theorem change_govern (hn : n < s.dies.length) (hf : s.fenced n = false) (hu : (s.die n).up = true) :
    ((s.govern n).die n).freq = (s.die n).freq ∧ ((s.govern n).die n).change =
      if (s.die n).target = Claims.fn s n then (s.die n).change
      else some (BitVec.ofNat 64 (changeAt s.now), Claims.fn s n) := by
  unfold State.govern
  rw [if_neg (by simp [hf, hu])]
  unfold State.updDie
  rw [die_setDie s n _ hn]
  exact ⟨rfl, rfl⟩

theorem govern_of_target (hn : n < s.dies.length) (hf : s.fenced n = false) (hu : (s.die n).up = true)
    (ht : (s.die n).target = Claims.fn s n) : ((s.govern n).die n).change = (s.die n).change ∧
      ((s.govern n).die n).target = Claims.fn s n := by
  obtain ⟨hfreq, hchange⟩ := change_govern hn hf hu
  rw [if_pos ht] at hchange
  refine ⟨hchange, ?_⟩
  rw [← ht]
  unfold Die.target
  rw [hchange, hfreq]

theorem govern_of_other (hn : n < s.dies.length) (hf : s.fenced n = false) (hu : (s.die n).up = true)
    (ht : (s.die n).target ≠ Claims.fn s n) :
    ((s.govern n).die n).change = some (BitVec.ofNat 64 (changeAt s.now), Claims.fn s n) ∧
      ((s.govern n).die n).target = Claims.fn s n := by
  obtain ⟨-, hchange⟩ := change_govern hn hf hu
  rw [if_neg ht] at hchange
  refine ⟨hchange, ?_⟩
  unfold Die.target
  rw [hchange]

/-! ### CK_FAB and clamp episodes (R381, R385) -/

theorem fabStop_idle (h : (s.die n).change = none ∨ (s.die n).stopped = true) : s.fabStop n = s := by
  unfold State.fabStop
  rcases h with h | h
  · rw [h]
  · rw [h]
    split <;> rfl

theorem fabStop_at {v : BitVec 64} {f : Nat} (hc : (s.die n).change = some (v, f)) (hs : (s.die n).stopped = false) :
    s.fabStop n = (s.passUntil v.toNat).updDie n (fun d => Claims.fabStopped d v f) := by
  unfold State.fabStop
  rw [hc, hs]
  rfl

theorem fabRestart_idle (h : (s.die n).restartAt = none) : s.fabRestart n = s := by
  unfold State.fabRestart
  rw [h]

theorem fabRestart_at {v : BitVec 64} (h : (s.die n).restartAt = some v) :
    s.fabRestart n = (s.passUntil v.toNat).updDie n Claims.fabGoes := by
  unfold State.fabRestart
  rw [h]
  rfl

theorem clampEpisode_idle {l : ClampLimit}
    (h : (s.die n).clampSince = none ∨ (s.die n).clampDone = true ∨ s.limitHolds n l = false) : s.clampEpisode n l = s := by
  unfold State.clampEpisode
  split
  case h_1 => rfl
  case h_2 t ht =>
    rw [ht] at h
    exact if_pos (by simpa using h)

theorem clampEpisode_at {l : ClampLimit} {t : Nat} (hc : (s.die n).clampSince = some t) (hd : (s.die n).clampDone = false)
    (hl : s.limitHolds n l = true) : s.clampEpisode n l = Claims.conflict (s.passEdges (t + 1000001)) n l := by
  unfold State.clampEpisode
  rw [hc]
  exact if_neg (by simp [hd, hl])

/-! ### Domains (R382, R383) -/

theorem domDone_wake (h : (s.dom n).state = 2) (hn : n ≠ 67) : s.domDone n = (Claims.domNow s n 1).domFollow n := by
  unfold State.domDone
  simp only [if_pos h, if_neg hn]
  rfl

theorem domDone_wake_twikel (h : (s.dom 67).state = 2) :
    s.domDone 67 = (Claims.twkAgain (Claims.domNow s 67 1)).domFollow 67 := by
  unfold State.domDone
  simp only [if_pos h]
  rfl

theorem domDone_off (h : (s.dom n).state = 3) : s.domDone n = (Claims.domNow s n 0).domFollow n := by
  unfold State.domDone
  simp only [h]
  rfl

theorem domDone_idle (h2 : (s.dom n).state ≠ 2) (h3 : (s.dom n).state ≠ 3) : s.domDone n = s :=
  (if_neg h2).trans (if_neg h3)

theorem domFollow_wake (hr : (s.dom n).req = true) (hs : (s.dom n).state = 0) : s.domFollow n = Claims.domNow s n 2 :=
  if_pos (by simp [hr, hs])

theorem domFollow_off (hr : (s.dom n).req = false) (hs : (s.dom n).state = 1) : s.domFollow n = Claims.domNow s n 3 :=
  (if_neg (by simp [hr])).trans (if_pos (by simp [hr, hs]))

end

/-- Settles O39: the loops by their one step, a die's frequency by whether its target is f_n, and each row by its cases. -/
theorem governor : Obligations.Governor := by
  unfold Obligations.Governor
  intro s u
  refine ⟨⟨_, _, loopStep_loops (currentOver_iff s) (currentUnder_iff s) _ _ _ _, rfl⟩,
    ⟨_, _, loopStep_loops decide_eq_true_iff decide_eq_true_iff _ _ _ _, rfl⟩,
    ⟨thermAll s, next_finish (thermalLoop_eq s), thermAll_gov s, thermAll_regs s, fun n hn => ?thermal⟩, ?freq, ?fab, ?clamp, ?domain⟩
  case thermal =>
    have hdie := die_foldl_updDie (thermStep s) (unfenced_nodup s) s hn
    by_cases hm : n ∈ s.unfenced
    · rw [if_pos hm] at hdie
      refine ⟨_, _, hdie, fun _ t h ht hh => ?_, fun hout => absurd hm hout⟩
      subst ht hh
      exact loopStep_loops decide_eq_true_iff decide_eq_true_iff _ _ _ _
    · rw [if_neg hm] at hdie
      exact ⟨(s.die n).therm, (s.die n).thermOk, hdie, fun hin => absurd hin hm, fun _ => ⟨rfl, rfl⟩⟩
  case freq =>
    intro n hn hf hu
    by_cases ht : (s.die n).target = Claims.fn s n
    · obtain ⟨hchange, htarget⟩ := govern_of_target hn hf hu ht
      exact ⟨htarget, fun _ => hchange, fun hne => absurd ht hne⟩
    · obtain ⟨hchange, htarget⟩ := govern_of_other hn hf hu ht
      exact ⟨htarget, fun heq => absurd heq ht, fun _ => ⟨_, hchange, changeAt_spec s.now⟩⟩
  case fab =>
    refine fun n => ⟨fun h => next_finish (fabStop_idle h), ?_, fun h => next_finish (fabRestart_idle h), ?_⟩
    · rintro v f hc hs rfl
      exact next_finish (fabStop_at hc hs)
    · rintro v h rfl
      exact next_finish (fabRestart_at h)
  case clamp =>
    refine fun n l => ⟨fun h => next_finish (clampEpisode_idle h), ?_⟩
    rintro t hc hd hl rfl
    exact next_finish (clampEpisode_at hc hd hl)
  case domain =>
    refine fun d => ⟨fun h => ⟨fun hd => next_finish (domDone_wake h hd), fun hd => next_finish ?_⟩,
      fun h => next_finish (domDone_off h), fun h2 h3 => next_finish (domDone_idle h2 h3), domFollow_wake, domFollow_off⟩
    rw [hd] at h ⊢
    exact domDone_wake_twikel h

end Sys2Proof.Machine
end

section
/-! The Seal Port (R313-R333): what a request row serves, and the effect of each request on Kaolin. -/

namespace Sys2Proof.Machine

/-! ### What a request row serves (R313) -/

section

variable {s t : State} {r : SealReq} {ty : Nat}

theorem serve_unasked (h : Claims.unasked s ty) (good : Bool) (f : State → SealReq → State) : s.serve ty good f = s := by
  unfold State.serve
  rcases h with h | h | h
  · exact if_pos (by simp [h])
  · exact if_pos (by simp [h])
  · rw [h]
    exact ite_self _

theorem serve_asked (h : Claims.asked s ty r t) (good : Bool) (f : State → SealReq → State) :
    s.serve ty good f = if good then f t r else Claims.frameLost t r := by
  obtain ⟨hup, hready, hr, rfl⟩ := h
  unfold State.serve
  rw [hup, hready, hr]
  rfl

/-- The function that a request row runs on the request it serves. -/
def sealServed (ns : Nat) (cut : Bool) : Nat → State → SealReq → State
  | 2 => State.readRecords
  | 3 => State.releaseReq ns
  | 4 => State.signReq
  | 5 => State.calStart
  | 6 => State.calImage
  | _ => State.calEnd ns cut

theorem exec_sealRow {good : Bool} {ns : Nat} {cut : Bool} {i : Instr} (h : Claims.sealRow ty good ns cut = some i) (s : State) :
    exec i s = .next (s.serve ty good (sealServed ns cut ty)).finish := by
  unfold Claims.sealRow at h
  split at h <;> cases h <;> rfl

end

/-! ### The requests -/

section

variable {t : State} {r : SealReq} {c : Cmd}

theorem measure_idle {s : State} (h : s.sealPort.up = false ∨ s.kao.ready = false ∨ 16 ≤ s.kao.open_ ∨ s.measurePick = none)
    (good : Bool) (ns : Nat) : s.measure good ns = s := by
  unfold State.measure
  rcases h with h | h | h | h
  · exact if_pos (by simp [h])
  · exact if_pos (by simp [h])
  · exact if_pos (by simp [h])
  · rw [h]
    exact ite_self _

theorem measure_sent {s : State} (hup : s.sealPort.up = true) (hready : s.kao.ready = true) (hopen : s.kao.open_ < 16)
    (hr : s.measurePick = some r) (ht : t = (s.passUntil r.sendAt.toNat).dropReq r) (good : Bool) (ns : Nat) :
    s.measure good ns =
      if good then Claims.arrived (Claims.kaoAt t ns) (Claims.newRun r t.clk.tb) else Claims.frameLost t r := by
  subst ht
  unfold State.measure
  rw [hr, if_neg (by simp [hup, hready, hopen])]
  cases good <;> rfl

theorem readRecords_old (hc : r.cmd = some c) (hmode : c.par 0 8 = 0) (hold : c.par 64 64 < t.kao.oldest) :
    t.readRecords r = t.reply c 0x12 0 0 0 := by
  unfold State.readRecords
  rw [hc]
  exact if_pos ⟨hmode, hold⟩

theorem readRecords_items (hc : r.cmd = some c) (h : c.par 0 8 ≠ 0 ∨ t.kao.oldest ≤ c.par 64 64) :
    t.readRecords r = (State.hostBytes ((Claims.itemBytes (Claims.readItems t.kao c)).length + 1) t (c.par 192 64)
      (Claims.itemBytes (Claims.readItems t.kao c)) false c.fn).reply c 0
      (if c.par 0 8 = 4 then (Claims.itemBytes (Claims.readItems t.kao c)).length else (Claims.readItems t.kao c).length)
      (Claims.itemNext (Claims.readItems t.kao c) (c.par 64 64) % 2 ^ 32)
      (Claims.itemNext (Claims.readItems t.kao c) (c.par 64 64) / 2 ^ 32) := by
  have hno : ¬ (c.par 0 8 = 0 ∧ c.par 64 64 < t.kao.oldest) := by omega
  unfold State.readRecords
  rw [hc]
  exact if_neg hno

theorem releaseReq_outside (hc : r.cmd = some c) (ns : Nat)
    (h : c.par 64 64 < t.kao.oldest ∨ t.kao.coveredEnd < c.par 64 64) :
    t.releaseReq ns r = (Claims.kaoAt t ns).reply c 0x12 0 0 0 := by
  unfold State.releaseReq
  rw [hc]
  exact if_pos h

theorem releaseReq_inside (hc : r.cmd = some c) (ns : Nat) (hlo : t.kao.oldest ≤ c.par 64 64)
    (hhi : c.par 64 64 ≤ t.kao.coveredEnd) : t.releaseReq ns r = (State.kaoSettle { Claims.kaoAt t ns with
      kao := Claims.released (Claims.kaoAt t ns).kao (c.par 64 64) }).reply c 0 0 (c.par 64 64 % 2 ^ 32)
        (c.par 64 64 / 2 ^ 32) := by
  have hno : ¬ (c.par 64 64 < t.kao.oldest ∨ t.kao.coveredEnd < c.par 64 64) := by omega
  unfold State.releaseReq
  rw [hc]
  exact if_neg hno

theorem signReq_eq (hc : r.cmd = some c) : t.signReq r =
    if 256 < t.kao.blocks.length + t.kao.signing.length + 129 then t.reply c 0x30 0 0 0
    else if t.kao.seqNext ≤ t.kao.coveredEnd then t.reply c 0 0 0 0
    else if t.kao.signing.any (fun m => m.n + 1 == t.kao.seqNext) then { t with kao := Claims.signWaits t.kao c }
    else { t with kao := Claims.signStarts t.kao c } := by
  unfold State.signReq
  rw [hc]
  rfl

theorem calRefuse_eq (hc : r.cmd = some c) (status w0 : Nat) : t.calRefuse r status w0 = Claims.calRefused t c status w0 := by
  unfold State.calRefuse
  rw [hc]
  rfl

theorem calStart_eq (hc : r.cmd = some c) : t.calStart r =
    if t.kao.sealClosed then Claims.calRefused t c 0x60 0
    else if t.kao.blocked then Claims.calRefused t c 0x12 1
    else Claims.calOn t r [] 6 := by
  unfold State.calStart
  rw [calRefuse_eq hc, calRefuse_eq hc]
  rfl

theorem calImage_eq (hc : r.cmd = some c) : t.calImage r =
    if t.kao.cal.isNone then Claims.calRefused t c 0x12 2 else Claims.calOn t r r.body 7 := by
  unfold State.calImage
  rw [calRefuse_eq hc]
  rfl

theorem calEnd_without_image (hc : r.cmd = some c) (ns : Nat) (cut : Bool) (h : t.kao.cal = none) :
    t.calEnd ns cut r = Claims.calRefused (Claims.kaoAt t ns) c 0x12 2 := by
  rw [← calRefuse_eq hc]
  unfold State.calEnd
  change (match t.kao.cal with | none => _ | some b => _) = _
  rw [h]
  rfl

/-- A commit with an image: R332's checks, then the image applied, with the audit entry unless power is lost before it. -/
theorem calEnd_with_image (hc : r.cmd = some c) (ns : Nat) (cut : Bool) {b : List Byte} (h : t.kao.cal = some b) :
    t.calEnd ns cut r = match Claims.calCheck t.kao r b with
      | some (e, w) => Claims.calRefused (Claims.kaoAt t ns) c e w
      | none =>
        if cut then Claims.cutAfter (Claims.kaoAt t ns) r b
        else State.reply { Claims.kaoAt t ns with kao := ((Claims.kaoAt t ns).kao.applyCal b).auditCal } c 0 0 0 0 := by
  unfold State.calEnd Claims.calCheck
  change (match t.kao.cal with | none => _ | some b => _) = _
  rw [h]
  simp only [calRefuse_eq hc]
  change (if (!calFormOk b r.imageLen) = true then _ else if leAt b 8 8 ≠ duid.toNat then _
    else if leAt b 16 4 ≠ t.kao.mec.toNat + 1 then _
    else if (!p256.verify t.kao.authority (sha256 (b.take (b.length - 64))) (slice b (b.length - 64) 64)) = true then _
    else if t.kao.sealClosed = true then _ else _) = _
  by_cases hform : calFormOk b r.imageLen = false
  · rw [if_pos (by rw [hform]; rfl), if_pos hform]
    rfl
  rw [if_neg (by simpa using hform), if_neg hform]
  by_cases hduid : leAt b 8 8 ≠ duid.toNat
  · rw [if_pos hduid, if_pos hduid]
    rfl
  rw [if_neg hduid, if_neg hduid]
  by_cases hmec : leAt b 16 4 ≠ t.kao.mec.toNat + 1
  · rw [if_pos hmec, if_pos hmec]
    rfl
  rw [if_neg hmec, if_neg hmec]
  by_cases hsig : p256.verify t.kao.authority (sha256 (b.take (b.length - 64))) (slice b (b.length - 64) 64) = false
  · rw [if_pos (by rw [hsig]; rfl), if_pos hsig]
    rfl
  rw [if_neg (by simpa using hsig), if_neg hsig]
  by_cases hseal : t.kao.sealClosed = true
  · rw [if_pos hseal, if_pos hseal]
    rfl
  rw [if_neg hseal, if_neg hseal, hc]
  rfl

end

/-! ### STATUS (R313) -/

theorem poll_good {s : State} (hup : s.sealPort.up = true) (hready : s.kao.ready = true) : s.poll true = Claims.polled s := by
  unfold State.poll
  rw [hup, hready]
  rfl

/-! ### What a commit writes (R333) -/

section

variable (k : Kao) (b : List Byte)

theorem applyCal_bank (h : leAt b 4 2 = 1) : (k.applyCal b).mec = k.nextMec ∧ (k.applyCal b).active = !k.active ∧
    (k.applyCal b).bank = slice b 64 33424 ∧ (k.applyCal b).calId = k.calId + 1 ∧
    (k.applyCal b).bankDigest = sha256 (slice b 64 33424) ∧ (k.applyCal b).uncal = false ∧
    (k.applyCal b).authKey = k.authKey := by
  unfold Kao.applyCal
  simp only [h, if_true]
  cases ha : k.active <;> simp [Kao.bank, calBodyLen]

theorem applyCal_key (h : leAt b 4 2 ≠ 1) : k.applyCal b = { k with
    mec := k.nextMec, cal := none, authKey := slice b 64 64,
    word := some { mec := k.nextMec, kind := leAt b 4 2, digest := sha256 (slice b 64 64) } } := by
  unfold Kao.applyCal calBodyLen
  simp only [if_neg h]

theorem applyCal_mec : (k.applyCal b).mec = k.nextMec := by
  by_cases h : leAt b 4 2 = 1
  · exact (applyCal_bank k b h).1
  · rw [applyCal_key k b h]

end

/-! ### The commands -/

section

variable {s t : State} {c : Cmd}

theorem kaoReadCmd_other (h : c.par 0 8 < 5) : t.kaoReadCmd c = t.ask c 2 [] 0 := by
  unfold State.kaoReadCmd
  rw [if_neg (by omega), if_neg (by omega)]

theorem kaoCalCmd_free (d : HostData) (h : (t.sealPort.waitingR ++ t.sealPort.sent).any (fun x => decide (5 ≤ x.ty)) = false) :
    t.kaoCalCmd false d c =
      if dataBad d then (State.noteRead (Claims.fetched t c (c.par 0 64) (min (c.par 64 32) 33552)) false d).reply c 0x12 0 0 0
      else (State.noteRead (Claims.fetched t c (c.par 0 64) (min (c.par 64 32) 33552)) false d).ask c 5
        (slice d.bytes 0 (min (c.par 64 32) 33552)) 0 := by
  unfold State.kaoCalCmd
  rw [h]
  rfl

end

/-- Settles O34: each command by what it asks, each request row by what it serves, and R332's checks in their order. -/
theorem sealRequests : Obligations.SealRequests := by
  unfold Obligations.SealRequests
  intro s t c r
  refine ⟨?measureCmd, ?readCmd, ?calCmd, fun good ns h => next_finish (measure_idle h good ns), ?sent,
    ?unasked, ?bad, fun hc => ⟨?reads, ?releases, ?signs, ?begins, ?data, ?commits⟩, ?applied,
    fun good h => next_finish (if_pos (by rw [h]; rfl)), fun hup hready => next_finish (poll_good hup hready)⟩
  case measureCmd =>
    rintro ht n rfl
    exact ⟨fun h => row_of_turn ht rfl (if_pos h), fun h => row_of_turn ht rfl (if_neg (Nat.not_le.mpr h))⟩
  case readCmd =>
    intro ht
    refine ⟨fun h => row_of_turn ht rfl ?_, fun h => row_of_turn ht rfl ?_, fun h => row_of_turn ht rfl (kaoReadCmd_other h)⟩
    all_goals
      unfold State.kaoReadCmd
      rw [h]
      rfl
  case calCmd =>
    rintro d ht b rfl
    refine ⟨fun hb => row_of_turn ht rfl (if_pos hb), ?_⟩
    rintro u hb rfl
    have hfree := kaoCalCmd_free (c := c) d hb
    exact ⟨fun hbad => row_of_turn ht rfl (hfree.trans (if_pos hbad)),
      fun hok => row_of_turn ht rfl (hfree.trans (if_neg (by simp [hok])))⟩
  case sent =>
    intro hup hready hopen hr u ns hu
    exact ⟨next_finish (measure_sent hup hready hopen hr hu true ns), next_finish (measure_sent hup hready hopen hr hu false ns)⟩
  case unasked => exact fun ty good ns cut i hi h => (exec_sealRow hi s).trans (next_finish (serve_unasked h good _))
  case bad => exact fun ty ns cut i hi h => (exec_sealRow hi s).trans (next_finish (serve_asked h false _))
  case reads =>
    intro h
    refine ⟨fun hmode hold => next_finish ((serve_asked h true _).trans (readRecords_old hc hmode hold)), ?_⟩
    rintro its bs n hin rfl rfl rfl
    exact next_finish ((serve_asked h true _).trans (readRecords_items hc hin))
  case releases =>
    rintro h ns u rfl
    refine ⟨fun hout => next_finish ((serve_asked h true _).trans (releaseReq_outside hc ns hout)), ?_⟩
    rintro upto v rfl hlo hhi rfl
    exact next_finish ((serve_asked h true _).trans (releaseReq_inside hc ns hlo hhi))
  case signs =>
    intro h
    have hrow := (serve_asked h true State.signReq).trans (signReq_eq hc)
    refine ⟨fun hfull => next_finish (hrow.trans (if_pos hfull)), fun hroom => ?_⟩
    rw [if_neg (Nat.not_lt.mpr hroom)] at hrow
    refine ⟨fun hcov => next_finish (hrow.trans (if_pos hcov)), fun hnew => ?_⟩
    rw [if_neg (Nat.not_le.mpr hnew)] at hrow
    exact ⟨fun hj => next_finish (hrow.trans (if_pos hj)), fun hj => next_finish (hrow.trans (if_neg (by simp [hj])))⟩
  case begins =>
    intro h
    have hrow := (serve_asked h true State.calStart).trans (calStart_eq hc)
    refine ⟨fun hs => next_finish (hrow.trans (if_pos hs)), fun hs hb => ?_, fun hs hb => ?_⟩
    all_goals rw [if_neg (by simp [hs])] at hrow
    · exact next_finish (hrow.trans (if_pos hb))
    · exact next_finish (hrow.trans (if_neg (by simp [hb])))
  case data =>
    intro h
    have hrow := (serve_asked h true State.calImage).trans (calImage_eq hc)
    exact ⟨fun hn => next_finish (hrow.trans (if_pos (by rw [hn]; rfl))),
      fun b hb => next_finish (hrow.trans (if_neg (by simp [hb])))⟩
  case commits =>
    rintro h ns u rfl
    refine ⟨fun cut hn => next_finish ((serve_asked h true _).trans (calEnd_without_image hc ns cut hn)), fun b hb => ?_⟩
    have hrow := fun cut => (serve_asked h true (State.calEnd ns cut)).trans (calEnd_with_image hc ns cut hb)
    refine ⟨fun cut e w hcheck => next_finish ?_, fun hcheck => ⟨next_finish ?_, next_finish ?_⟩⟩
    all_goals rw [hrow, hcheck]
    · rfl
    · rfl
  case applied =>
    refine fun k b => ⟨applyCal_mec k b, fun h => ?_, fun h => ?_⟩
    · obtain ⟨-, hactive, hbank, hid, hdigest, huncal, hkey⟩ := applyCal_bank k b h
      exact ⟨hactive, hbank, hid, hdigest, huncal, hkey⟩
    · rw [applyCal_key k b (by omega)]
      exact ⟨rfl, rfl, rfl, rfl⟩

end Sys2Proof.Machine
end

section
/-! The events of Kaolin (R312-R334): edges, limits, conversions, signature blocks, the reference, the seal, reset and start, and
commands that get no answer. -/

namespace Sys2Proof.Machine

/-! ### The request an event is for -/

/-- The element that a search takes has the property. -/
theorem takeFirst_holds {α : Type} {p : α → Bool} {xs : List α} {x : α} {rest : List α}
    (h : takeFirst p xs = some (x, rest)) : p x = true := by
  induction xs generalizing rest with
  | nil => cases h
  | cons y ys ih =>
    unfold takeFirst at h
    by_cases hy : p y = true
    · rw [if_pos hy] at h
      cases h
      exact hy
    · rw [if_neg hy] at h
      obtain ⟨⟨z, zs⟩, hz, heq⟩ := Option.map_eq_some_iff.mp h
      cases heq
      exact ih hz

/-! ### Edges (R319) -/

/-- What an edge of raw time t and time x does to the request that awaits it, on channel ch. -/
def edgeFor (u : State) (ch t : Nat) (x : Int) (r : KRun) (rest : List KRun) : State :=
  match r.startEdge with
  | none =>
    if t < r.sampleFrom then u
    else if r.startLimit < t then Claims.runEnds u r rest 1
    else (Claims.putBack u r (Claims.opened r x t)).stamp ch t
  | some (y, t0) =>
    if t0 + stopLimit < t then Claims.runEnds u r rest 2
    else if r.stops + 1 < r.q then (Claims.putBack u r (Claims.counted r)).stamp ch t
    else Claims.afterSample (u.stamp ch t) r rest (Claims.sampled (Claims.sampleOver r t) (r.interval y x))

section

variable {s u : State} {r : KRun} {rest : List KRun} {ch coarse code t : Nat} {falling : Bool} {x : Int}

theorem sense_not_ready (h : s.kao.ready = false) : s.sense ch falling coarse code = s := by
  unfold State.sense
  rw [h]
  exact if_pos (by rw [if_neg (by decide), h]; rfl)

theorem sense_ready (h : s.kao.ready = true) (ht : t = rawTime coarse code) (hu : u = Claims.kaoAt s (t / 2048000000)) :
    s.sense ch falling coarse code = if s.kao.dead ch t then u else
      match takeFirst (fun y => y.awaits ch falling) s.kao.held with
      | none => u
      | some (r, rest) => edgeFor u ch t (r.edgeTime ch coarse code) r rest := by
  subst ht hu
  unfold State.sense
  rw [h]
  change (if (!s.kao.ready || s.kao.dead ch (rawTime coarse code)) = true then _ else _) = _
  rw [h]
  rfl

theorem sense_unawaited (h : s.kao.ready = true) (ht : t = rawTime coarse code) (hu : u = Claims.kaoAt s (t / 2048000000))
    (hno : s.kao.dead ch t = true ∨ takeFirst (fun y => y.awaits ch falling) s.kao.held = none) :
    s.sense ch falling coarse code = u := by
  rw [sense_ready h ht hu]
  rcases hno with hdead | hnone
  · exact if_pos hdead
  · rw [hnone]
    exact ite_self _

theorem sense_awaited (h : s.kao.ready = true) (ht : t = rawTime coarse code) (hu : u = Claims.kaoAt s (t / 2048000000))
    (hdead : s.kao.dead ch t = false) (hr : takeFirst (fun y => y.awaits ch falling) s.kao.held = some (r, rest)) :
    s.sense ch falling coarse code = edgeFor u ch t (r.edgeTime ch coarse code) r rest := by
  rw [sense_ready h ht hu, hdead, hr]
  rfl

theorem edgeFor_start (h : r.startEdge = none) : edgeFor u ch t x r rest =
    if t < r.sampleFrom then u
    else if r.startLimit < t then Claims.runEnds u r rest 1
    else (Claims.putBack u r (Claims.opened r x t)).stamp ch t := by
  unfold edgeFor
  rw [h]

theorem edgeFor_stop {y : Int} {t0 : Nat} (h : r.startEdge = some (y, t0)) : edgeFor u ch t x r rest =
    if t0 + stopLimit < t then Claims.runEnds u r rest 2
    else if r.stops + 1 < r.q then (Claims.putBack u r (Claims.counted r)).stamp ch t
    else Claims.afterSample (u.stamp ch t) r rest (Claims.sampled (Claims.sampleOver r t) (r.interval y x)) := by
  unfold edgeFor
  rw [h]

/-! ### Limits (R320) -/

section

variable {p q : KRun → Bool}

theorem noEdge_none (hp : p = fun x => x.running && !x.isDc && q x) (status : Nat) (h : Claims.noRun s p) :
    s.noEdge q status = s := by
  subst hp
  unfold State.noEdge
  rcases h with h | h
  · exact if_pos (by simp [h])
  · rw [h]
    exact ite_self _

theorem noEdge_run (hp : p = fun x => x.running && !x.isDc && q x) (status : Nat) (h : Claims.runFor s p r rest) :
    s.noEdge q status = Claims.runEnds (Claims.kaoAt s (r.limit / 2048000000)) r rest status := by
  subst hp
  obtain ⟨hready, hr⟩ := h
  unfold State.noEdge
  rw [hready, hr]
  rfl

end

theorem limit_before_start (h : r.startEdge = none) : r.limit = r.startLimit := by
  unfold KRun.limit
  rw [h]

theorem limit_after_start {y : Int} {t0 : Nat} (h : r.startEdge = some (y, t0)) : r.limit = t0 + stopLimit := by
  unfold KRun.limit
  rw [h]

/-! ### Conversions (R315, R317) -/

section

variable {code : BitVec 24} {ns : Nat}

/-- The end codes of the converter are the ends of its range. -/
theorem endCode_iff : (code = 0x800000 ∨ code = 0x7FFFFF) ↔ (code.toInt = -8388608 ∨ code.toInt = 8388607) := by
  rw [← BitVec.toInt_inj, ← BitVec.toInt_inj]
  rfl

theorem convert_not_ready (h : s.kao.ready = false) : s.convert ch code ns = s := if_pos (by simp [h])

theorem convert_none (h : s.kao.ready = true) (hr : takeFirst (fun x => x.running && x.isDc && bitsOf x.byteA 0 3 == ch)
    s.kao.held = none) : s.convert ch code ns = Claims.kaoAt s ns := by
  have hheld : takeFirst (fun x => x.running && x.isDc && bitsOf x.byteA 0 3 == ch)
    (s.updKao (fun k => k.reach ns)).kao.held = none := hr
  unfold State.convert
  simp only [h, hheld]
  rfl

theorem convert_run (h : s.kao.ready = true) (hr : takeFirst (fun x => x.running && x.isDc && bitsOf x.byteA 0 3 == ch)
    s.kao.held = some (r, rest)) : s.convert ch code ns =
      if r.conv < 5 then Claims.putBack (Claims.kaoAt s ns) r (Claims.converted r)
      else if code = 0x800000 ∨ code = 0x7FFFFF then Claims.runEnds (Claims.kaoAt s ns) (Claims.converted r) rest 3
      else Claims.afterSample (Claims.kaoAt s ns) r rest
        (Claims.sampled (Claims.converted r) (r.dcValue ch code.toInt)) := by
  have hheld : takeFirst (fun x => x.running && x.isDc && bitsOf x.byteA 0 3 == ch)
    (s.updKao (fun k => k.reach ns)).kao.held = some (r, rest) := hr
  unfold State.convert
  simp only [h, hheld]
  rfl

end

/-! ### Signature blocks, reset and start -/

theorem blockDone_idle (h : s.kao.ready = false ∨ s.kao.signing = []) : s.blockDone = s := by
  unfold State.blockDone
  rcases h with h | h
  · exact if_pos (by simp [h])
  · rw [h]
    exact ite_self _

theorem blockDone_written {b : SigBlock} {bs : List SigBlock} (h : s.kao.ready = true) (hb : s.kao.signing = b :: bs)
    (hu : u = Claims.kaoIs s (Claims.blockWritten s.kao b bs)) : s.blockDone =
      if s.sealPort.up then (s.kao.signCmd.filter (fun p => decide (p.1 ≤ b.n))).foldl (fun v p => v.reply p.2 0 0 0 0) u
      else u := by
  subst hu
  unfold State.blockDone
  rw [h, hb]
  rfl

/-- A reset answers no command: each request held and each SIGN that waits stays without an answer (R312, R314). -/
theorem kaoReset_sent (s : State) : s.kaoReset.sealPort.sent.length =
    s.sealPort.sent.length + s.kao.held.length + s.kao.signCmd.length := by
  simp [State.kaoReset, State.updSeal, State.updKao, Nat.add_assoc]

/-- Kaolin's start with a look at the seal (R312, R328). -/
theorem begin_eq (k : Kao) (hi : Bool) : k.begin_ hi =
    (if k.sealClosed && hi then Claims.breaks (Claims.kaoStarts k) else Claims.kaoStarts k).beginSign := rfl

theorem ready_waits {hi : Bool} (h : s.kao.rstLow = true ∨ s.kao.ready = true) :
    exec (.kaolinReady hi) s = .next s.finish := next_finish (if_neg (by rcases h with h | h <;> simp [h]))

theorem ready_starts {hi : Bool} (hrst : s.kao.rstLow = false) (hready : s.kao.ready = false) :
    exec (.kaolinReady hi) s = .next (Claims.kaoIs s (s.kao.begin_ hi)).finish := next_finish (if_pos (by simp [hrst, hready]))

/-! ### Commands without an answer (R314) -/

theorem kaoTimeout_idle (h : s.lateReq = none) : s.kaoTimeout = s := by
  unfold State.kaoTimeout
  rw [h]

/-- A request that is given up leaves the Seal Port, and with it a calibration write in progress (R314). -/
theorem givenUp_eq (v : State) (q : SealReq) : Claims.givenUp v q =
    if 5 ≤ q.ty then ((v.dropReq q).updSeal (fun e => { e with sent := e.sent.filter (fun x => x != q) })).updKao
      (fun k => { k with cal := none })
    else (v.dropReq q).updSeal (fun e => { e with sent := e.sent.filter (fun x => x != q) }) := by
  unfold Claims.givenUp
  by_cases h : 5 ≤ q.ty
  · rw [if_pos h, if_pos h]
    rfl
  · rw [if_neg h, if_neg h]
    rfl

theorem kaoTimeout_late {q : SealReq} {c : Cmd} (hq : s.lateReq = some q) (hc : q.cmd = some c) : s.kaoTimeout =
    ((Claims.givenUp (s.passEdges (q.since + 1000000)) q).bump (kaoOff 4) 0 32 1).reply c 0x70 0 0 0 := by
  unfold State.kaoTimeout
  rw [hq]
  simp only [hc, givenUp_eq]

end

/-- Settles O35: each event by its cases, an edge and a conversion through the request that awaits them. -/
theorem kaolinEvents : Obligations.KaolinEvents := by
  unfold Obligations.KaolinEvents
  intro s r rest
  refine ⟨?edges, ?starts, ?stops, ?conversions, fun h => next_finish (blockDone_idle h), ?blocks, ?refFrozen, ?ref, ?seals,
    ?asleep, ?release, ?reset, fun hi h => ready_waits h, ?begins, fun h => next_finish (kaoTimeout_idle h), ?late⟩
  case edges =>
    rintro ch f coarse code p t rfl ht
    refine ⟨fun h => next_finish (sense_not_ready h), fun u h hu => ⟨fun hno => next_finish (sense_unawaited h ht hu hno), ?_⟩⟩
    rintro hdead hr x rfl
    have hrow := sense_awaited h ht hu hdead hr
    refine ⟨fun hs => ?_, fun y t0 hs => ?_⟩
    · rw [edgeFor_start hs] at hrow
      refine ⟨fun hlt => next_finish (hrow.trans (if_pos hlt)), fun hle hlim => ?_, fun hle hlim => ?_⟩
      all_goals rw [if_neg (Nat.not_lt.mpr hle)] at hrow
      · exact next_finish (hrow.trans (if_pos hlim))
      · exact next_finish (hrow.trans (if_neg (Nat.not_lt.mpr hlim)))
    · rw [edgeFor_stop hs] at hrow
      refine ⟨fun hlt => next_finish (hrow.trans (if_pos hlt)), fun hle hq => ?_, fun hle hq => ?_⟩
      all_goals rw [if_neg (Nat.not_lt.mpr hle)] at hrow
      · exact next_finish (hrow.trans (if_pos hq))
      · exact next_finish (hrow.trans (if_neg (Nat.not_lt.mpr hq)))
  case starts =>
    intro ch p hp
    refine ⟨fun h => next_finish (noEdge_none hp 1 h), fun h => next_finish ?_⟩
    have hnone : r.startEdge = none := by
      have hr := takeFirst_holds h.2
      rw [hp] at hr
      simp only [Bool.and_eq_true, Option.isNone_iff_eq_none] at hr
      exact hr.2.2
    rw [← limit_before_start hnone]
    exact noEdge_run hp 1 h
  case stops =>
    refine fun ch p hp => ⟨fun h => next_finish (noEdge_none hp 2 h), fun y t0 h hs => next_finish ?_⟩
    rw [← limit_after_start hs]
    exact noEdge_run hp 2 h
  case conversions =>
    rintro ch code ns p rfl
    refine ⟨fun h => next_finish (convert_not_ready h), ?_⟩
    rintro u h rfl
    refine ⟨fun hr => next_finish (convert_none h hr), fun hr => ?_⟩
    have hrow := convert_run (code := code) (ns := ns) h hr
    refine ⟨fun hlt => next_finish (hrow.trans (if_pos hlt)), fun hle hend => ?_, fun hle hlo hhi => ?_⟩
    all_goals rw [if_neg (Nat.not_lt.mpr hle)] at hrow
    · exact next_finish (hrow.trans (if_pos (endCode_iff.mpr hend)))
    · exact next_finish (hrow.trans (if_neg fun hend => (endCode_iff.mp hend).elim hlo hhi))
  case blocks =>
    intro b bs u h hb hu
    have hrow := blockDone_written h hb hu
    exact ⟨fun hup => next_finish (hrow.trans (if_neg (by simp [hup]))), fun hup => next_finish (hrow.trans (if_pos hup))⟩
  case refFrozen => exact fun h => ⟨next_finish (if_pos h), next_finish (if_pos h)⟩
  case ref => exact fun h => ⟨next_finish (if_neg (by simp [h])), next_finish (if_neg (by simp [h]))⟩
  case seals =>
    exact fun h => ⟨fun hc => ⟨next_finish (if_pos (by simp [h, hc])), next_finish (if_neg (by simp [hc]))⟩,
      fun hc => ⟨next_finish (if_pos (by simp [h, hc])), next_finish (if_neg (by simp [hc]))⟩⟩
  case asleep => exact fun h => ⟨next_finish (if_neg (by simp [h])), next_finish (if_neg (by simp [h]))⟩
  case release =>
    intro k100 u hlow hhigh
    refine next_finish (congrArg (fun v => Claims.kaoPower v true) ?_)
    by_cases h : s.kao.rstLow = true
    · exact (if_pos h).trans (hlow h).symm
    · exact (if_neg h).trans (hhigh (by simpa using h)).symm
  case reset =>
    intro level k100 v t h ht
    have hrow : exec (.krstN level ⟨k100, v⟩) s = .next (Claims.kaoPower s.kaoReset v).finish := by
      refine next_finish (congrArg (fun u => Claims.kaoPower u v) (if_neg ?_))
      rcases h with h | h <;> simp [h]
    exact ⟨s.kaoReset, Host.Outcome.next.inj (ht.symm.trans hrow), rfl, kaoReset_sent s, rfl⟩
  case begins =>
    intro hrst hready
    refine ⟨fun hc => (ready_starts hrst hready).trans ?_, fun hc => (ready_starts hrst hready).trans ?_,
      (ready_starts hrst hready).trans ?_⟩
    all_goals rw [begin_eq]
    · rw [hc]
      rfl
    · rw [hc]
      rfl
    · rw [Bool.and_false]
      rfl
  case late =>
    rintro q c u hq hc rfl
    exact next_finish (kaoTimeout_late hq hc)

end Sys2Proof.Machine
end
